-- ==== Sys2Proof/Word.lean ====
section
/-! DEFINITION. The word types of the XL9620 and the table type that holds its numbered elements. -/

namespace Sys2Proof

/-- One byte of a shared structure (R7). -/
abbrev Byte := BitVec 8
/-- A 16-bit field: COUNT, LANE, TARGET, TAG. -/
abbrev Half := BitVec 16
/-- A 32-bit register of the port space (R56). -/
abbrev Word := BitVec 32
/-- A 64-bit address, register or pilot time. -/
abbrev DWord := BitVec 64

/-- A table of numbered elements: pairs of number and element, numbers strictly rising, and no
element equal to the table's reset element (the canonical form is `Machine.Tab.wf`). -/
abbrev Tab (α : Type) := List (Nat × α)

end Sys2Proof
end

