-- ==== Sys2Proof/Syntax.lean ====
section
/-! DEFINITION. The commands of the XL9620: one constructor of `Instr` per row of spec/opcode_table.json,
with the operands a command brings from outside the device (what a bus device answered, what a host
read returned, a level at a ball). Everything else a command uses is in the state. -/

namespace Sys2Proof

/-- Who makes a register access: a function through its BARs, the steward of a die, or a management
controller on an out-of-band target lane (R73 SOURCE). -/
inductive Who where
  | fn (f : Nat)
  | steward (d : Nat)
  | oob (lane : Nat)
  deriving DecidableEq, Repr

/-- Where a work order, admin command or mailbox command stands: entry of queue `q` of function `f`
(R267), the register mailbox of function `f` (R263), a submission of user context `c` of die `d` (R384). -/
inductive EntrySrc where
  | queue (f q : Nat)
  | mailbox (f : Nat)
  | policy (d c : Nat)
  deriving DecidableEq, Repr

/-- How a PCIe read completion ends (R144). -/
inductive CplStatus where
  | success
  | completerAbort
  | unsupported
  | poisoned
  deriving DecidableEq, Repr

/-- What a lane's shifter sensed of a transaction that ended: the condition, as its DEVICE STATUS class (R117, R196), 0 also where the
lane itself is to compare a PEC or an acknowledge pattern; the bytes of the command that the device took; the bytes received in bus order
since the last piece, on a frame lane the response; the PEC byte that followed the last byte of a read (R175); how often arbitration was
lost (R174); the SCL pulses of a recovery (R190), and whether a recovery after a failed idle check succeeded. -/
structure BusResult where
  cls : BitVec 4
  sent : Nat
  recv : List Byte
  pec : Option Byte
  losses : Nat
  pulses : Nat
  recovered : Bool
  deriving DecidableEq, Repr

/-- How a wait of a lane ran out (R188): the bytes the device had taken and those received since the last piece, the tick at which
arbitration was lost where the lane waits for a STOP (R174), and the recovery that follows: its SCL pulses and whether it succeeded (R190). -/
structure LaneWait where
  sent : Nat
  recv : List Byte
  lostAt : Option Nat
  pulses : Nat
  recovered : Bool
  deriving DecidableEq, Repr

/-- What a management controller does with a target lane (R193, R194): a transfer with the bytes it writes after the address, those it then
reads, and the PEC byte that ends its write; the dynamic address given by ENTDAA; SETDASA to a static address. -/
inductive TargetReq where
  | transfer (written : List Byte) (nread : Nat) (pec : Option Byte)
  | entdaa (address : BitVec 7)
  | setdasa (to_ address : BitVec 7)
  deriving DecidableEq, Repr

/-- A virtual channel of the Arc bridge (R337). -/
inductive ArcChannel where
  | posted
  | nonPosted
  | completion
  deriving DecidableEq, Repr

/-- A block with an idle point of its own (R70, R260, R309, R325, R456). -/
inductive IdleBlock where
  | lane (n : Nat)
  | cluster (c : Nat)
  | adminQueue (f : Nat)
  | channel (n : Nat)
  | route (s : Nat)
  | linkPort (p : Nat)
  deriving DecidableEq, Repr

/-- A condition at a sense comparator (R231): the input against the threshold, in ADC codes. -/
abbrev Code := BitVec 12

/-- A bus request in an arbitration phase (R329): the requester, the beats of its burst and whether
firmware marks it urgent (R331). -/
structure BusReq where
  q : Nat
  beats : Nat
  urgent : Bool
  deriving DecidableEq, Repr

/-- The memories of R393. -/
inductive MemKind where
  | regionSram
  | clusterMem
  | stewardSram
  | chordStore
  | blackBox
  | queueState
  deriving DecidableEq, Repr

/-- What SECDED finds in a word (R344). -/
inductive EccFound where
  | clean
  | ce
  | ue
  deriving DecidableEq, Repr

/-- What stops the Arc bridge (R341, R343 CAUSE). -/
inductive ArcCause where
  | replayLimit
  | silence
  | otherReset
  | trainingFailed
  deriving DecidableEq, Repr

/-- Which clock domain a wake starts (R459, R460). -/
inductive WakeTarget where
  | region (r : Nat)
  | die (d : Nat)
  deriving DecidableEq, Repr

/-- Why a UP link port goes down (R436). -/
inductive PortLoss where
  | noBlock
  | badHeaders
  | nakLimit
  | newSerial
  | refclkLost
  deriving DecidableEq, Repr

/-- The header of a Polob packet (R432 HEADER and TRAILER). -/
structure PktHdr where
  dest : BitVec 5
  src : BitVec 5
  seq : Half
  crcOk : Bool
  deriving DecidableEq, Repr

/-- A lane command as LANE_CMD carries it (R437): lane, CCW command code, COUNT, TARGET, and the home
program's slot, function, tag and generation (R143). -/
structure RemoteCmd where
  lane : Nat
  code : Byte
  count : Nat
  target : Half
  slot : Nat
  fn : Nat
  tag : Half
  gen : BitVec 4
  deriving DecidableEq, Repr

/-- A result as LANE_RESULT carries it (R433, R140): DEVICE STATUS, the check as a bit of CHANNEL STATUS (0 for none) with
its REASON, and the bytes not moved; `words` says that data crosses that lane in 16-bit words, most significant byte first, which the
home needs for the order R114 feeds bytes in (log 71). -/
structure RemoteRes where
  dev : Half
  chan : Half
  reason : Byte
  resid : Nat
  words : Bool
  deriving DecidableEq, Repr

/-- How far a lane's transaction had come: the bytes the device took, and the bytes received. -/
structure LaneCut where
  lane : Nat
  sent : Nat
  recv : List Byte
  deriving DecidableEq, Repr

/-- The straps sampled at PORST_N rising (R473). -/
structure Straps where
  devid : BitVec 5
  standby : Bool
  tiebreak : Bool
  otpSkip : Bool
  deriving DecidableEq, Repr

/-- The XL9620's commands, in the order of spec/opcode_table.json. -/
inductive Instr where
  /-- NOP (R78): the CCW at the slot's next address. -/
  | nop (slot : Nat)
  /-- WRITE (R78). -/
  | write (slot : Nat)
  /-- READ (R78). -/
  | read (slot : Nat)
  /-- XACT (R82). -/
  | xact (slot : Nat)
  /-- LANE_RESET (R83). -/
  | laneReset (slot : Nat)
  /-- BUS_RECOVER (R190). -/
  | busRecover (slot : Nat)
  /-- RELEASE (R83). -/
  | release (slot : Nat)
  /-- RX_FLUSH (R182). -/
  | rxFlush (slot : Nat)
  /-- UART_BREAK (R182). -/
  | uartBreak (slot : Nat)
  /-- TACH_RESTART (R182). -/
  | tachRestart (slot : Nat)
  /-- PWM_FORCE (R182). -/
  | pwmForce (slot : Nat)
  /-- SENSE (R195). -/
  | sense (slot : Nat)
  /-- GANG_WRITE (R108). -/
  | gangWrite (slot : Nat)
  /-- JUMP (R93). -/
  | jump (slot : Nat)
  /-- TEST (R101). -/
  | test (slot : Nat)
  /-- WAIT (R103). -/
  | wait (slot : Nat)
  /-- DELAY (R105). -/
  | delay (slot : Nat)
  /-- SIGNAL (R86). -/
  | signal (slot : Nat)
  /-- POST (R87). -/
  | post (slot : Nat)
  /-- METER_CCW_READ (R84). -/
  | meterCcwRead (slot : Nat)
  /-- METER_CCW_LOAD (R248). -/
  | meterCcwLoad (slot : Nat)
  /-- METER_CCW_CLEAR (R246). -/
  | meterCcwClear (slot : Nat)
  /-- MARK (R85). -/
  | mark (slot : Nat)
  /-- COPY (R88). -/
  | copy (slot : Nat)
  /-- HALT (R89). -/
  | halt (slot : Nat)
  /-- CCW_FETCH (R127): the sequencer issues the slot's next prefetch read. -/
  | ccwFetch (slot : Nat)
  /-- HOST_READ_COMPLETION (R144): read number `id` (an outstanding fetch or data read, or a read made
  inside a whole step) at host address `addr` returns `data` or fails. -/
  | hostReadCompletion (id : Nat) (addr : DWord) (data : List Byte) (st : CplStatus)
  /-- COMPLETION_TIMEOUT (R144): no completion arrives for `len` bytes at `addr`. -/
  | completionTimeout (id : Nat) (addr : DWord) (len : Nat)
  /-- PROGRAM_ADMIT (R124): the next program of the cluster's lists takes a slot; `adopted` names the
  list of the lost cluster that this cluster adopts (R406). -/
  | programAdmit (cluster : Nat) (adopted : Bool)
  /-- LANE_TRANSACTION_END (R109): the lane's running command ends. -/
  | laneTransactionEnd (lane : Nat) (res : BusResult)
  /-- FORWARDED_COMMAND (R163): the oldest command in flight to the cluster is taken in. -/
  | forwardedCommand (cluster : Nat)
  /-- FORWARDED_RESULT (R140): the oldest result in flight to the slot arrives. -/
  | forwardedResult (slot : Nat)
  /-- PATH_PIECE (R315): one piece of the slot's data is moved by a path channel; `recv` are bytes that the lane of set position `pos`
  has received since the last piece, none for a piece of the other kinds. -/
  | pathPiece (slot pos : Nat) (recv : List Byte)
  /-- WAIT_TIMEOUT (R103). -/
  | waitTimeout (slot : Nat)
  /-- DELAY_ELAPSED (R105). -/
  | delayElapsed (slot : Nat)
  /-- LANE_TIMEOUT (R188): the bounded wait of the lane's running command expires at byte `index`; `recovered` when the recovery
  that follows succeeds. -/
  | laneTimeout (lane : Nat) (w : LaneWait)
  /-- LANE_STALL_TIMEOUT (R189). -/
  | laneStallTimeout (lane : Nat) (sent : Nat) (recv : List Byte)
  /-- HOLD_TIMEOUT (R191). -/
  | holdTimeout (lane : Nat)
  /-- TRANSACTION_CUT (R134): the lane's transaction is cut after `sent` bytes and those received. -/
  | transactionCut (lane : Nat) (sent : Nat) (recv : List Byte)
  /-- START (R280). -/
  | start (src : EntrySrc)
  /-- RESUME (R137). -/
  | resume (src : EntrySrc)
  /-- HALT_PROGRAM (R136). -/
  | haltProgram (src : EntrySrc)
  /-- ARM_CHORD (R213). -/
  | armChord (src : EntrySrc)
  /-- DISARM_CHORD (R218). -/
  | disarmChord (src : EntrySrc)
  /-- SIGNAL_WORK_ORDER (R280). -/
  | signalWorkOrder (src : EntrySrc)
  /-- METER_SET (R248). -/
  | meterSet (src : EntrySrc)
  /-- METER_READ (R280). -/
  | meterRead (src : EntrySrc)
  /-- BUFFER_ALLOC (R286). -/
  | bufferAlloc (src : EntrySrc)
  /-- BUFFER_FREE (R288). -/
  | bufferFree (src : EntrySrc)
  /-- LANE_CONFIG_REGISTERS (R282). -/
  | laneConfigRegisters (src : EntrySrc)
  /-- LANE_CONFIG_LANE_SET (R282). -/
  | laneConfigLaneSet (src : EntrySrc)
  /-- NOP_WORK_ORDER (R280). -/
  | nopWorkOrder (src : EntrySrc)
  /-- IDENTIFY (R284). -/
  | identify (src : EntrySrc)
  /-- CREATE_QUEUE (R283). -/
  | createQueue (src : EntrySrc)
  /-- DESTROY_QUEUE (R278). -/
  | destroyQueue (src : EntrySrc)
  /-- SET_CHORD_RESERVE (R285). -/
  | setChordReserve (src : EntrySrc)
  /-- SET_SLEEP_POLICY (R463). -/
  | setSleepPolicy (src : EntrySrc)
  /-- WARM_RESET (R468). -/
  | warmReset (src : EntrySrc)
  /-- SET_MAILBOX_NOTIFY (R285). -/
  | setMailboxNotify (src : EntrySrc)
  /-- GET_FEATURE (R285). -/
  | getFeature (src : EntrySrc)
  /-- CREATE_EVENT_RING (R301). -/
  | createEventRing (src : EntrySrc)
  /-- DESTROY_EVENT_RING (R310). -/
  | destroyEventRing (src : EntrySrc)
  /-- FIRMWARE_STAGE (R289). -/
  | firmwareStage (src : EntrySrc)
  /-- FIRMWARE_ACTIVATE (R290). -/
  | firmwareActivate (src : EntrySrc)
  /-- LIVE_ACTIVATION (R291). -/
  | liveActivation (src : EntrySrc)
  /-- HALF_RELOAD_DONE (R291): half `d` has reloaded, `ok` when the new image started. -/
  | halfReloadDone (d : Nat) (ok : Bool)
  /-- OTP_COMMIT (R485): `verify` says, for die 0 and die 1 and for each attempt in turn, whether the
  programmed generation verified. -/
  | otpCommit (src : EntrySrc) (verify0 verify1 : List Bool)
  /-- BLACKBOX_READ (R421). -/
  | blackboxRead (src : EntrySrc)
  /-- POLICY_LOAD (R381). -/
  | policyLoad (src : EntrySrc)
  /-- POLICY_START (R382). -/
  | policyStart (src : EntrySrc)
  /-- POLICY_STOP (R382). -/
  | policyStop (src : EntrySrc)
  /-- POLICY_UNLOAD (R382). -/
  | policyUnload (src : EntrySrc)
  /-- POLICY_STATUS (R382). -/
  | policyStatus (src : EntrySrc)
  /-- GRANT_CAPABILITY (R258). -/
  | grantCapability (src : EntrySrc)
  /-- LINK_STATUS (R454). -/
  | linkStatus (src : EntrySrc)
  /-- LINK_PORTS (R454). -/
  | linkPorts (src : EntrySrc)
  /-- LINK_ALIAS (R440). -/
  | linkAlias (src : EntrySrc)
  /-- LINK_HANDBACK (R451). -/
  | linkHandback (src : EntrySrc)
  /-- TWIN_CONFIG (R398). -/
  | twinConfig (src : EntrySrc)
  /-- UNTWIN (R398). -/
  | untwin (src : EntrySrc)
  /-- MAILBOX_REQUEST (R263): the write of the dword at 0x3C of function `f`'s mailbox. -/
  | mailboxRequest (who : Who) (f : Nat) (value : Word)
  /-- DOORBELL (R270): the low dword of a doorbell write. -/
  | doorbell (f q : Nat) (value : Word)
  /-- ENTRY_FETCH (R271): die `d`'s front end serves function `f`. -/
  | entryFetch (f : Nat)
  /-- HEAD_PUBLISH (R274). -/
  | headPublish (f q : Nat)
  /-- ADMIN_ENABLE (R265): a write of FN_ADMIN_CTRL with ENABLE 1. -/
  | adminEnable (f : Nat) (value : Word)
  /-- ADMIN_DISABLE (R265): a write of FN_ADMIN_CTRL with ENABLE 0. -/
  | adminDisable (f : Nat) (value : Word)
  /-- BUS_MASTER_CHANGE (R255): the function's D-state, its Bus Master Enable and the addresses of its BARs (R63; none while the
  host has assigned none) after a change of its configuration space. -/
  | busMasterChange (f : Nat) (d0 bme : Bool) (bar0 bar2 : Option DWord)
  /-- REGISTER_WRITE (R69): through BAR0 of `f` when `bar2` is false, else BAR2; `high` is the second dword of a 64-bit
  access (R55, R59), and `full` is false for partial byte enables within a dword (R72). -/
  | registerWrite (who : Who) (bar2 : Bool) (offset : Nat) (value : Word) (high : Option Word) (full : Bool)
  /-- IDLE_POINT_APPLY (R69). -/
  | idlePointApply (b : IdleBlock)
  /-- LOW_DWORD_READ (R59): a 32-bit read with an effect, of the low dword of a wide register or of an RC register (R8): through BAR0
  of `f` when `bar2` is false, else BAR2, or by a steward in its die's port space. -/
  | lowDwordRead (who : Who) (bar2 : Bool) (offset : Nat)
  /-- SNAPSHOT_LATCH_READ (R251). -/
  | snapshotLatchRead (meter : Nat)
  /-- WINDOW_ENTRY_WRITE (R65): bytes from byte `first` of entry `entry`, through die `d`'s range. -/
  | windowEntryWrite (who : Who) (d entry first : Nat) (bytes : List Byte)
  /-- WINDOW_INVALIDATE (R67). -/
  | windowInvalidate (who : Who) (d : Nat) (value : Word)
  /-- LANE_CFG_WRITE (R172). -/
  | laneCfgWrite (who : Who) (lane : Nat) (value : Word)
  /-- SNS_WIN_WRITE (R231). -/
  | snsWinWrite (who : Who) (input w : Nat) (value : Word)
  /-- MTR_SET_WRITE (R245). -/
  | mtrSetWrite (who : Who) (meter w : Nat) (value : Word)
  /-- MTR_CLEAR (R251). -/
  | mtrClear (meter : Nat)
  /-- CHD_REARM (R227). -/
  | chdRearm (who : Who) (chord : Nat)
  /-- CHD_CLEAR (R227). -/
  | chdClear (chord : Nat)
  /-- UNIT_RESET_LANE (R19): DIE_UNIT_RESET of die `d` naming `unit`. `sent` is how far a running
  command had come when it is cut. -/
  | unitResetLane (who : Who) (d unit sent : Nat) (recv : List Byte)
  /-- UNIT_RESET_ENGINE (R19). -/
  | unitResetEngine (who : Who) (d unit : Nat)
  /-- UNIT_RESET_SLOT (R19). -/
  | unitResetSlot (who : Who) (d unit : Nat)
  /-- UNIT_RESET_CHANNEL (R19). -/
  | unitResetChannel (who : Who) (d unit : Nat)
  /-- UNIT_RESET_METER (R19). -/
  | unitResetMeter (who : Who) (d unit : Nat)
  /-- UNIT_RESET_CHORD (R19). -/
  | unitResetChord (who : Who) (d unit : Nat)
  /-- TIMER_RUN (R201): VTX_TMR_CTRL with RUN 1. -/
  | timerRun (who : Who) (timer : Nat) (periodic : Bool)
  /-- TIMER_STOP (R201). -/
  | timerStop (timer : Nat) (periodic : Bool)
  /-- VERTEX_TIMER_EXPIRY (R201). -/
  | vertexTimerExpiry (timer : Nat)
  /-- CALIBRATION_START (R232). -/
  | calibrationStart (d : Nat)
  /-- CALIBRATION_DONE (R232): REF_CODE and ZERO_CODE of the die's four ADCs. -/
  | calibrationDone (d : Nat) (codes : List (Code × Code))
  /-- XFR_START (R323). -/
  | xfrStart (who : Who) (ch : Nat)
  /-- XFR_STOP (R323). -/
  | xfrStop (ch : Nat)
  /-- XFR_RUN_PIECE (R321). -/
  | xfrRunPiece (ch : Nat)
  /-- XFR_COUNT_END (R322). -/
  | xfrCountEnd (ch : Nat)
  /-- ARB_CLEAR (R335). -/
  | arbClear (region : Nat)
  /-- ARB_PHASE (R331): the requests presented in this cycle; `withdraw` when the requester chosen in
  the phase before withdraws (R332). -/
  | arbPhase (region : Nat) (reqs : List BusReq) (withdraw : Bool)
  /-- REGION_RESET (R468). -/
  | regionReset (who : Who) (d q : Nat)
  /-- RESET_LOST (R414). -/
  | resetLost (who : Who)
  /-- BBX_FREEZE (R419). -/
  | bbxFreeze (d : Nat)
  /-- BBX_UNFREEZE (R419). -/
  | bbxUnfreeze (d : Nat)
  /-- EVC_HEAD_WRITE (R302): target 0–7 function, 8 and 9 stewards. -/
  | evcHeadWrite (target : Nat) (value : Word)
  /-- EVC_ACK (R308). -/
  | evcAck (target : Nat) (value : Word)
  /-- EVC_ROUTE_WRITE (R309): through die `d`'s EVC block. -/
  | evcRouteWrite (who : Who) (d source : Nat) (value : Word)
  /-- MODERATION_WRITE (R306): EVC_MOD of a target's own group (0–15), or EVC_SMOD (16–47). -/
  | moderationWrite (who : Who) (target group : Nat) (value : Word)
  /-- MSIX_UNMASK (R304). -/
  | msixUnmask (f : Nat)
  /-- EVENT_RECORD_WRITE (R303). -/
  | eventRecordWrite (target : Nat)
  /-- MODERATION_TIMER (R305). -/
  | moderationTimer (target group : Nat)
  /-- LANE_PIN_CHANGE (R198): the ball of pin A or B takes `level` and keeps it for `samples` pilot
  edges (R514). -/
  | lanePinChange (lane : Nat) (pinB level : Bool) (samples : Nat) (openPhase : Bool)
  /-- FAST_VERTEX_CHANGE (R199): the ball takes `level` for `ns` nanoseconds, `samples` pilot edges. -/
  | fastVertexChange (fv : Nat) (level : Bool) (ns samples : Nat)
  /-- COMPARATOR_CROSSING (R231): the input, in codes, as the comparator sees it for `samples` edges. -/
  | comparatorCrossing (input w : Nat) (code : Nat) (samples : Nat)
  /-- COMPARATOR_HOLD_END (R231): the input when the hold ends. -/
  | comparatorHoldEnd (input w : Nat) (code : Nat)
  /-- THERMAL_CROSSING (R505): the die temperature in degrees. -/
  | thermalCrossing (d : Nat) (celsius : Int)
  /-- CHORD_FIRE (R219): the launch tick of the chord's match; `cuts` says how far the transactions it takes the pins from
  had come. -/
  | chordFire (chord : Nat) (cuts : List LaneCut)
  /-- LEAD_STROKE (R207): the next stroke of the lead segment on the lane starts. -/
  | leadStroke (lane : Nat)
  /-- PULSE_END (R207). -/
  | pulseEnd (lane : Nat)
  /-- LEAD_FRAME_START (R209). -/
  | leadFrameStart (lane : Nat)
  /-- LEAD_FRAME_END (R209). -/
  | leadFrameEnd (lane : Nat)
  /-- CHORD_HOLDOFF_END (R216). -/
  | chordHoldoffEnd (chord : Nat)
  /-- ADC_CONVERSION (R229): the converter's code and flags. -/
  | adcConversion (input : Nat) (code : Code) (clip cmRange : Bool)
  /-- METER_SLOT (R238). -/
  | meterSlot (meter : Nat)
  /-- SMBUS_HOST_NOTIFY (R175). -/
  | smbusHostNotify (lane : Nat) (address : BitVec 7) (data : Half)
  /-- IN_BAND_INTERRUPT (R177). -/
  | inBandInterrupt (lane : Nat) (address : BitVec 7) (payload : List Byte)
  /-- UART_RX_BYTE (R179): a character, `bad` with a parity or stop-bit error. -/
  | uartRxByte (lane : Nat) (byte : Byte) (parity stop : Bool)
  /-- TACH_EDGE (R181): an edge at the counted pin, rising or falling. -/
  | tachEdge (lane : Nat) (rising : Bool)
  /-- TACH_STALL (R181). -/
  | tachStall (lane : Nat)
  /-- TARGET_MAILBOX_TRANSFER (R194): the bytes written after the address (offset first), the bytes
  read after a repeated START, and the PEC byte sent with a write, if any, as good or bad. -/
  | targetMailboxTransfer (lane : Nat) (req : TargetReq)
  /-- BANK_FAULT (R24): the supply measured on the bank, coded as VOLTS, and whether it lies within
  10 % of that voltage (R492). -/
  | bankFault (cluster : Nat) (measured : BitVec 2) (inRange : Bool)
  /-- SCRUB_READ (R394): what the scrubber finds in word `word` of the memory. -/
  | scrubRead (mem : MemKind) (inst word : Nat) (found : EccFound)
  /-- ENGINE_FAULT (R392). -/
  | engineFault (cluster : Nat)
  /-- SPARE_TAKEOVER (R392). -/
  | spareTakeover (cluster : Nat)
  /-- LANE_UNIT_FAULT (R401). -/
  | laneUnitFault (lane sent : Nat) (recv : List Byte)
  /-- LOCKSTEP_MISMATCH (R349). -/
  | lockstepMismatch (d : Nat)
  /-- ROLLBACK_COMPLETE (R390). -/
  | rollbackComplete (d : Nat)
  /-- FAST_CLOCK_FAILURE (R389). -/
  | fastClockFailure (d : Nat)
  /-- DIE_WATCHDOG_EXPIRY (R410). -/
  | dieWatchdogExpiry (d : Nat)
  /-- SUPPLY_OUT_OF_RANGE (R492). -/
  | supplyOutOfRange (d : Nat)
  /-- ALIVE_SILENCE (R411): half `d` judges the other half silent. -/
  | aliveSilence (d : Nat)
  /-- SPLIT_ENTRY (R412). -/
  | splitEntry
  /-- ADOPTION (R406): the lost cluster is adopted. -/
  | adoption (lost : Nat)
  /-- LOST_HALF_RESET (R414). -/
  | lostHalfReset (d : Nat)
  /-- HALF_REJOIN (R414). -/
  | halfRejoin (d : Nat)
  /-- ARC_FLIT_RECEIVE (R341): die `d` receives the flit of sequence `seq`; `ok` when its CRC holds. -/
  | arcFlitReceive (d : Nat) (seq : Half) (ok : Bool) (ch : ArcChannel)
  /-- ARC_DOWN (R342). -/
  | arcDown (cause : ArcCause)
  /-- ARC_RETRAIN (R342). -/
  | arcRetrain (ok : Bool)
  /-- COLD_RESET (R466): PORST_N; the straps are sampled as it rises (R473). `failed` names the units that fail the self-test it
  runs (R17), by the type and number of DIE_UNIT_RESET (R53). -/
  | coldReset (straps : Straps) (failed : List (Nat × Nat))
  /-- PACKAGE_WARM_RESET (R466). -/
  | packageWarmReset
  /-- PCIE_PORT_RESET (R149). -/
  | pciePortReset (port : Nat)
  /-- FUNCTION_LEVEL_RESET (R147). -/
  | functionLevelReset (f : Nat)
  /-- BOOT_IMAGE_LOAD (R478): what the ROM of die `d` reads of the next image, and whether every flash
  read succeeded. -/
  | bootImageLoad (d : Nat) (image : List Byte) (readOk : Bool)
  /-- BOOT_RETRY (R480). -/
  | bootRetry (d : Nat)
  /-- FIRMWARE_READY (R472). -/
  | firmwareReady (d : Nat)
  /-- PEER_EDGE_TIMEOUT (R472). -/
  | peerEdgeTimeout (d : Nat)
  /-- REFCLK_LOST (R458). -/
  | refclkLost (d : Nat)
  /-- REFCLK_RELOCK (R458). -/
  | refclkRelock (d : Nat)
  /-- PFAIL_ASSERTED (R420): PFAIL_N is low for `samples` pilot edges (R198, R514). -/
  | pfailAsserted (samples : Nat)
  /-- BLACKBOX_SAVE_DONE (R420). -/
  | blackboxSaveDone (d : Nat)
  /-- REGION_DOZE_ENTRY (R461). -/
  | regionDozeEntry (region : Nat)
  /-- REGION_GATE_ENTRY (R461). -/
  | regionGateEntry (region : Nat)
  /-- DIE_DOZE_ENTRY (R462). -/
  | dieDozeEntry (d : Nat)
  /-- DIE_REST_ENTRY (R462). -/
  | dieRestEntry (d : Nat)
  /-- WAKE_COMPLETE (R460): the domain runs `ticks` pilot ticks after the request; `access` when the request is an access to it over
  its bus (R459), which no row of its own brings. -/
  | wakeComplete (t : WakeTarget) (ticks : Nat) (access : Bool)
  /-- LSP_LOAD_ARRIVAL (R366). -/
  | lspLoadArrival (d : Nat)
  /-- STR_STREAM_END (R378). -/
  | strStreamEnd (d : Nat)
  /-- SYS_WAIT_END (R383): context code `ctx` of die `d` (0 firmware, 2–9 user). -/
  | sysWaitEnd (d ctx : Nat)
  /-- STEWARD_BUNDLE (R356). -/
  | stewardBundle (d : Nat)
  /-- EVENT_CONTEXT_ENTRY (R374). -/
  | eventContextEntry (d : Nat)
  /-- USER_SLICE_END (R350). -/
  | userSliceEnd (d : Nat)
  /-- HEARTBEAT_SEND (R432). -/
  | heartbeatSend (port : Nat)
  /-- HEARTBEAT_RECEIVE (R428). -/
  | heartbeatReceive (port : Nat) (root : BitVec 5) (hops : BitVec 2) (attached : Bool) (epoch rootSeq : Byte)
      (time : BitVec 24) (takesUs : Bool) (crcOk : Bool)
  /-- DELAY_BLOCK (R452): `trip` is the measured round trip of a response, in units of 100 ps. -/
  | delayBlock (port : Nat) (response : Bool) (time : BitVec 40) (trip : Nat) (crcOk : Bool)
  /-- ACK_BLOCK (R434). -/
  | ackBlock (port : Nat) (nak block : Bool) (bseq : BitVec 3) (seq : Half) (p np cpl : Byte) (crcOk : Bool)
  /-- VERTEX_BLOCK (R441). -/
  | vertexBlock (port : Nat) (dest : BitVec 5) (bseq : BitVec 3) (index : BitVec 7) (level : Bool) (change : Half)
      (src : BitVec 5) (crcOk : Bool)
  /-- SIGNAL_BLOCK (R439). -/
  | signalBlock (port : Nat) (dest : BitVec 5) (bseq : BitVec 3) (n : Byte) (data : Word) (crcOk : Bool)
  /-- BLOCK_RESEND (R434). -/
  | blockResend (port : Nat)
  /-- HELLO_PACKET (R433). -/
  | helloPacket (port : Nat) (sysId : BitVec 5) (serial : DWord) (hops : BitVec 2) (attached : Bool) (root : BitVec 5)
      (epoch : Byte) (time : DWord)
  /-- JOIN_PACKET (R433): the system IDs reachable through the sender, bit `i` for device `i`. -/
  | joinPacket (port : Nat) (hdr : PktHdr) (ids : Word)
  /-- LANE_CMD_PACKET (R437). -/
  | laneCmdPacket (port : Nat) (hdr : PktHdr) (cmd : RemoteCmd)
  /-- LANE_DATA_PACKET (R433): one piece for the command of `slot`. -/
  | laneDataPacket (port : Nat) (hdr : PktHdr) (lane slot : Nat) (data : List Byte)
  /-- LANE_RESULT_PACKET (R433): the result of the home slot's command, or a piece of received data. -/
  | laneResultPacket (port : Nat) (hdr : PktHdr) (slot : Nat) (tag : Half) (gen : BitVec 4) (res : Option RemoteRes)
      (data : List Byte)
  /-- SUBSCRIBE_PACKET (R440). -/
  | subscribePacket (port : Nat) (hdr : PktHdr) (index : BitVec 7) (vertex : BitVec 11) (on : Bool)
  /-- HANDBACK_PACKET (R451). -/
  | handbackPacket (port : Nat) (hdr : PktHdr)
  /-- LINK_PORT_DOWN (R436). -/
  | linkPortDown (port : Nat) (why : PortLoss)
  /-- LINK_TRAINING_RETRY (R436). -/
  | linkTrainingRetry (port : Nat)
  /-- PATH_LOSS (R443). -/
  | pathLoss
  /-- APEX_LOSS (R446). -/
  | apexLoss
  /-- PFAIL_RELEASED (R198): PFAIL_N is high for `samples` pilot edges. -/
  | pfailReleased (samples : Nat)
  /-- ALIVE_REGAINED (R377): half `d` receives ALIVE edges again. -/
  | aliveRegained (d : Nat)
  /-- REGION_RESET_DONE (R466). -/
  | regionResetDone (region : Nat)
  /-- UNIT_RESET_DONE (R19): type and number as in DIE_UNIT_RESET (R53); `pass` of the self-test. -/
  | unitResetDone (utype unit : Nat) (pass : Bool)
  /-- PCIE_LINK_DOWN (R133). -/
  | pcieLinkDown (port : Nat)
  /-- PCIE_LINK_UP (R470). -/
  | pcieLinkUp (port : Nat)
  /-- VDD_AON_LOSS (R410). -/
  | vddAonLoss (d : Nat)
  /-- BLOCK_LOCK (R436). -/
  | blockLock (port : Nat)
  /-- PWM_PERIOD_START (R181). -/
  | pwmPeriodStart (lane : Nat)
  /-- WINDOW_CACHE_DROP (R67). -/
  | windowCacheDrop (region : Nat)
  deriving DecidableEq, Repr

end Sys2Proof
end

