-- ==== Sys2Proof/Decode.lean ====
section
/-! DEFINITION. The decoder of the opcode table's bits. -/

namespace Sys2Proof

/-- No row of the opcode table gives a bit pattern: the commands of this block come from outside it, and those that
lie in memory (channel command words, entries) are named by the sequencer that reads them. No word spells one. -/
def decodeTableWord (_nbits _w : Nat) : Option Instr := none

end Sys2Proof
end

