-- ==== Sys2Proof/Config.lean ====
section
/-! DEFINITION. What an implementation fixes and what the manual leaves open: constants with no body, so that
no proof can see a value of them. -/

namespace Sys2Proof.Config

/-- A bit the manual leaves open, fresh for each use (the argument is `State.free`). -/
opaque freeBit : Nat → Bool

/-- A 64-bit value the manual leaves open, fresh for each use. -/
opaque freeWord : Nat → BitVec 64

/-- The Vendor ID that IDENTIFY reports (R253 names no value). -/
opaque vendorId : BitVec 16

/-- The device serial number of the factory record (R482). -/
opaque serial : BitVec 64

/-- Whether PAYLOAD_HASH of an image is the SHA-384 of its payload (R476, R477): the manual names the
algorithm and does not define it. -/
opaque payloadHashOk : List (BitVec 8) → Bool

/-- Whether the SHA-384 of the image's PUBLIC_KEY equals the root-key hash and SIGNATURE verifies (R477). -/
opaque signatureOk : List (BitVec 8) → List (BitVec 8) → Bool

/-- The page of 4 KiB of its data SRAM in which the firmware of a die keeps its event ring (no image is given). -/
opaque stewardRing : Nat → BitVec 6

/-- The I3C provisional ID of the factory record (R193, R482). -/
opaque provisionalId : BitVec 48

/-- The level that a lane drives on an idle output pin whose idle level the manual does not give (R173: MOSI, MDC): lane and pin. -/
opaque idleLevel : Nat → Nat → Bool

/-- How many bytes of the running command of a lane, at a tick, have left its FIFO for the shifter (R171). -/
opaque fifoShifted : Nat → Nat → Nat

/-- The data blocks of a packet, whose layout the manual does not give (R433): of the packet at this place of what a port has sent. -/
opaque packetData : Nat → Nat → List (BitVec 64)

/-- The bits of a link's scrambler before its first block (R431): port. -/
opaque scramblerStart : Nat → BitVec 58

/-- The bytes that the image of a half places in the firmware range of its instruction space (no image is given). -/
opaque firmwareByte : List (BitVec 8) → Nat → BitVec 8

end Sys2Proof.Config
end

