-- ==== Sys2Proof/Machine/State.lean ====
section
/-! DEFINITION. The state of one XL9620 package: every register, table, queue, engine and pin the manual gives
it, as plain data. A numbered element is listed only when it differs from its reset element (`Tab`). -/

namespace Sys2Proof.Machine

/-- No command stops the device: every access is answered (R72) and every fault the manual names is
absorbed as it says. -/
inductive Fault where
  deriving DecidableEq, Repr

/-- Why the model gives a command no meaning. -/
inductive Refusal where
  /-- Raised by an arm of `exec` whose command has no meaning yet (safe: nothing is claimed of it). -/
  | notModelled (mnemonic : String)
  deriving DecidableEq, Repr

/-- A state of a unit (R17). -/
inductive UnitState where
  | inService
  | resetting
  | spared
  | retired
  deriving DecidableEq, Repr

/-- What a half's driver does with a pin: released, or driven. -/
inductive Drive where
  | hiz
  | low
  | high
  deriving DecidableEq, Repr

/-- What a lane does on its bus, in order (R174–R183): START, repeated START and STOP of the I2C family and I3C, chip select and its
release, a pause of half periods with the clock idle, the clock's idle level and sampling edge, bits driven, sampled or exchanged on
`lines` data lines, a T-bit of I3C, clocks with the data released, a UART line held low for bit times, and an arbitration lost. -/
inductive Wire where
  | start
  | restart
  | stop
  | select
  | deselect
  | gap (halves : Nat)
  | clock (idle late : Bool)
  | send (lines : Nat) (bits : List Bool)
  | sample (lines : Nat) (bits : List Bool)
  | swap (sent sampled : List Bool)
  | tbit
  | free (clocks : Nat)
  | breakLow (bits : Nat)
  | lost
  deriving DecidableEq, Repr

/-- A check accumulator (R114, R326): algorithm code (0 CRC-8, 1 CRC-16, 2 CRC-32C, 3 sum), register, and
the first byte of a pair the sum has not completed. -/
structure Acc where
  alg : BitVec 2 := 2
  reg : Word := 0xFFFFFFFF
  odd : Option Byte := none
  deriving DecidableEq, Repr

/-- The kind of a posted write to host memory (R513). -/
inductive PostKind where
  | data
  | status
  | completion
  | mirror
  | event
  | message
  deriving DecidableEq, Repr

/-- A posted write to host memory: the function whose port it uses, address, bytes, kind. -/
structure Posted where
  fn : Nat
  addr : DWord
  bytes : List Byte
  kind : PostKind
  deriving DecidableEq, Repr

/-- What an outstanding host read is for (R143). -/
inductive ReadFor where
  | fetch
  | data
  deriving DecidableEq, Repr

/-- An outstanding host read: number, slot, function, tag, generation (R143), address, length; `void` when its CCWs are needed no more. -/
structure HostRead where
  void : Bool := false
  id : Nat
  kind : ReadFor
  slot : Nat
  fn : Nat
  tag : Half
  gen : BitVec 4
  addr : DWord
  len : Nat
  deriving DecidableEq, Repr

/-- A CCW in a slot's prefetch buffer (R126): its address, its 16 bytes, and, where its fetch failed, the
CHANNEL STATUS bit and REASON of the failure (R99, R144); `stale` once a store of its program overlaps it, until it is refetched. -/
structure Fetched where
  addr : DWord
  bytes : List Byte
  fail : Option (Half × Byte)
  stale : Bool := false
  deriving DecidableEq, Repr

/-- A lane command by what the bus does (R78). -/
inductive LaneOp where
  | write
  | read
  | xact
  | gang
  | control
  | sense
  deriving DecidableEq, Repr

/-- The program a lane command belongs to (R143): the requesting device (0 for this one), slot, function, tag and
generation. -/
structure LaneUser where
  device : Nat
  slot : Nat
  fn : Nat
  tag : Half
  gen : BitVec 4
  deriving DecidableEq, Repr

/-- One part of a data chain (R94): the CCW's address, flags byte and COUNT, and the pieces of its data, with the failure
that ends the stream after them, if any. -/
structure Part where
  ccw : DWord
  flags : Byte
  count : Nat
  pieces : List (Nat × Nat)
  fail : Option (Half × Byte)
  deriving DecidableEq, Repr

/-- The result of one member of a lane command (R140): position, DEVICE STATUS, check (bit of CHANNEL
STATUS, 0 for none) and REASON, bytes not moved, the bytes received since the last piece, whether a halt request or reset cut it (R134). -/
structure MemberRes where
  pos : Nat
  dev : Half
  chan : Half
  reason : Byte
  resid : Nat
  recv : List Byte
  cut : Bool := false
  deriving DecidableEq, Repr

/-- A command a slot is executing across steps: a lane command, a COPY or a METER LOAD. `out` holds the bytes to
send that have been read, `got` those received so far by set position, `moved` counts the bytes copied, and `words` says that data
crosses another device's lane in 16-bit words, most significant byte first (R180). -/
structure Exec where
  code : Byte
  op : LaneOp
  parts : List Part
  wlen : Nat := 0
  target : Half := 0
  device : Nat := 0
  isSet : Bool := false
  members : List Nat := []
  results : List MemberRes := []
  out : List Byte := []
  got : Tab (List Byte) := []
  words : Bool := false
  copySrc : DWord := 0
  copyDst : DWord := 0
  moved : Nat := 0
  deriving DecidableEq, Repr

/-- A registered wait (R103, R105): the vertex, or none for DELAY, the registration tick, the deadline if
any, and TO_CONTINUE. -/
structure WaitReg where
  vertex : Option Nat
  regTick : Nat
  deadline : Option Nat
  toContinue : Bool
  deriving DecidableEq, Repr

/-- Where a program's completion goes: the queue entry, a policy submission, or nowhere (a chord's chain). -/
inductive Owner where
  | entry (src : EntrySrc) (idx : Nat)
  | chord (c : Nat)
  | nobody
  deriving DecidableEq, Repr

/-- The state of a program in a slot (R122, R155). -/
inductive SlotState where
  | free
  | active
  | waiting
  | suspended
  deriving DecidableEq, Repr

/-- A program slot (R100, R115, R155): the program it holds; `begun` is the last CCW whose execution began (R150). -/
structure Slot where
  st : SlotState := .free
  unit : UnitState := .inService
  owner : Owner := .nobody
  fn : Nat := 0
  tag : Half := 0
  gen : BitVec 4 := 0
  pc : DWord := 0
  ccw : DWord := 0
  begun : DWord := 0
  flags : Byte := 0
  last : DWord := 0
  status : DWord := 0
  reason : Byte := 0
  chan : Half := 0
  dev : Half := 0
  resid : Half := 0
  post : Half := 0
  laneRes : Word := 0
  lastIn : Word := 0
  acc : Acc := {}
  buf : List Fetched := []
  honour : Bool := true
  jumped : Option DWord := none
  halt : Option Byte := none
  exec : Option Exec := none
  wait : Option WaitReg := none
  holds : List Nat := []
  body : Option Nat := none
  enforce : Bool := false
  ended : Option Bool := none
  adopted : Bool := false
  deriving DecidableEq, Repr

/-- A program on an admission list (R22); `order` is the place of its work order among those fetched. -/
structure Prog where
  owner : Owner
  fn : Nat
  tag : Half
  gen : BitVec 4
  chain : DWord
  status : DWord
  body : Option Nat
  enforce : Bool
  halt : Option Byte
  order : Nat := 0
  deriving DecidableEq, Repr

/-- An entry on a chord list (R124, R223): the chord, its GEN and CHAIN, LANE RESULT and LAST INPUT of R224. -/
structure ChainStart where
  chord : Nat
  gen : BitVec 4
  chain : DWord
  laneRes : Word
  lastIn : Word
  halt : Option Byte := none
  deriving DecidableEq, Repr

/-- A lane command at its lane: its program, the position in the set, the CCW's fields, the bytes to send that have arrived,
whether its data chain is open (R94), whether its result is to be discarded (R132), the bytes received that have left for memory (R315),
and whether a halt request or reset cut it (R134). -/
structure LaneCmd where
  user : LaneUser
  pos : Nat
  op : LaneOp
  count : Nat
  wlen : Nat
  target : Half
  out : List Byte
  open_ : Bool := false
  discard : Bool := false
  seen : List Byte := []
  cut : Bool := false
  deriving DecidableEq, Repr

/-- How many bytes have left the lane for memory. -/
def LaneCmd.got (c : LaneCmd) : Nat := c.seen.length

/-- A forwarded command in flight to a cluster (R43, R130). -/
structure Forwarded where
  lane : Nat
  cmd : LaneCmd
  deriving DecidableEq, Repr

/-- A result in flight to its home slot (R140, R143). -/
structure ResultMsg where
  slot : Nat
  fn : Nat
  tag : Half
  gen : BitVec 4
  res : MemberRes
  deriving DecidableEq, Repr

/-- A held transaction (R81): the program, and the tick at which the hold began. -/
structure Hold where
  user : LaneUser
  since : Nat
  deriving DecidableEq, Repr

/-- A pulse in progress: the pin, its earlier drive, and its last tick (R207). -/
structure Pulse where
  pin : Nat
  before : Option Drive
  until_ : Nat
  deriving DecidableEq, Repr

/-- A lead segment on a lane (R205–R209): its chord, claim, rank and launch tick; the segment's bytes and
parameter; the next stroke, the tick it is due, and a pulse in progress; for a frame, whether it has begun. -/
structure Lead where
  chord : Nat
  claim : Nat
  rank : Nat
  launch : Nat
  frame : Bool
  half : Nat
  param : Half
  seg : List Byte
  stroke : Nat := 0
  due : Nat
  pulse : Option Pulse := none
  begun : Bool := false
  closed : Bool := false
  twin : Bool := false
  deriving DecidableEq, Repr

/-- A lane unit with its registers (R156, R166). `driveA` and `driveB` hold a pin state that overrides the personality's (R80, R164), `safe`
that it is SAFE_STATE's (R467). Of a transaction: `txnSince` its start, `begun` once its idle check has passed, `checkBad` once that check
may fail, `waitFrom` and `memAt` when the bus and the memory side last moved (R188–R190); `busy` while another controller has the bus;
`wire` what the lane put on its bus in its last transaction (log 73). -/
structure Lane where
  unit : UnitState := .inService
  cfg : Word := 0
  pins : Word := 0x50
  timing : Word := 0x1770
  timeout : Word := 0x000A0000
  opt : Word := 0
  fifo : Word := 2
  err : Word := 0
  count : Word := 0
  pwm : Word := 0x0FA00FA0
  frmCfg : Word := 0
  frmPre : Word := 0
  frmShape : Tab Word := []
  frmAck : Tab Word := []
  tgt : Word := 0
  notify : Word := 0
  shadow : Tab (Option Word) := []
  owner : Nat := 0
  driveA : Option Drive := none
  driveB : Option Drive := none
  safe : Bool := false
  levelA : Bool := false
  levelB : Bool := false
  isolated : Bool := false
  txn : Option LaneCmd := none
  txnSince : Nat := 0
  begun : Bool := false
  checkBad : Bool := false
  busy : Bool := false
  waitFrom : Nat := 0
  memAt : Nat := 0
  wire : List Wire := []
  held : Option Hold := none
  queue : List LaneCmd := []
  lead : Option Lead := none
  lastDev : Half := 0
  paused : Bool := false
  rx : List Byte := []
  overruns : Half := 0
  ibi : List (List Byte) := []
  devices : List Byte := []
  pwmNow : Word := 0x0FA00FA0
  pwmFrom : Nat := 0
  pwmForce : BitVec 2 := 0
  tachTime : Word := 0
  tachEdges : Word := 0
  tachStalled : Bool := false
  tachLast : Option Nat := none
  tachFrom : Nat := 0
  tachGaps : List Nat := []
  served : Word := 0
  dynAddr : Option (BitVec 7) := none
  lost : List (LaneUser × Byte) := []
  released : Option (Option Drive × Option Drive) := none
  pwmForceNew : Option (BitVec 2) := none
  deriving DecidableEq, Repr

/-- The protocol engine of a cluster (R28, R392): serving, failed with no server yet, or served by the
spare of a region. -/
inductive Engine where
  | own
  | failed
  | spare (region : Nat)
  | none
  deriving DecidableEq, Repr

/-- A cluster (R10, R25, R152). `inbound` holds the commands forwarded to it in the order sent: the first 32 stand in its queue, later
ones are held at their senders for a credit (R130). Of its rounds (R125): `rr` is the START slot served last, `rrFrom` the one served
last before this round, `rrSeen` the turns of STARTs this round has passed, `chainAt` the first chain slot it has not. -/
structure Cluster where
  volts : BitVec 2 := 3
  voltsNew : Option (BitVec 2) := none
  measured : BitVec 2 := 3
  bankFault : Bool := false
  sched : Word := 8
  schedNew : Option Word := none
  stale : Word := 0
  admits : List Prog := []
  lostAdmit : List Prog := []
  chords : List ChainStart := []
  adopts : Option Nat := none
  adopted : Bool := false
  inbound : List Forwarded := []
  engine : Engine := .own
  engineUnit : UnitState := .inService
  rows : Nat := 4
  rr : Nat := 127
  rrFrom : Nat := 127
  rrSeen : Nat := 0
  chainAt : Nat := 0
  deriving DecidableEq, Repr

/-- A lane set (R106): its members in position order. -/
structure LaneSet where
  members : List Nat := []
  deriving DecidableEq, Repr

/-- The states of a chord (R212). -/
inductive ChordState where
  | disarmed
  | armed
  | firing
  | following
  | holdoff
  | spent
  | draining
  deriving DecidableEq, Repr

/-- What the fabric remembers of a trigger since the chord was armed (R210): its latest occurrence, and
the latest start of a sequence that ends at it. -/
structure TrigMem where
  last : Option Nat := none
  start : Option Nat := none
  deriving DecidableEq, Repr

/-- A match (R210, R211): its tick and the completing trigger. -/
structure Match where
  tick : Nat
  trigger : Nat
  deriving DecidableEq, Repr

/-- A chord slot (R204, R226). -/
structure Chord where
  st : ChordState := .disarmed
  unit : UnitState := .inService
  record : List Byte := []
  gen : BitVec 4 := 0
  firings : Word := 0
  suppressed : Word := 0
  claimsLost : Word := 0
  fireTime : DWord := 0
  fireInfo : Word := 0
  fireEnd : Word := 0
  fireLast : DWord := 0
  trigs : Tab TrigMem := []
  matched : Option Match := none
  launch : Nat := 0
  running : List Nat := []
  chainLive : Bool := false
  haltChain : Bool := false
  suppTick : Option Nat := none
  base : Tab TrigMem := []
  baseTick : Option Nat := none
  deriving DecidableEq, Repr

/-- A change that reaches vertex `vertex` in tick `due` (R200): of the inversion before its filter, written in tick `since`, or else (`inv`
false) the end of a caught pulse or of a comparator window (R199, R231). -/
structure Turn where
  vertex : Nat
  since : Nat
  due : Nat
  inv : Bool
  deriving DecidableEq, Repr

/-- A vertex timer (R201); `loaded` is the PERIOD read when it was started (R203, class ARM). -/
structure Timer where
  run : Bool := false
  periodic : Bool := false
  period : Word := 0
  loaded : Word := 0
  left : Word := 0
  deriving DecidableEq, Repr

/-- A comparator window (R231): its register, the accepted comparator level, the asserted level, and the
tick at which a settling hold ends. -/
structure Window where
  reg : Word := 0
  level : Bool := false
  hold : Option Nat := none
  deriving DecidableEq, Repr

/-- A sense input (R234). -/
structure Input where
  gain : Word := 0x01000000
  offset : Word := 0
  win0 : Window := {}
  win1 : Window := {}
  code : Code := 0
  clip : Bool := false
  seq : Half := 0
  value : Word := 0
  fault : Word := 0
  sampled : Option Nat := none
  before : Word := 0
  deriving DecidableEq, Repr

/-- What waits at a meter for its next slot on behalf of a request (R248): the request that ends when it
has applied. -/
inductive MeterWaiter where
  | entry (src : EntrySrc) (idx : Nat)
  | slot (n : Nat)
  deriving DecidableEq, Repr

/-- A meter (R238–R251). `settings` and `next` are 32 bytes, or empty for all zero; `hist` holds the values published last, newest first,
each with its pilot time in ns (R237). -/
structure Meter where
  owner : Nat := 15
  settings : List Byte := []
  next : Option (List Byte) := none
  hist : List (Nat × Int) := []
  clear : Bool := false
  resetPending : Bool := false
  unit : UnitState := .inService
  raw : Int := 0
  value : Int := 0
  energy : Int := 0
  passes : Word := 0
  min : Int := 0x7FFFFFFF
  max : Int := -0x80000000
  trip0 : Bool := false
  trip1 : Bool := false
  sat : Bool := false
  gap : Bool := false
  stale : Bool := false
  fresh : Bool := true
  woke : Bool := false
  snap : List Byte := []
  latch : List Byte := []
  waiters : List MeterWaiter := []
  deriving DecidableEq, Repr

/-- Who owns a tile (R27). -/
inductive TileOwner where
  | pool
  | fn (f : Nat)
  | steward
  | device
  deriving DecidableEq, Repr

/-- A region SRAM tile (R27, R286, R396). -/
structure Tile where
  owner : TileOwner := .pool
  gen : BitVec 4 := 0
  retired : Bool := false
  remap : Option Nat := none
  used : Bool := false
  toPool : Bool := false
  deriving DecidableEq, Repr

/-- The power states of a region (R461). -/
inductive RegionPower where
  | run
  | doze
  | gated
  | off
  deriving DecidableEq, Repr

/-- The tenure on a region bus (R328): requester, beats of its burst, beats delivered, preempt class. -/
structure Tenure where
  q : Nat
  beats : Nat
  done : Nat
  preempt : Bool
  deriving DecidableEq, Repr

/-- A region bus arbiter (R329–R335). -/
structure Arb where
  cfg : Word := 0x100
  prio : Tab Word := []
  dead : Word := 0
  preempts : Word := 0
  grants : Tab Word := []
  maxWait : Tab Nat := []
  waitCycles : Tab Nat := []
  waits : Tab Nat := []
  cycle : Nat := 0
  tenure : Option Tenure := none
  chosen : Option BusReq := none
  parked : Option Nat := none
  lastWin : Tab Nat := []
  deriving DecidableEq, Repr

/-- A window of host memory (R64). -/
structure WinEntry where
  lo : DWord := 0
  hi : DWord := 0
  deriving DecidableEq, Repr

/-- A region (R10, R29, R424, R461). `gens` counts its region resets, which every pool tile's GEN adds (R29).
`cache` is the window cache: entry numbers with the version cached (R67). -/
structure Region where
  power : RegionPower := .run
  inReset : Bool := false
  spareFor : Option Nat := none
  spareUnit : UnitState := .inService
  spareBad : Bool := false
  enginesFailed : Nat := 0
  cache : List (Nat × WinEntry) := []
  dropPending : Bool := false
  arb : Arb := {}
  ceCount : Word := 0
  ueCount : Word := 0
  rows : Nat := 32
  gens : BitVec 4 := 0
  asked : Bool := false
  errLast : Word := 0
  sram : List Host.Cell := []
  idleSince : Nat := 0
  deriving DecidableEq, Repr

/-- The states of a direct channel (R325). -/
inductive XfrState where
  | idle
  | running
  | done
  | error
  deriving DecidableEq, Repr

/-- A transfer channel (R314–R325). -/
structure Xfr where
  src : DWord := 0
  dst : DWord := 0
  count : Word := 0
  cfg : Word := 0
  disable : Bool := false
  st : XfrState := .idle
  code : BitVec 4 := 0
  done : Word := 0
  check : Word := 0
  wraps : Word := 0
  acc : Acc := {}
  unit : UnitState := .inService
  rx : List Byte := []
  deriving DecidableEq, Repr

/-- The states of a queue (R260). -/
inductive QState where
  | absent
  | running
  | error
  | destroying
  deriving DecidableEq, Repr

/-- An entry fetched and not yet passed by the head (R271–R274): index, slots it takes, its 64 bytes, its
body (variable mode), whether it has taken effect and whether it has completed. -/
structure Flight where
  order : Nat := 0
  tick : Nat := 0
  idx : Nat
  len : Nat
  bytes : List Byte
  body : List Byte
  effect : Bool
  done : Bool
  deriving DecidableEq, Repr

/-- A queue (R261, R269). -/
structure Queue where
  st : QState := .absent
  ring : DWord := 0
  mirror : DWord := 0
  variable_ : Bool := false
  notify : Bool := false
  sizeLog2 : Nat := 0
  head : Nat := 0
  tail : Nat := 0
  fetch : Nat := 0
  flight : List Flight := []
  reason : Byte := 0
  index : Nat := 0
  completed : Word := 0
  errPosted : Bool := false
  stopping : Bool := false
  destroyer : Option (EntrySrc × Nat) := none
  deriving DecidableEq, Repr

/-- A tag in quarantine (R141): the entry of its START. -/
structure Quar where
  tag : Half
  src : EntrySrc
  idx : Nat
  deriving DecidableEq, Repr

/-- A request standing in a register mailbox (R263) or handed over by SYS.submit (R384). -/
structure Held where
  bytes : List Byte
  effect : Bool
  deriving DecidableEq, Repr

/-- A function (R252–R264). -/
structure Func where
  d0 : Bool := true
  bme : Bool := false
  caps : Byte := 0
  bar0 : Option DWord := none
  bar2 : Option DWord := none
  ready : Bool := false
  adminBase : DWord := 0
  adminMirror : DWord := 0
  adminCtrl : Word := 0
  adminNew : Option Word := none
  mailbox : Tab Byte := []
  request : Option Held := none
  mboxNotify : Bool := false
  held : List Posted := []
  gens : Tab (BitVec 4) := []
  quar : List Quar := []
  rr : Nat := 1
  inReset : Bool := false
  resetAt : Nat := 0
  resetWait : Option Byte := none
  stateBad : Bool := false
  deriving DecidableEq, Repr

/-- What a pending source will write (R297, R300): KIND, DATA and the tick of the occurrence. -/
structure Occ where
  kind : BitVec 5
  data : Word
  time : DWord
  deriving DecidableEq, Repr

/-- A notice queue (R298): notices with their times, and the lost count. -/
structure Notices where
  q : List (Word × DWord) := []
  lost : Nat := 0
  deriving DecidableEq, Repr

/-- A count and timer of a (target, group) pair (R304); new settings judge it from tick `judged` on (R306). -/
structure Pace where
  count : Nat := 0
  since : Option Nat := none
  judged : Nat := 0
  deriving DecidableEq, Repr

/-- An event-controller target (R293, R312); `latch` is the high dword of its ring's base as the last read of the low one latched it
(R59), `replay` names the sources to be written first after a wake from Rest (R311), `unread` the groups of the records in the ring,
the oldest first (R306), and `wroteAt` is the tick of the last record (R303). -/
structure Target where
  base : DWord := 0
  latch : Word := 0
  sizeLog2 : Nat := 0
  live : Bool := false
  tail : Nat := 0
  phase : Bool := true
  head : Nat := 0
  seq : Half := 0
  ready : Bool := false
  masked : Bool := false
  msixPending : Bool := false
  msgAddr : DWord := 0
  msgData : Word := 0
  merged : Word := 0
  stalls : Word := 0
  mods : Tab Word := []
  disabled : Tab Bool := []
  pend : Tab (Option Occ) := []
  notices : Tab Notices := []
  paces : Tab Pace := []
  lastMsg : Option Nat := none
  replay : List Nat := []
  unread : List Nat := []
  wroteAt : Option Nat := none
  deriving DecidableEq, Repr

/-- A shared source (R294, R309): its route, a route waiting for the idle point, a pending occurrence, and the
in-service flag. -/
structure Shared where
  route : Word := 0
  next : Option Word := none
  pend : Option Occ := none
  inService : Bool := false
  deriving DecidableEq, Repr

/-- The unit ports of a steward (R359): o1, o2, r, sc by unit number, and those of STR and SYS. -/
structure Units where
  o1 : Tab Word := []
  o2 : Tab Word := []
  r : Tab Word := []
  sc : Tab Word := []
  cnt : Word := 0
  ctl : Word := 0
  strFill : Bool := false
  epc : Word := 0
  ectx : Word := 0xF
  thi : Word := 0
  due : List (Nat × Nat × Word) := []
  lspBusy : Bool := false
  deriving DecidableEq, Repr

/-- The states of a user context (R382), and of the firmware context. -/
inductive CtxState where
  | empty
  | loaded
  | running
  | waiting
  | faulted
  deriving DecidableEq, Repr

/-- A port-space grant (R380). -/
structure Grant where
  first : Nat
  last : Nat
  read : Bool
  write : Bool
  deriving DecidableEq, Repr

/-- A submission of a policy context (R384): its data offset, its 64 bytes, whether it took effect. -/
structure Submission where
  offset : Nat
  bytes : List Byte
  effect : Bool
  deriving DecidableEq, Repr

/-- A context of a steward (R350, R351, R380, R388). -/
structure Ctx where
  st : CtxState := .empty
  pc : Nat := 0
  g : Tab Word := []
  p : Tab Bool := []
  saved : Units := {}
  wait : Option WaitReg := none
  sysR : Option Word := none
  loader : Nat := 0
  fault : Byte := 0
  codeBase : Nat := 0
  codeLen : Nat := 0
  dataBase : Nat := 0
  dataLen : Nat := 0
  entry : Nat := 0
  grants : List Grant := []
  meters : List Nat := []
  faultVertex : Byte := 0
  faultSignal : Bool := false
  submits : Word := 0
  subs : List Submission := []
  cycles : DWord := 0
  leaving : Option (EntrySrc × Nat) := none
  delay : Option Nat := none
  squash : Bool := false
  rfe : Bool := false
  deriving DecidableEq, Repr

/-- What a checkpoint holds of a steward pair (R390). `istores` are instruction-space stores that fetches may not see yet, oldest
first: the address, the byte before, and the last bundle that still sees it (R373). `issued` counts bundles, and `wrote` names the
registers that the bundle before wrote (R366). -/
structure Core where
  ctxs : Tab Ctx := []
  units : Units := {}
  running : Nat := 0
  iram : List Host.Cell := []
  dram : List Host.Cell := []
  istores : List (Nat × Byte × Nat) := []
  issued : Nat := 0
  wrote : List Nat := []
  deriving DecidableEq, Repr

/-- A steward pair (R348, R387, R390): `saved` is the checkpoint, without its memories, and `undo` the bytes that stores since then
overwrote (true for instruction space), latest first. -/
structure Stw where
  core : Core := {}
  saved : Core := {}
  undo : List (Bool × Nat × Byte) := []
  since : Nat := 0
  stores : Nat := 0
  pair : BitVec 2 := 0
  rollbacks : Word := 0
  repeats : Nat := 0
  privFault : Option Nat := none
  emask : Bool := false
  bpbar : Bool := false
  counters : Tab (BitVec 2) := []
  history : BitVec 11 := 0
  slice : Nat := 0
  lastUser : Nat := 9
  yielded : Bool := false
  rows : Nat := 8
  deriving DecidableEq, Repr

/-- A saved copy of a black box with its header (R420). -/
structure BbxCopy where
  records : Tab (List Byte) := []
  newest : BitVec 12 := 0
  seq : Half := 0
  wrapped : Bool := false
  deriving DecidableEq, Repr

/-- A black box (R417–R425): its records by slot, 32 bytes each. -/
structure Bbx where
  records : Tab (List Byte) := []
  newest : BitVec 12 := 0
  seq : Half := 0
  written : Bool := false
  wrapped : Bool := false
  frozen : Bool := false
  cause : BitVec 3 := 0
  trigger : Word := 0
  post : Option Nat := none
  savedRecords : Nat := 0
  restored : Bool := false
  saving : Bool := false
  copy : Option BbxCopy := none
  dropped : Word := 0
  badRows : List Nat := []
  rows : Nat := 4
  deriving DecidableEq, Repr

/-- An Arc bridge end (R336–R343); `pBuf`, `npBuf` and `cplBuf` count the flits that stand in its receive buffers by channel (R337). -/
structure Arc where
  link : BitVec 2 := 0
  sideband : Bool := false
  cause : BitVec 3 := 0
  pBuf : Nat := 0
  npBuf : Nat := 0
  cplBuf : Nat := 0
  replays : Word := 0
  downs : Word := 0
  downTime : DWord := 0
  downAt : Nat := 0
  tryAt : Nat := 0
  tx : DWord := 0
  rx : DWord := 0
  expect : Half := 0
  bad : Nat := 0
  deriving DecidableEq, Repr

/-- A customer OTP generation as it stands in a die (R483–R485). -/
structure OtpGen where
  bytes : List Byte := []
  used : Bool := false
  committed : Bool := false
  deriving DecidableEq, Repr

/-- A die's OTP (R482). -/
structure Otp where
  gens : Tab OtpGen := []
  inForce : Nat := 0
  skipped : Bool := false
  rootKey : List Byte := []
  thermo : Nat := 0
  deriving DecidableEq, Repr

/-- The boot of a half (R478, R487). -/
structure Boot where
  state : BitVec 3 := 0
  source : BitVec 3 := 0
  attempts : Byte := 0
  reject : Byte := 0
  version : DWord := 0
  level : Byte := 3
  secVer : Nat := 0
  image : List Byte := []
  deriving DecidableEq, Repr

/-- A directory copy of a boot flash (R475). -/
structure Dir where
  seq : Word := 0
  active : Bool := false
  staged : Bool := false
  stagedSlot : Bool := false
  deriving DecidableEq, Repr

/-- A boot flash as the device has written it (R474): its directory, of which `dir` is the copy in force and `older` the other copy
(R475), and its two image slots. -/
structure Flash where
  dir : Dir := {}
  older : Dir := {}
  slot0 : Option (List Byte) := none
  slot1 : Option (List Byte) := none
  deriving DecidableEq, Repr

/-- The states of a die (R462). -/
inductive DiePower where
  | run
  | doze
  | rest
  | off
  deriving DecidableEq, Repr

/-- A die (R10, R49, R423, R486, R487). `frontRr` is the PCIe function whose turn at the queue front end comes next (R271). -/
structure Die where
  power : DiePower := .run
  lastReset : BitVec 2 := 0
  alive : Bool := false
  monitor : Bool := false
  seen : Bool := false
  selfStopped : Bool := false
  isolatesPeer : Bool := false
  fatal : BitVec 4 := 0
  lostAt : Option Nat := none
  startAt : Option Nat := none
  wireFault : Bool := false
  losses : Half := 0
  ceCount : Word := 0
  ueCount : Word := 0
  lanesDead : Nat := 0
  tilesRetired : Nat := 0
  viol : Tab (List Byte) := []
  violNext : Nat := 0
  violTotal : Word := 0
  conflicts : Word := 0
  latches : Tab Word := []
  calBusy : Bool := false
  calEnd : Nat := 0
  adcRef : Tab Word := []
  passes : Word := 0
  meterRun : Bool := false
  meterPass : Nat := 0
  meterNext : Nat := 0
  meterStage : Option (Nat × Tab (Option Word)) := none
  rested : Bool := false
  refLost : Bool := false
  wakes : Word := 0
  wakeMax : Half := 0
  stewardClock : Bool := false
  asked : Bool := false
  frontRr : Nat := 0
  idleSince : Nat := 0
  chordRows : Nat := 4
  queueRows : Nat := 4
  winStage : Option (Nat × Tab (Option Byte)) := none
  bbx : Bbx := {}
  arc : Arc := {}
  otp : Otp := {}
  boot : Boot := {}
  flash : Flash := {}
  stw : Stw := {}
  smod : Tab Word := []
  thermWarn : Bool := false
  thermCrit : Bool := false
  scrubCe : List (MemKind × Nat × Nat) := []
  deriving DecidableEq, Repr

/-- A twin-map entry (R422 PKG_TWIN). -/
structure Twin where
  other : Nat := 0
  shadow : Bool := false
  failedOver : Bool := false
  valid : Bool := false
  deriving DecidableEq, Repr

/-- A pair of twin chords (R408): whether it stands, whether the higher chord is the standby, and the
standby's latest match not yet confirmed (R409). -/
structure Pair where
  valid : Bool := false
  highStandby : Bool := false
  kept : Option Match := none
  deriving DecidableEq, Repr

/-- A link alias (R440, R457): the last change accepted, the tick of the last one applied, and the changes that wait for a tick of
their own (R441). -/
structure LinkAlias where
  vertex : BitVec 11 := 0
  source : BitVec 5 := 0
  valid : Bool := false
  live : Bool := false
  change : Option Half := none
  changedAt : Option Nat := none
  later : List Bool := []
  deriving DecidableEq, Repr

/-- A subscription another device holds on one of our vertices (R440): port, device, link vertex, vertex,
changes sent. -/
structure Subscr where
  device : BitVec 5
  index : BitVec 7
  vertex : Nat
  change : Half
  deriving DecidableEq, Repr

/-- What a device sends on a link (R431–R433): control blocks; and packets, which leave under their link SEQ (`packet`). `ackPacket`
carries the credits of the channels P, NP and CPL that it returns. -/
inductive LinkItem where
  | heartbeat (root : BitVec 5) (hops : BitVec 2) (attached : Bool) (epoch rootSeq : Byte) (time : BitVec 24)
  | delayReq (time : BitVec 40)
  | delayResp (time : BitVec 40)
  | vertex (bseq : BitVec 3) (dest : BitVec 5) (index : BitVec 7) (level : Bool) (change : Half) (src : BitVec 5)
  | signal (bseq : BitVec 3) (dest : BitVec 5) (n : Byte) (data : Word)
  | ackBlock (bseq : BitVec 3)
  | ackPacket (nak : Bool) (seq : Half) (p np cpl : Nat)
  | idle
  | hello (src : BitVec 5) (role : Nat) (hops : BitVec 2) (epoch : Byte) (time : DWord)
  | join (src : BitVec 5) (ids : Word)
  | laneCmd (src dest : BitVec 5) (cmd : RemoteCmd)
  | laneData (src dest : BitVec 5) (lane slot : Nat) (data : List Byte)
  | laneResult (src dest : BitVec 5) (slot : Nat) (tag : Half) (gen : BitVec 4) (res : Option RemoteRes) (data : List Byte)
  | subscribe (src dest : BitVec 5) (index : BitVec 7) (vertex : BitVec 11) (on : Bool)
  | handback (src : BitVec 5)
  | packet (seq : Half) (it : LinkItem)
  deriving DecidableEq, Repr

/-- The states of a link port (R436). -/
inductive PortState where
  | disabled
  | training
  | up
  | down
  | standoff
  deriving DecidableEq, Repr

/-- The role of a link port in the tree (R428). -/
inductive PortRole where
  | none
  | upstream
  | downstream
  | alternate
  deriving DecidableEq, Repr

/-- A Polob link port (R436, R456). `stalled` holds the packets that wait for credit, each with the port it came by: until it leaves
it keeps its place in that port's receive buffer (R21, R435). `sinceIdle` counts the blocks since the last IDLE block (R431). `hello`
is the pilot time the peer's HELLO brought, at edge `helloAt` (R452). -/
structure LinkPort where
  st : PortState := .disabled
  role : PortRole := .none
  cfg : Word := 0
  cfgNew : Option Word := none
  locked : Bool := false
  peerId : BitVec 5 := 0
  peerHops : BitVec 2 := 0
  peerAttached : Bool := false
  peerTakes : Bool := false
  peerSerial : Option DWord := none
  hello : DWord := 0
  helloAt : Nat := 0
  peerRoot : BitVec 5 := 0
  peerSeq : Byte := 0
  seqAt : Nat := 0
  subtree : Word := 0
  delay : Half := 0
  replays : Word := 0
  downs : Word := 0
  downTime : DWord := 0
  downAt : Nat := 0
  beats : Nat := 0
  txSeq : Half := 0
  rxSeq : Half := 0
  replay : List (Half × LinkItem) := []
  naks : Nat := 0
  bTx : BitVec 3 := 0
  bRx : BitVec 3 := 0
  unacked : List LinkItem := []
  waiting : List LinkItem := []
  credP : Nat := 32
  credNp : Nat := 32
  stalled : List (Option Nat × LinkItem) := []
  sinceIdle : Nat := 0
  sent : List LinkItem := []
  deriving DecidableEq, Repr

/-- The PKG block as the half without custody holds it in SPLIT, the bridge between it and the custody half being down (R57, R58). -/
structure PkgBlock where
  windows : Tab WinEntry
  enforce : Word
  inval : Word
  holdLost : Bool
  twins : Tab Twin
  pairs : Tab Pair
  deriving DecidableEq, Repr

/-- The package elements no die owns, and the PKG block (R10, R57). -/
structure Pkg where
  custody : Nat := 0
  tiebreak : Bool := false
  split : Bool := false
  other : Option PkgBlock := none
  fetched : Nat := 0
  lost0 : Bool := false
  lost1 : Bool := false
  changes : Half := 0
  holdLost : Bool := false
  windows : Tab WinEntry := []
  enforce : Word := 0
  inval : Word := 0
  sleep : DWord := 0x0000000403E8000A
  twins : Tab Twin := []
  pairs : Tab Pair := []
  sets : Tab LaneSet := []
  sentinel0 : Half := 0
  sentinel1 : Half := 0
  pfail : Bool := false
  warmDue : Bool := false
  warmAt : Option Nat := none
  activating : Option (EntrySrc × Nat) := none
  reloading : Option Nat := none
  staging : Option (Nat × List Byte) := none
  sysId : BitVec 5 := 0
  standby : Bool := false
  dup : Bool := false
  standoff : Bool := false
  acting : Bool := false
  path : Bool := false
  root : BitVec 5 := 0
  hops : BitVec 2 := 0
  reach : Word := 0
  epoch : Byte := 0
  rootSeq : Byte := 0
  rootSeqAt : Nat := 0
  takeovers : Half := 0
  offset : Half := 0
  synced : Bool := false
  slew : Int := 0
  slewAt : Nat := 0
  aliases : Tab LinkAlias := []
  subs : List Subscr := []
  port0Up : Bool := false
  port1Up : Bool := false
  port0Reset : Bool := false
  port1Reset : Bool := false
  deriving DecidableEq, Repr

/-- The machine. `pending` is the queue of commands that wait, first in, first out; `free` is the model's own
counter of free values (no statement rests on it); `edges` counts pilot clock edges. -/
structure State where
  pending : List Instr := []
  free : Nat := 0
  edges : Nat := 0
  pilot : DWord := 0
  pkg : Pkg := {}
  die0 : Die := {}
  die1 : Die := {}
  regions : Tab Region := []
  clusters : Tab Cluster := []
  lanes : Tab Lane := []
  slots : Tab Slot := []
  chords : Tab Chord := []
  xfrs : Tab Xfr := []
  meters : Tab Meter := []
  inputs : Tab Input := []
  timers : Tab Timer := []
  fvRaw : Tab Bool := []
  fvCfg : Tab Word := []
  pinPol : Tab Word := []
  levels : Tab Bool := []
  ticking : List Nat := []
  edgesNow : List (Nat × Bool) := []
  turned : List Turn := []
  tiles : Tab Tile := []
  ecc : List ((MemKind × Nat × Nat)) := []
  funcs : Tab Func := []
  queues : Tab Queue := []
  targets : Tab Target := []
  shared : Tab Shared := []
  ports : Tab LinkPort := []
  reads : List HostRead := []
  nextRead : Nat := 0
  results : List ResultMsg := []
  heldFinal : List Nat := []
  hostMem : List Host.Cell := []
  hostFail : List (Nat × Nat) := []
  posted : List Posted := []
  deriving DecidableEq, Repr

/-- The machine right after a cold reset (R466): every register at the value the manual states for reset. Values
the manual leaves open are named in notes/assumptions. Die 0 holds custody (R34), and function 0 holds every
capability (R259). -/
def State.reset : State := { funcs := [(0, { caps := 0x1F })] }

end Sys2Proof.Machine
end

