-- ==== Sys2Proof/Machine/Ops.lean ====
section
/-! DEFINITION. The named operations every command is built from: tables of numbered elements, little-endian
bytes, fields of words, the elements of the state, host memory, the numbering rules of R11 and one tick of the
pilot clock. -/

namespace Sys2Proof.Machine

/-! ### Tables -/

/-- Element `n` of a table whose unlisted elements are `d`. -/
def tget (d : α) : Tab α → Nat → α
  | [], _ => d
  | (k, a) :: t, n => if k = n then a else tget d t n

/-- The table with element `n` listed as `a`, numbers kept rising. -/
def tput (n : Nat) (a : α) : Tab α → Tab α
  | [] => [(n, a)]
  | (k, b) :: t => if n < k then (n, a) :: (k, b) :: t else if n = k then (n, a) :: t else (k, b) :: tput n a t

/-- The table with element `n` unlisted. -/
def tdel (n : Nat) : Tab α → Tab α
  | [] => []
  | (k, b) :: t => if n = k then tdel n t else (k, b) :: tdel n t

/-- Writes element `n`: an element equal to `d` is not listed. -/
def tset [DecidableEq α] (d : α) (t : Tab α) (n : Nat) (a : α) : Tab α := if a = d then tdel n t else tput n a t

/-- The numbers of a table are above `lo` and strictly rising. -/
def tabRising : Option Nat → Tab α → Bool
  | _, [] => true
  | none, (k, _) :: t => tabRising (some k) t
  | some lo, (k, _) :: t => decide (lo < k) && tabRising (some k) t

/-- The canonical form of a table: numbers strictly rising, no element equal to the unlisted one. -/
def tabWf [DecidableEq α] (d : α) (t : Tab α) : Bool := tabRising none t && t.all (fun e => decide (e.2 ≠ d))

/-- Memory of bytes: a table of bytes whose unlisted bytes read 0 (R29, R286 zero it; host memory: log 7). -/
def memRead (m : List Host.Cell) (a : Nat) : Byte := tget 0 m a

/-- Writes bytes at consecutive addresses. -/
def memWrite (m : List Host.Cell) (a : Nat) : List Byte → List Host.Cell
  | [] => m
  | b :: bs => memWrite (tset 0 m a b) (a + 1) bs

/-- Reads `n` bytes at consecutive addresses. -/
def memReadN (m : List Host.Cell) (a : Nat) : Nat → List Byte
  | 0 => []
  | n + 1 => memRead m a :: memReadN m (a + 1) n

/-- The canonical form of a memory. -/
def memWf (m : List Host.Cell) : Bool := tabWf 0 m

/-- Drops the bytes of addresses `lo` to `hi - 1`. -/
def memClear (m : List Host.Cell) (lo hi : Nat) : List Host.Cell := m.filter (fun c => c.1 < lo || hi ≤ c.1)

/-! ### Bytes and fields -/

/-- `n` bytes of `v`, little-endian (R7). -/
def leBytes : Nat → Nat → List Byte
  | 0, _ => []
  | n + 1, v => BitVec.ofNat 8 v :: leBytes n (v / 256)

/-- The number that bytes spell, little-endian (R7). -/
def leNat : List Byte → Nat
  | [] => 0
  | b :: bs => b.toNat + 256 * leNat bs

/-- Bytes `off` to `off + n - 1`, 0 beyond the end. -/
def sub (bs : List Byte) (off n : Nat) : List Byte := ((bs.drop off).take n) ++ List.replicate (n - (bs.length - off)) 0

/-- Byte `i`. -/
def u8 (bs : List Byte) (i : Nat) : Nat := (bs.getD i 0).toNat
/-- The 16-bit field at byte `i`. -/
def u16 (bs : List Byte) (i : Nat) : Nat := leNat (sub bs i 2)
/-- The 32-bit field at byte `i`. -/
def u32 (bs : List Byte) (i : Nat) : Nat := leNat (sub bs i 4)
/-- The 64-bit field at byte `i`. -/
def u64 (bs : List Byte) (i : Nat) : Nat := leNat (sub bs i 8)

/-- The `len`-bit field of `v` from bit `lo`. -/
def fld (v lo len : Nat) : Nat := v / 2 ^ lo % 2 ^ len
/-- Bit `i` of `v`. -/
def bit (v i : Nat) : Bool := v / 2 ^ i % 2 == 1
/-- The field of a word. -/
def wf (w : BitVec n) (lo len : Nat) : Nat := fld w.toNat lo len
/-- Bit `i` of a word. -/
def wb (w : BitVec n) (i : Nat) : Bool := bit w.toNat i
/-- `v` with its `len`-bit field from bit `lo` replaced by `x`. -/
def putN (v lo len x : Nat) : Nat := v - fld v lo len * 2 ^ lo + x % 2 ^ len * 2 ^ lo
/-- The word with a field replaced. -/
def put (w : BitVec n) (lo len x : Nat) : BitVec n := BitVec.ofNat n (putN w.toNat lo len x)
/-- A flag as a number. -/
def b2n (b : Bool) : Nat := if b then 1 else 0
/-- A number as a 32-bit word. -/
def w32 (n : Nat) : Word := BitVec.ofNat 32 n
/-- A number as a 64-bit word. -/
def w64 (n : Nat) : DWord := BitVec.ofNat 64 n
/-- A number as a 16-bit word. -/
def w16 (n : Nat) : Half := BitVec.ofNat 16 n
/-- A number as a byte. -/
def w8 (n : Nat) : Byte := BitVec.ofNat 8 n
/-- A counter that saturates at all ones. -/
def sat (w : BitVec n) : BitVec n := if w.toNat + 1 < 2 ^ n then w + 1 else w
/-- Replaces the bytes of `bs` from `off` by `xs`. -/
def splice (bs : List Byte) (off : Nat) (xs : List Byte) : List Byte :=
  bs.take off ++ xs.take (bs.length - off) ++ bs.drop (off + xs.length)
/-- `n` zero bytes. -/
def zeros (n : Nat) : List Byte := List.replicate n 0
/-- Whether every byte from `off` to `off + n - 1` is 0. -/
def allZero (bs : List Byte) (off n : Nat) : Bool := (sub bs off n).all (· == 0)
/-- `i` at index `n` of a list is replaced. -/
def lset (l : List α) (n : Nat) (a : α) : List α := l.take n ++ a :: l.drop (n + 1)
/-- Pairs of index and element. -/
def enumL : Nat → List α → List (Nat × α)
  | _, [] => []
  | n, a :: l => (n, a) :: enumL (n + 1) l
/-- The numbers from `lo`, `n` of them. -/
def rangeL (lo n : Nat) : List Nat := (List.range n).map (lo + ·)
/-- The signed value of a 32-bit word. -/
def sx (w : BitVec n) : Int := w.toInt
/-- An integer as a 32-bit word, modulo 2³². -/
def iw32 (i : Int) : Word := BitVec.ofInt 32 i

/-! ### Numbering (R11) -/

/-- The die of a lane. -/
def laneDie (n : Nat) : Nat := n / 192
/-- The region of a lane. -/
def laneRegion (n : Nat) : Nat := n / 48
/-- The cluster of a lane. -/
def laneCluster (n : Nat) : Nat := n / 12
/-- The cluster of a program slot. -/
def slotCluster (n : Nat) : Nat := n / 64
/-- The region of a program slot. -/
def slotRegion (n : Nat) : Nat := n / 256
/-- The die of a program slot. -/
def slotDie (n : Nat) : Nat := n / 1024
/-- The cluster of a chord. -/
def chordCluster (n : Nat) : Nat := n / 128
/-- The region of a chord. -/
def chordRegion (n : Nat) : Nat := n / 512
/-- The die of a chord. -/
def chordDie (n : Nat) : Nat := n / 2048
/-- The port of a function, which is also the die it lies on. -/
def fnPort (f : Nat) : Nat := f / 4

/-! ### Elements of the state -/

namespace State

def die (s : State) (d : Nat) : Die := if d = 0 then s.die0 else s.die1
def setDie (s : State) (d : Nat) (x : Die) : State := if d = 0 then { s with die0 := x } else { s with die1 := x }
def modDie (s : State) (d : Nat) (f : Die → Die) : State := s.setDie d (f (s.die d))
def modPkg (s : State) (f : Pkg → Pkg) : State := { s with pkg := f s.pkg }
def region (s : State) (n : Nat) : Region := tget {} s.regions n
def modRegion (s : State) (n : Nat) (f : Region → Region) : State :=
  { s with regions := tset {} s.regions n (f (s.region n)) }
def cluster (s : State) (n : Nat) : Cluster := tget {} s.clusters n
def modCluster (s : State) (n : Nat) (f : Cluster → Cluster) : State :=
  { s with clusters := tset {} s.clusters n (f (s.cluster n)) }
def lane (s : State) (n : Nat) : Lane := tget {} s.lanes n
def modLane (s : State) (n : Nat) (f : Lane → Lane) : State := { s with lanes := tset {} s.lanes n (f (s.lane n)) }
def slot (s : State) (n : Nat) : Slot := tget {} s.slots n
def modSlot (s : State) (n : Nat) (f : Slot → Slot) : State := { s with slots := tset {} s.slots n (f (s.slot n)) }
def chord (s : State) (n : Nat) : Chord := tget {} s.chords n
def modChord (s : State) (n : Nat) (f : Chord → Chord) : State :=
  { s with chords := tset {} s.chords n (f (s.chord n)) }
def xfr (s : State) (n : Nat) : Xfr := tget {} s.xfrs n
def modXfr (s : State) (n : Nat) (f : Xfr → Xfr) : State := { s with xfrs := tset {} s.xfrs n (f (s.xfr n)) }
def meter (s : State) (n : Nat) : Meter := tget {} s.meters n
def modMeter (s : State) (n : Nat) (f : Meter → Meter) : State :=
  { s with meters := tset {} s.meters n (f (s.meter n)) }
def input (s : State) (n : Nat) : Input := tget {} s.inputs n
def modInput (s : State) (n : Nat) (f : Input → Input) : State :=
  { s with inputs := tset {} s.inputs n (f (s.input n)) }
def timer (s : State) (n : Nat) : Timer := tget {} s.timers n
def modTimer (s : State) (n : Nat) (f : Timer → Timer) : State :=
  { s with timers := tset {} s.timers n (f (s.timer n)) }
/-- Tile `t` of region `r` is number 512r + t. -/
def tile (s : State) (n : Nat) : Tile := tget {} s.tiles n
def modTile (s : State) (n : Nat) (f : Tile → Tile) : State := { s with tiles := tset {} s.tiles n (f (s.tile n)) }
def func (s : State) (n : Nat) : Func := tget {} s.funcs n
def modFunc (s : State) (n : Nat) (f : Func → Func) : State := { s with funcs := tset {} s.funcs n (f (s.func n)) }
/-- Queue `q` of function `f` is number 128f + q. -/
def queue (s : State) (f q : Nat) : Queue := tget {} s.queues (128 * f + q)
def modQueue (s : State) (f q : Nat) (g : Queue → Queue) : State :=
  { s with queues := tset {} s.queues (128 * f + q) (g (s.queue f q)) }
def target (s : State) (n : Nat) : Target := tget {} s.targets n
def modTarget (s : State) (n : Nat) (f : Target → Target) : State :=
  { s with targets := tset {} s.targets n (f (s.target n)) }
/-- Shared source `n`, 256–767. -/
def source (s : State) (n : Nat) : Shared := tget {} s.shared n
def modSource (s : State) (n : Nat) (f : Shared → Shared) : State :=
  { s with shared := tset {} s.shared n (f (s.source n)) }
def port (s : State) (n : Nat) : LinkPort := tget {} s.ports n
def modPort (s : State) (n : Nat) (f : LinkPort → LinkPort) : State :=
  { s with ports := tset {} s.ports n (f (s.port n)) }
/-- The asserted level of vertex `v` (R197). -/
def level (s : State) (v : Nat) : Bool := tget false s.levels v

/-- Takes one free bit (log 5). -/
def freeBit (s : State) : Bool × State := (Config.freeBit s.free, { s with free := s.free + 1 })
/-- Takes one free 64-bit value (log 5). -/
def freeWord (s : State) : DWord × State := (Config.freeWord s.free, { s with free := s.free + 1 })

/-- Folds a step over numbers. -/
def each (s : State) (l : List Nat) (f : State → Nat → State) : State := l.foldl f s

/-- Applies `f` where `c` holds. -/
def onlyIf (s : State) (c : Bool) (f : State → State) : State := if c then f s else s

end State

/-! ### Halves, ports and the Arc bridge -/

/-- The PKG block as half `d` holds it (R57, R58): while the bridge is down between two running halves, the one without custody keeps
what it held as the bridge went down. -/
def pkgOf (s : State) (d : Nat) : Pkg :=
  match s.pkg.other with
  | some b => if s.pkg.custody != d then { s.pkg with
      windows := b.windows, enforce := b.enforce, inval := b.inval, holdLost := b.holdLost, twins := b.twins, pairs := b.pairs }
    else s.pkg
  | none => s.pkg

/-- What the PKG block holds, as one half keeps it. -/
def pkgBlock (p : Pkg) : PkgBlock :=
  { windows := p.windows, enforce := p.enforce, inval := p.inval, holdLost := p.holdLost, twins := p.twins, pairs := p.pairs }

/-- The Arc bridge data path is up on both ends: ARC_STATUS.LINK reads UP or PARKED (R343). -/
def arcUp (s : State) : Bool := decide (2 ≤ s.die0.arc.link.toNat) && decide (2 ≤ s.die1.arc.link.toNat)

/-- Half `d` is lost and has not rejoined (R422). -/
def isLost (s : State) (d : Nat) : Bool := if d = 0 then s.pkg.lost0 else s.pkg.lost1

/-- Half `d` runs: it has power, has not stopped itself and is not lost. -/
def dieUp (s : State) (d : Nat) : Bool := (s.die d).power != .off && !(s.die d).selfStopped && !isLost s d

/-- The PCIe port's link is up and the port is out of reset (R133). -/
def portUp (s : State) (p : Nat) : Bool :=
  (if p = 0 then s.pkg.port0Up && !s.pkg.port0Reset else s.pkg.port1Up && !s.pkg.port1Reset) && dieUp s p

/-- The cluster's half reaches the port of function `f` (R133): the port is reachable and the Arc bridge is up
where it lies between. -/
def reaches (s : State) (d f : Nat) : Bool := portUp s (fnPort f) && (d == fnPort f || arcUp s)

/-- The function masters the bus: D0 and Bus Master Enable (R255). -/
def masters (s : State) (f : Nat) : Bool := (s.func f).d0 && (s.func f).bme

/-- The half that serves function `f` runs its firmware, its steward's clock running, and may serve work (R31, R291, R412). -/
def serves (s : State) (f : Nat) : Bool :=
  dieUp s (fnPort f) && (s.die (fnPort f)).stewardClock && (s.func f).ready && s.pkg.reloading != some (fnPort f) &&
  (!s.pkg.split || s.pkg.custody == fnPort f) && (s.die (fnPort f)).stw.pair != 1

/-! ### Host memory -/

/-- A host range whose next read fails (R144): the completion was an abort, unsupported, poisoned or late. -/
def readFails (s : State) (a n : Nat) : Bool := s.hostFail.any (fun r => r.1 < a + n && a < r.1 + r.2)

/-- A host read made inside a step: the bytes, or none when its completion failed; a failure is used up. -/
def hostRead (s : State) (a n : Nat) : Option (List Byte) × State :=
  if readFails s a n then
    (none, { s with hostFail := s.hostFail.filter (fun r => !(r.1 < a + n && a < r.1 + r.2)) })
  else (some (memReadN s.hostMem a n), s)

/-- A posted write leaves the port: it lands in host memory, after every write before it (R145, R513). -/
def postOut (s : State) (p : Posted) : State :=
  { s with hostMem := memWrite s.hostMem p.addr.toNat p.bytes, posted := s.posted ++ [p] }

/-- Issues a posted write of function `f` (R147: nothing in reset; R255: held while the function does not master
the bus and `holds`). -/
def postWrite (s : State) (f : Nat) (k : PostKind) (a : Nat) (bs : List Byte) (holds : Bool) : State :=
  if (s.func f).inReset then s
  else if holds && !masters s f then
    s.modFunc f (fun x => { x with held := x.held ++ [{ fn := f, addr := w64 a, bytes := bs, kind := k }] })
  else postOut s { fn := f, addr := w64 a, bytes := bs, kind := k }

/-! ### One tick of the pilot clock (R31, R452) -/

/-- The pilot counter after one edge: it advances by 1, and while an offset is slewed by 0 or 2 once every 64
ticks (R452). -/
def pilotStep (s : State) : State :=
  if s.pkg.slew = 0 || s.edges < s.pkg.slewAt then { s with pilot := s.pilot + 1 }
  else if s.pkg.slew > 0 then
    { s with pilot := s.pilot + 2, pkg := { s.pkg with slew := s.pkg.slew - 1, slewAt := s.edges + 64 } }
  else { s with pkg := { s.pkg with slew := s.pkg.slew + 1, slewAt := s.edges + 64 } }

end Sys2Proof.Machine
end

