-- ==== Sys2Proof/Machine/Flags.lean ====
section
/-! DEFINITION. The codes and check values the device computes: CHANNEL STATUS bits and REASONs (R115, R116),
completion codes (R292), DEVICE STATUS (R117) and the four check algorithms (R326, R327). -/

namespace Sys2Proof.Machine

/-- A failure: the CHANNEL STATUS bit and the REASON that name it (R116). -/
abbrev Fail := Half × Byte

/-! ### CHANNEL STATUS bits (R115) -/

abbrev csProgram : Half := 0x0001
abbrev csProtection : Half := 0x0002
abbrev csData : Half := 0x0004
abbrev csLane : Half := 0x0008
abbrev csChain : Half := 0x0010
abbrev csAlign : Half := 0x0020
abbrev csTimeout : Half := 0x0040
abbrev csPartial : Half := 0x0080
abbrev csSuspended : Half := 0x0100
abbrev csHalted : Half := 0x0200

/-! ### Failures by name (R116) -/

abbrev badCommand : Fail := (csProgram, 0x01)
abbrev badFlags : Fail := (csProgram, 0x02)
abbrev badField : Fail := (csProgram, 0x03)
abbrev badCount : Fail := (csProgram, 0x04)
abbrev noSuchResource : Fail := (csProgram, 0x05)
abbrev jumpToJump : Fail := (csProgram, 0x06)
abbrev listDepth : Fail := (csProgram, 0x07)
abbrev listShort : Fail := (csProgram, 0x08)
abbrev badAddress : Fail := (csProgram, 0x09)
abbrev gangedOdd : Fail := (csProgram, 0x0A)
abbrev remoteNotAllowed : Fail := (csProgram, 0x0B)
abbrev barSelf : Fail := (csProtection, 0x20)
abbrev tileOwner : Fail := (csProtection, 0x21)
abbrev windowMiss : Fail := (csProtection, 0x22)
abbrev blockRights : Fail := (csProtection, 0x23)
abbrev pecMismatch : Fail := (csData, 0x30)
abbrev ueData : Fail := (csData, 0x31)
abbrev tileRetired : Fail := (csData, 0x32)
abbrev hostError : Fail := (csData, 0x33)
abbrev laneNack : Fail := (csLane, 0x40)
abbrev arbLost : Fail := (csLane, 0x41)
abbrev busStuck : Fail := (csLane, 0x42)
abbrev laneDead : Fail := (csLane, 0x43)
abbrev chordPreempt : Fail := (csLane, 0x44)
abbrev badPersonality : Fail := (csLane, 0x45)
abbrev pathLost : Fail := (csLane, 0x46)
abbrev holdLost : Fail := (csLane, 0x47)
abbrev laneResetFail : Fail := (csLane, 0x48)
/-- A lane command that failed with no named reason (R140). -/
abbrev laneFailed : Fail := (csLane, 0x00)
abbrev fetchFailed : Fail := (csChain, 0x50)
abbrev listFetchFailed : Fail := (csChain, 0x51)
abbrev portLost : Fail := (csChain, 0x52)
abbrev dataAlign : Fail := (csAlign, 0x60)
abbrev tableAlign : Fail := (csAlign, 0x61)
abbrev waitTimeoutFail : Fail := (csTimeout, 0x70)
abbrev laneTimeoutFail : Fail := (csTimeout, 0x71)
abbrev haltCommand : Byte := 0x80
abbrev haltProgramReason : Byte := 0x81
abbrev functionResetReason : Byte := 0x82
abbrev regionResetReason : Byte := 0x83
abbrev portResetReason : Byte := 0x84
abbrev unitResetReason : Byte := 0x85
abbrev someLanes : Byte := 0x90
abbrev suspendPoint : Byte := 0xA0

/-! ### Completion codes (R292) -/

abbrev ccSuccess : Nat := 0x0000
abbrev ccPartial : Nat := 0x0001
abbrev ccMalformed : Nat := 0x0101
abbrev ccUnknownOpcode : Nat := 0x0102
abbrev ccTagBusy : Nat := 0x0103
abbrev ccNotOwner : Nat := 0x0104
abbrev ccBufferNotHeld : Nat := 0x0105
abbrev ccPoolEmpty : Nat := 0x0106
abbrev ccQueueBusy : Nat := 0x0107
abbrev ccCapability : Nat := 0x0108
abbrev ccOtpExhausted : Nat := 0x0109
abbrev ccLengthExceedsRing : Nat := 0x010A
abbrev ccNoSuchResource : Nat := 0x010B
abbrev ccNotInMailbox : Nat := 0x010C
abbrev ccAbandoned : Nat := 0x010D
abbrev ccChannelCheck : Nat := 0x0201
abbrev ccProgramHalted : Nat := 0x0202
abbrev ccStatusWriteFailed : Nat := 0x0203
abbrev ccNotSuspended : Nat := 0x0204
abbrev ccNoProgram : Nat := 0x0205
abbrev ccChordArmed : Nat := 0x0206
abbrev ccBadClaim : Nat := 0x0207
abbrev ccBadChain : Nat := 0x0208
abbrev ccChordNotHeld : Nat := 0x0209
abbrev ccRecordFetchFailed : Nat := 0x020A
abbrev ccTileTaken : Nat := 0x020B
abbrev ccBufferSealed : Nat := 0x020C
abbrev ccApplyRefused : Nat := 0x020D
abbrev ccFirmwareRejected : Nat := 0x020E
abbrev ccPolicyRejected : Nat := 0x020F
abbrev ccDataWriteFailed : Nat := 0x0210
abbrev ccStreamFailed : Nat := 0x0211

/-- The START completion code of a final state (R121): HALTED, or ENDED with a CHANNEL STATUS. -/
def endCode (halted : Bool) (chan : Half) : Nat :=
  if halted then ccProgramHalted
  else if chan = 0 then ccSuccess
  else if chan = csPartial then ccPartial
  else ccChannelCheck

/-! ### DEVICE STATUS (R117) -/

/-- DEVICE STATUS of a class and index. -/
def devStatus (cls : BitVec 4) (index : BitVec 12) : Half := cls ++ index

/-- The CHANNEL STATUS failure of a DEVICE STATUS class (R115, R116, R140): a NACK, lost arbitration and a stuck
bus have reasons of their own, a PEC mismatch is a DATA_CHECK, a timeout a TIMEOUT, every other class a
LANE_CHECK with REASON NONE. -/
def classFail (cls : BitVec 4) : Option Fail :=
  if cls = 0 then none
  else if cls = 1 || cls = 2 then some laneNack
  else if cls = 3 then some arbLost
  else if cls = 4 then some busStuck
  else if cls = 5 then some pecMismatch
  else if cls = 8 then some laneTimeoutFail
  else some laneFailed

/-! ### Check accumulation (R114, R326, R327) -/

/-- `n` steps of a check register that shifts left by a polynomial, in `w` bits. -/
def crcLeft (w poly : Nat) : Nat → Nat → Nat
  | 0, r => r
  | n + 1, r => crcLeft w poly n (if bit r (w - 1) then (2 * r % 2 ^ w) ^^^ poly else 2 * r % 2 ^ w)

/-- `n` steps of the reflected CRC-32C register. -/
def crcRight : Nat → Nat → Nat
  | 0, r => r
  | n + 1, r => crcRight n (if bit r 0 then (r / 2) ^^^ 0x82F63B78 else r / 2)

/-- The SMBus PEC step, also CRC-8 (R326). -/
def crc8 (r : Nat) (b : Byte) : Nat := crcLeft 8 0x07 8 (r ^^^ b.toNat)
/-- CRC-16 of polynomial 0x1021. -/
def crc16 (r : Nat) (b : Byte) : Nat := crcLeft 16 0x1021 8 (r ^^^ (b.toNat * 256))
/-- CRC-32C, register held reflected (R327). -/
def crc32c (r : Nat) (b : Byte) : Nat := crcRight 8 (r ^^^ b.toNat)
/-- Adds a 16-bit pair with end-around carry. -/
def sumPair (r hi lo : Nat) : Nat :=
  let t := r + hi * 256 + lo
  t % 65536 + t / 65536

/-- The accumulator at an algorithm's initial register (R326). -/
def accInit (alg : BitVec 2) : Acc :=
  { alg := alg, reg := if alg = 1 then 0xFFFF else if alg = 2 then 0xFFFFFFFF else 0, odd := none }

/-- The final XOR of an algorithm (R326). -/
def accXor (alg : BitVec 2) : Nat := if alg = 2 then 0xFFFFFFFF else if alg = 3 then 0xFFFF else 0

/-- The accumulator whose result equals `seed` (R327). -/
def accSeed (alg : BitVec 2) (seed : Nat) : Acc := { alg := alg, reg := w32 (seed ^^^ accXor alg), odd := none }

/-- The width of an algorithm (R114). -/
def accWidth (alg : BitVec 2) : Nat := if alg = 0 then 8 else if alg = 2 then 32 else 16

/-- Feeds one byte. -/
def accByte (a : Acc) (b : Byte) : Acc :=
  if a.alg = 0 then { a with reg := w32 (crc8 a.reg.toNat b) }
  else if a.alg = 1 then { a with reg := w32 (crc16 a.reg.toNat b) }
  else if a.alg = 2 then { a with reg := w32 (crc32c a.reg.toNat b) }
  else match a.odd with
    | none => { a with odd := some b }
    | some h => { a with reg := w32 (sumPair a.reg.toNat h.toNat b.toNat), odd := none }

/-- Feeds bytes in order. -/
def accFeed (a : Acc) : List Byte → Acc
  | [] => a
  | b :: bs => accFeed (accByte a b) bs

/-- The result: the register after the final XOR, a trailing odd byte counted as if paired with 0 (R326). -/
def accResult (a : Acc) : Word :=
  match a.odd with
  | none => w32 (a.reg.toNat ^^^ accXor a.alg)
  | some h => w32 (sumPair a.reg.toNat h.toNat 0 ^^^ accXor a.alg)

/-- The SMBus PEC of bytes (R175). -/
def pecOf (bs : List Byte) : Byte := w8 (bs.foldl crc8 0)

end Sys2Proof.Machine
end

