-- ==== Sys2Proof/Machine/Operands.lean ====
section
/-! DEFINITION. The operand forms of the device's commands as they lie in memory: channel command words (R74), work
orders (R267), fragment-table entries (R110), test descriptors (R101), chord records (R204) and meter settings
(R244). -/

namespace Sys2Proof.Machine

/-! ### Channel command words -/

/-- A channel command word (R74). -/
structure Ccw where
  cmd : Nat
  flags : Nat
  count : Nat
  lane : Nat
  target : Nat
  addr : Nat
  deriving DecidableEq, Repr

/-- The command word in 16 bytes. -/
def ccwOf (b : List Byte) : Ccw := ⟨u8 b 0, u8 b 1, u16 b 2, u16 b 4, u16 b 6, u64 b 8⟩

/-- The flags of a CCW (R74). -/
def ctpOf (flags : Nat) : Bool := bit flags 7
def noteOf (flags : Nat) : Bool := bit flags 6
def pauseOf (flags : Nat) : Bool := bit flags 5
def dropOf (flags : Nat) : Bool := bit flags 4
def listOf (flags : Nat) : Bool := bit flags 3
def crcOf (flags : Nat) : Bool := bit flags 2
def spanOf (flags : Nat) : Bool := bit flags 1
def nextOf (flags : Nat) : Bool := bit flags 0

/-- The command codes of R78 that are listed. -/
def ccwListed (cmd : Nat) : Bool :=
  [0x00, 0x01, 0x02, 0x03, 0x04, 0x05, 0x06, 0x08, 0x09, 0x0A, 0x0B, 0x0C, 0x0D, 0x0E, 0x0F, 0x11, 0xFF].contains cmd

/-- The flags R92 allows a command, as a mask of the flags byte; `set` when READ names a lane set. -/
def flagsAllowed (cmd : Nat) (set : Bool) : Nat :=
  match cmd with
  | 0x00 => 0x65
  | 0x01 => 0xEF
  | 0x02 => if set then 0xFD else 0xFF
  | 0x03 => 0xFD
  | 0x04 => 0xE1
  | 0x05 => 0xF1
  | 0x06 => 0xEF
  | 0x08 => 0x00
  | 0x09 => 0x61
  | 0x0A => 0x61
  | 0x0B => 0x61
  | 0x0C => 0x61
  | 0x0D => 0x25
  | 0x0E => 0x61
  | 0x0F => 0x61
  | 0x11 => 0x65
  | 0xFF => 0x20
  | _ => 0x00

/-- Every flag set is allowed, and TEST has NEXT (R92). -/
def flagsOk (c : Ccw) : Bool :=
  (c.flags &&& (255 - flagsAllowed c.cmd (bit c.lane 15))) = 0 && (c.cmd != 0x09 || nextOf c.flags)

/-- Every field the command does not use is 0 (R77, R78). NOP uses TARGET and ADDRESS only with CRC; POST uses
ADDRESS only with CRC (R87). -/
def unusedOk (c : Ccw) : Bool :=
  match c.cmd with
  | 0x00 => c.count = 0 && c.lane = 0 && (crcOf c.flags || (c.target = 0 && c.addr = 0))
  | 0x05 => c.target = 0
  | 0x08 | 0x09 | 0x0B => c.count = 0 && c.lane = 0 && c.target = 0
  | 0x0A | 0x0C | 0x0F => c.count = 0 && c.lane = 0
  | 0x0D => c.count = 0 && c.lane = 0 && c.target = 0 && (crcOf c.flags || c.addr = 0)
  | 0x0E => c.lane = 0
  | 0x11 => c.lane = 0 && c.target = 0
  | 0xFF => c.count = 0 && c.lane = 0 && c.addr = 0
  | _ => true

/-! ### Work orders and admin entries -/

/-- The fields of an entry (R267). -/
def eOpcode (b : List Byte) : Nat := u8 b 0
def eLen (b : List Byte) : Nat := u8 b 1
def eTag (b : List Byte) : Nat := u16 b 2
def eParams (b : List Byte) : Nat := u32 b 4
def eA (b : List Byte) : Nat := u64 b 8
def eB (b : List Byte) : Nat := u64 b 16
def eTable (b : List Byte) : Nat := u64 b 24
def eInline (b : List Byte) : List Byte := sub b 32 16
def eOwn (b : List Byte) : Bool := bit (u8 b 63) 7

/-! ### Chord records -/

/-- The parts of a chord record (R204–R206). -/
def recTrigger (r : List Byte) (k : Nat) : Nat := u16 r (2 * k)
def recRule (r : List Byte) : Nat := fld (u8 r 8) 0 2
def recRank (r : List Byte) : Nat := fld (u8 r 8) 4 4
def recPersist (r : List Byte) : Bool := bit (u8 r 9) 0
def recOneshot (r : List Byte) : Bool := bit (u8 r 9) 1
def recRearm (r : List Byte) : Bool := bit (u8 r 9) 2
def recWindow (r : List Byte) : Nat := u16 r 10
def recHoldoff (r : List Byte) : Nat := u16 r 12
def recOwner (r : List Byte) : Nat := fld (u8 r 14) 0 3
def recClaim (r : List Byte) (k : Nat) : Nat := u16 r (16 + 2 * k)
def recParam (r : List Byte) (k : Nat) : Nat := u16 r (24 + 2 * k)
def recSegment (r : List Byte) (k : Nat) : List Byte := sub r (32 + 20 * k) 20
def recChain (r : List Byte) : Nat := u64 r 112

/-- A trigger word (R205). -/
def trigVertex (t : Nat) : Nat := fld t 0 11
def trigSense (t : Nat) : Nat := fld t 11 2
def trigValid (t : Nat) : Bool := bit t 15
/-- A claim word (R206). -/
def claimLane (c : Nat) : Nat := fld c 0 9
def claimKind (c : Nat) : Nat := fld c 9 2
def claimHalf (c : Nat) : Nat := fld c 12 3
def claimValid (c : Nat) : Bool := bit c 15

/-- The valid triggers of a record, in index order. -/
def recTriggers (r : List Byte) : List (Nat × Nat) :=
  (((List.range 4).map (fun k => (k, recTrigger r k))).filter (fun e => trigValid e.2))
/-- The valid claims of a record. -/
def recClaims (r : List Byte) : List (Nat × Nat) :=
  (((List.range 4).map (fun k => (k, recClaim r k))).filter (fun e => claimValid e.2))

/-- A stroke (R207): its pin, action, delay and width. -/
def strokePin (seg : List Byte) (i : Nat) : Nat := fld (u8 seg (3 * i)) 0 2
def strokeAction (seg : List Byte) (i : Nat) : Nat := fld (u8 seg (3 * i)) 2 3
def strokeDelay (seg : List Byte) (i : Nat) : Nat := u8 seg (3 * i + 1)
def strokeWidth (seg : List Byte) (i : Nat) : Nat := u8 seg (3 * i + 2)
/-- The strokes of a segment (R207 COUNT). -/
def strokeCount (param : Nat) : Nat := fld param 0 3

/-- The duration of a lead segment in ticks (R207, R209). -/
def segDuration (claim param : Nat) (seg : List Byte) : Nat :=
  if claimKind claim = 1 then
    ((List.range (strokeCount param)).map (fun i =>
      strokeDelay seg i + (if 3 ≤ strokeAction seg i then strokeWidth seg i else 0))).foldl (· + ·) 0
  else fld param 12 4 + 2 * claimHalf claim * (fld param 0 8 + fld param 8 4)

/-! ### Vertex numbers (R14, R15) -/

/-- A vertex ID that names a source: not reserved (R14, R15). -/
def vertexExists (v : Nat) : Bool := v < 1495

/-- The home die of a vertex; none for V1492, V1493 and V1494 (R14, R15). -/
def vertexDie (v : Nat) : Option Nat :=
  if v < 768 then some (v / 384)
  else if v < 800 then some ((v - 768) / 16)
  else if v < 928 then some ((v - 800) / 64)
  else if v < 1056 then some ((v - 928) / 64)
  else if v < 1312 then some ((v - 1056) / 128)
  else if v < 1440 then some ((v - 1312) / 64)
  else if v < 1472 then some ((v - 1440) / 16)
  else if v < 1488 then some ((v - 1472) / 8)
  else if v < 1492 then some ((v - 1488) / 2)
  else none

/-- A one-tick source: soft vertices, vertex timers, die fault vertices and V1492 (R197). -/
def oneTick (v : Nat) : Bool := (1056 ≤ v && v < 1312) || (1440 ≤ v && v < 1488) || v = 1492

end Sys2Proof.Machine
end

