-- ==== Sys2Proof/Machine/Events.lean ====
section
/-! DEFINITION. What the device reports: private and shared event sources becoming pending (R295–R298), the
violation log (R73) and the black box (R417–R419). -/

namespace Sys2Proof.Machine

/-! ### Event sources -/

abbrev kindRise : BitVec 5 := 0x01
abbrev kindFall : BitVec 5 := 0x02
abbrev kindLevel : BitVec 5 := 0x03
abbrev kindSoft : BitVec 5 := 0x04
abbrev kindQueue : BitVec 5 := 0x05
abbrev kindMailbox : BitVec 5 := 0x06
abbrev kindNotice : BitVec 5 := 0x07
abbrev kindLost : BitVec 5 := 0x08
abbrev kindPulse : BitVec 5 := 0x09

/-- An occurrence of a pulse source of target `t`: pending, or merged into the pending one (R297). A target with
no ring, or a masked source, records nothing (R307, R310). -/
def raisePulse (s : State) (t src : Nat) (kind : BitVec 5) (data : Nat) : State :=
  let g := s.target t
  if !g.live || tget false g.disabled src then s
  else
    let o : Occ := { kind := kind, data := w32 data, time := s.pilot }
    s.modTarget t (fun g => { g with
      merged := if (tget none g.pend src).isSome then sat g.merged else g.merged
      pend := tset none g.pend src (some o) })

/-- A notice of a notice source of target `t` (R298): queued, or refused and counted lost when 32 are queued. -/
def raiseNotice (s : State) (t src data : Nat) : State :=
  let g := s.target t
  if !g.live || tget false g.disabled src then s
  else
    let n := tget {} g.notices src
    let n' : Notices := if n.q.length < 32 then { n with q := n.q ++ [(w32 data, s.pilot)] } else { n with lost := n.lost + 1 }
    s.modTarget t (fun g => { g with notices := tset {} g.notices src n' })

/-- The fields of a route in force (R313). -/
def routeTarget (x : Shared) : Nat := wf x.route 0 4
def routeSense (x : Shared) : Nat := wf x.route 4 2
def routeOn (x : Shared) : Bool := wb x.route 6
def routeVertex (x : Shared) : Nat := wf x.route 8 11

/-- A shared source becomes pending, or merges (R297). -/
def pendShared (s : State) (n : Nat) (kind : BitVec 5) (data : Nat) : State :=
  let x := s.source n
  let t := routeTarget x
  if !routeOn x || !(s.target t).live then s
  else
    let s := if x.pend.isSome then s.modTarget t (fun g => { g with merged := sat g.merged }) else s
    s.modSource n (fun x => { x with pend := some { kind := kind, data := w32 data, time := s.pilot } })

/-- The home die of a shared source (R296). -/
def sourceDie (n : Nat) : Nat :=
  if n < 512 then (n - 256) / 128 else if n < 528 then (n - 512) / 8 else if n < 648 then 0 else 1

/-- A Polob link port in service (R456 ENABLE). -/
def portInService (p : LinkPort) : Bool := p.st != .disabled

/-- The asserted level of a shared source that is not a pulse source (R296). -/
def sourceLevel (s : State) (n : Nat) : Bool :=
  if 528 ≤ n then s.level (routeVertex (s.source n))
  else
    let d := (n - 512) / 8
    match (n - 512) % 8 with
    | 1 => (rangeL (32 * d) 32).any (fun i => (s.input i).fault != 0)
    | 2 => (s.die d).bbx.frozen
    | 3 => [2 * d, 2 * d + 1].any (fun p => portInService (s.port p) && (s.port p).st != .up)
    | _ => false

/-- The vertex a record of source `n` names (R300). -/
def sourceVertexData (s : State) (n : Nat) : Nat := if 528 ≤ n then routeVertex (s.source n) else 0

/-- A LEVEL source that is asserted, enabled and not in service becomes pending (R297), but while its writer's die is in Rest
(R311). -/
def sampleLevel (s : State) (n : Nat) : State :=
  let x := s.source n
  let t := routeTarget x
  if (s.die (if t < 8 then t / 4 else t - 8)).power != .rest && routeOn x && routeSense x = 0 && !x.inService && x.pend.isNone && sourceLevel s n then
    pendShared s n kindLevel (sourceVertexData s n)
  else s

/-- The level of a shared source changes to `lvl` (R297). -/
def sourceEdge (s : State) (n : Nat) (lvl : Bool) : State :=
  let sense := routeSense (s.source n)
  if sense = 0 then (if lvl then sampleLevel s n else s)
  else if lvl && (sense = 1 || sense = 3) then pendShared s n kindRise (sourceVertexData s n + 65536)
  else if !lvl && (sense = 2 || sense = 3) then pendShared s n kindFall (sourceVertexData s n)
  else s

/-- The level of vertex `v` changes to `lvl`: every VERTEX source routed to it sees the edge. -/
def vertexEdge (s : State) (v : Nat) (lvl : Bool) : State :=
  ((s.shared.filter (fun e => 528 ≤ e.1 && routeVertex e.2 = v)).map Prod.fst).foldl (fun s n => sourceEdge s n lvl) s

/-- A step changes the level of a shared level source: the source sees the edge. -/
def withSourceEdge (s : State) (n : Nat) (f : State → State) : State :=
  let before := sourceLevel s n
  let s := f s
  let after := sourceLevel s n
  if before = after then s else sourceEdge s n after

/-- A notice of a steward target (R377). -/
def stewardNotice (s : State) (d src data : Nat) : State := raiseNotice s (8 + d) src data

/-! ### Violations (R73) -/

abbrev vLockWrite : Nat := 1
abbrev vUnmapped : Nat := 2
abbrev vRequest : Nat := 3
abbrev vPartialWrite : Nat := 4
abbrev vPrivate : Nat := 5
abbrev vNotOwner : Nat := 6
abbrev vWindowMiss : Nat := 7
abbrev vSplitWrite : Nat := 8

/-- SOURCE of a violation record. -/
def whoCode : Who → Nat
  | .fn f => f
  | .steward _ => 8
  | .oob _ => 9

/-- Logs a violation on die `d`: the record, the total, the offender's notice and the shared source. -/
def violate (s : State) (d kind : Nat) (who : Who) (addr data detail : Nat) : State :=
  let i := (s.die d).violNext
  let rec' := [w8 kind, w8 (whoCode who)] ++ leBytes 2 detail ++ leBytes 4 data ++ leBytes 8 addr ++
    leBytes 8 s.pilot.toNat ++ zeros 8
  let s := s.modDie d (fun x => { x with
    viol := tset [] x.viol i rec', violNext := (i + 1) % 16, violTotal := sat x.violTotal })
  let s := match who with
    | .fn f => raiseNotice s f 129 (i + 16 * d + 256 * kind)
    | _ => s
  pendShared s (512 + 8 * d) kindPulse (i + 256 * kind)

/-! ### The black box -/

/-- The slot after `n` that is not in a row taken out of use (R397). -/
def bbxSkip (bad : List Nat) : Nat → Nat → Nat
  | 0, n => n
  | k + 1, n => if bad.contains (n / 16) then bbxSkip bad k ((n / 16 + 1) * 16 % 4096) else n

/-- Freezes a box that is not frozen (R419). -/
def bbxFreezeBox (s : State) (d : Nat) (cause : BitVec 3) : State :=
  if (s.die d).bbx.frozen then s
  else withSourceEdge s (514 + 8 * d)
    (fun s => s.modDie d (fun x => { x with bbx := { x.bbx with frozen := true, cause := cause, post := none } }))

/-- Writes one record into the box of die `d` (R417): KIND, FLAGS[1], ARG, DETAIL, at pilot time `time`. A frozen box
counts it dropped; a record of BBX_TRIGGER.KIND starts the count of R419. -/
def bbxRecordAt (s : State) (d : Nat) (kind : Nat) (fatal : Bool) (arg : Nat) (detail : List Byte) (time : DWord) : State :=
  let b := (s.die d).bbx
  if b.frozen then s.modDie d (fun x => { x with bbx := { x.bbx with dropped := sat x.bbx.dropped } })
  else
    let met := wf b.trigger 0 8 = kind && kind != 0
    let raw := if b.written then (b.newest.toNat + 1) % 4096 else 0
    let at_ := bbxSkip b.badRows b.badRows.length raw
    let rec' := [w8 kind, w8 (d + 2 * b2n fatal + 4 * b2n met)] ++ leBytes 2 b.seq.toNat ++ leBytes 4 arg ++
      leBytes 8 time.toNat ++ sub detail 0 16
    let count := match b.post with
      | some n => some (n - 1)
      | none => if met then some (wf b.trigger 8 12) else none
    let s := s.modDie d (fun x => { x with bbx := { x.bbx with
      records := tset [] x.bbx.records at_ rec', newest := BitVec.ofNat 12 at_, seq := x.bbx.seq + 1
      wrapped := x.bbx.wrapped || (b.written && decide (at_ ≤ b.newest.toNat)), written := true, post := count } })
    if count = some 0 then bbxFreezeBox s d 2 else s

/-- A record stamped with the present pilot time. -/
def bbxRecord (s : State) (d kind arg : Nat) (detail : List Byte) : State := bbxRecordAt s d kind false arg detail s.pilot

/-! ### Unit and lane errors -/

/-- The UNIT_ERROR notices of R20: the functions that use the unit, and the steward of its die. -/
def unitError (s : State) (d utype unit : Nat) (fs : List Nat) : State :=
  let data := utype + 256 * unit
  stewardNotice (fs.foldl (fun s f => raiseNotice s f 130 data) s) d 8 data

/-- Sets bits of LANE_ERR; the owner's LANE notice names the bits newly set, and `ibi` that an in-band record was
queued (R171, R177, R295). -/
def setLaneErr (s : State) (n bits : Nat) (ibi : Bool) : State :=
  let l := s.lane n
  let new := bits - (bits &&& l.err.toNat)
  let s := s.modLane n (fun l => { l with err := l.err ||| w32 bits })
  if new = 0 && !ibi then s else raiseNotice s l.owner 131 (n + 65536 * (new % 512) + 2 ^ 25 * b2n ibi)

/-- Adds one to CLU_STALE (R143, R154). -/
def countStale (s : State) (c : Nat) : State := s.modCluster c (fun x => { x with stale := sat x.stale })

end Sys2Proof.Machine
end

