-- ==== Sys2Proof/Machine/Regs.lean ====
section
/-! DEFINITION. The register map of a die's port space (R56) and of a function's BAR0 (R54): what every register
reads as, and the effect of a read (R8 RC, R59, R251). -/

namespace Sys2Proof.Machine

/-! ### Facts the registers and the commands share -/

/-- The bytes of the OTP generation in force on die `d`; none when no generation is in force (R484). -/
def otpBytes (s : State) (d : Nat) : List Byte :=
  let o := (s.die d).otp
  if o.skipped || o.inForce = 0 then [] else (tget {} o.gens o.inForce).bytes

/-- Whether function `f` is present: HIDE hides functions 1–3 and 5–7 (R256, R483). -/
def fnPresent (s : State) (f : Nat) : Bool := f = 0 || f = 4 || !bit (u8 (otpBytes s (fnPort f)) 6) f

/-- The odd lane of a ganged pair (R12). -/
def isPartner (s : State) (n : Nat) : Bool := n % 2 = 1 && wb (s.lane (n - 1)).cfg 4

/-- The lane that names `n` as its quad-SPI strobe lane (R167). -/
def strobeOf (s : State) (n : Nat) : Option Nat :=
  (s.lanes.find? (fun e => wf e.2.cfg 0 4 = 7 && laneCluster e.1 = laneCluster n && wf e.2.cfg 8 4 = n % 12 && e.1 != n)).map Prod.fst

/-- The personality of a lane (R168). -/
def personality (l : Lane) : Nat := wf l.cfg 0 4

/-- The lane whose configuration governs the pins of lane `m`: the even lane of its gang, the quad-SPI lane it is the strobe of, or itself
(R12, R167). -/
def governor (s : State) (m : Nat) : Nat :=
  match strobeOf s m with
  | some e => e
  | none => if isPartner s m then m - 1 else m

/-- A unit state as registers show it (R171). -/
def unitCode : UnitState → Nat
  | .inService => 0
  | .resetting => 1
  | .spared => 2
  | .retired => 3

/-- The twin entry of lane `n` (R422). -/
def twinOf (s : State) (n : Nat) : Twin := tget {} s.pkg.twins n

/-- The lane whose unit serves lane number `n` now: its twin after a takeover (R403). -/
def servingLane (s : State) (n : Nat) : Nat :=
  let t := twinOf s n
  if t.valid && t.failedOver && !t.shadow then t.other else n

/-- The lane FIFO bytes of a depth code (R170). -/
def fifoBytes (w : Word) : Nat := 64 * 2 ^ wf w 0 4

/-- The bytes in the lane's FIFO (R171, R179): those held, and those of the running command not yet shifted out, never more than it has
room for. How many have been shifted out is free. -/
def fifoFill (s : State) (n : Nat) : Nat :=
  let l := s.lane n
  min (fifoBytes l.fifo) (l.rx.length + (match l.txn with | some c => c.out.length - Config.fifoShifted n s.edges | none => 0))

/-- LANE_STATUS (R171). -/
def laneStatus (s : State) (n : Nat) : Nat :=
  let l := s.lane n
  unitCode l.unit + 4 * (if isPartner s n then 1 else if (strobeOf s n).isSome then 2 else 0) +
  16 * b2n l.txn.isSome + 32 * b2n l.held.isSome + 64 * b2n l.lead.isSome + 128 * b2n (l.shadow.any (fun e => e.2.isSome)) +
  256 * b2n l.levelA + 512 * b2n l.levelB + 1024 * b2n (s.cluster (laneCluster n)).bankFault + 2048 * b2n l.tachStalled +
  65536 * min 255 (fifoFill s n / 64)

/-- The slots of cluster `c` that hold a program, adopted ones or its own. -/
def slotsInUse (s : State) (c : Nat) (adopted : Bool) : Nat :=
  (s.slots.filter (fun e => slotCluster e.1 = c && e.2.st != .free && e.2.adopted = adopted)).length

/-- The state code of a slot (R155). -/
def slotCode : SlotState → Nat
  | .free => 0
  | .active => 2
  | .waiting => 3
  | .suspended => 4

/-- CLU_SLOT_STATE (R155). -/
def slotState (x : Slot) : Nat :=
  if x.st = .free then 0 else
  let isChord := match x.owner with | .chord _ => true | _ => false
  slotCode x.st + 16 * x.gen.toNat + 256 * x.fn + 2048 * b2n isChord + 4096 * b2n (!x.holds.isEmpty) +
    8192 * b2n x.halt.isSome + 65536 * x.tag.toNat

/-- CLU_SLOT_WAIT (R155). -/
def slotWait (x : Slot) : Nat :=
  match x.wait with
  | some w => match w.vertex with | some v => v | none => 2048
  | none => 0

/-- The state code of a chord (R212). -/
def chordCode : ChordState → Nat
  | .disarmed => 0
  | .armed => 1
  | .firing => 2
  | .following => 3
  | .holdoff => 4
  | .spent => 5
  | .draining => 6

/-- CHD_STATE (R227). -/
def chordState (c : Chord) : Nat :=
  let fl := u8 c.record 9
  if c.st = .disarmed then 65536 * c.gen.toNat else
  chordCode c.st + 16 * fld (u8 c.record 8) 4 4 + 256 * fld (u8 c.record 14) 0 3 + 2048 * fld fl 0 1 + 4096 * fld fl 1 1 +
    8192 * fld fl 2 1 + 65536 * c.gen.toNat

/-- Queue state as registers show it (R260). -/
def qCode : QState → Nat
  | .absent => 0
  | .running => 1
  | .error => 2
  | .destroying => 3

/-- FN_QSTATE (R260). -/
def fnQState (s : State) (f q : Nat) : Nat :=
  let x := s.queue f q
  if x.st = .absent then 0 else
  qCode x.st + 4 * b2n x.variable_ + 256 * x.reason.toNat + 65536 * x.index + 2 ^ 32 * x.head + 2 ^ 48 * x.tail

/-- The role of the device (R426): 0 standalone, 1 apex, 2 worker, 3 standby apex. -/
def deviceRole (s : State) : Nat :=
  let id := s.pkg.sysId.toNat
  if id = 31 then 0
  else if id = 0 then (if (List.range 4).any (fun p => wb (s.port p).cfg 0) then 1 else 0)
  else if s.pkg.standby then (if s.pkg.acting then 1 else 3) else 2

/-- A link port is enabled (R456 ENABLE), never on DEVID 31 (R426). -/
def portEnabled (s : State) (p : Nat) : Bool := wb (s.port p).cfg 0 && s.pkg.sysId != 31

/-- The state code of a link port (R456). -/
def portCode : PortState → Nat
  | .disabled => 0
  | .training => 1
  | .up => 2
  | .down => 3
  | .standoff => 4

/-- The role code of a link port (R456). -/
def roleCode : PortRole → Nat
  | .none => 0
  | .upstream => 1
  | .downstream => 2
  | .alternate => 3

/-- Free pool tiles of region `r` (R286). -/
def freeTiles (s : State) (r : Nat) : Nat :=
  496 - (s.tiles.filter (fun e => e.1 / 512 = r && 16 ≤ e.1 % 512 && (e.2.owner != .pool || e.2.retired || e.2.used))).length

/-- Tiles retired of region `r`. -/
def retiredTiles (s : State) (r : Nat) : Nat := (s.tiles.filter (fun e => e.1 / 512 = r && (e.2.retired || (16 ≤ e.1 % 512 && e.2.used)))).length

/-- One byte of DIE_REGION_STATE (R52). A spare engine that has itself failed covers nothing and is not free: SPARE has no code for
it and reads 0b00, while SPARES_LEFT does not count it (DESIGN CHOICE, log 70). -/
def regionByte (s : State) (r : Nat) : Nat :=
  let x := s.region r
  (if x.inReset then 2 else match x.power with | .gated => 1 | .off => 1 | _ => 0) +
  4 * (match x.spareFor with | none => 0 | some c => if c / 4 = r then 1 else 2) + 16 * x.enginesFailed

/-- DIE_UNITS (R51). -/
def dieUnits (s : State) (d : Nat) : Nat :=
  let x := s.die d
  x.lanesDead + 256 * ((rangeL (4 * d) 4).filter (fun r => (s.region r).spareFor.isNone && !(s.region r).spareBad)).length +
  4096 * x.tilesRetired + 2 ^ 24 * ((rangeL (4 * d) 4).map (fun r => (s.region r).rows)).foldl (· + ·) 0

/-- The snapshot of a meter as 32 bytes (R246): as published, or at reset all 0 but MIN and MAX. -/
def snapBytes (m : Meter) : List Byte :=
  if m.snap.isEmpty then zeros 16 ++ leBytes 4 0x7FFFFFFF ++ leBytes 4 0x80000000 ++ zeros 8 else m.snap

/-- The snapshot as a read returns it: STOPPED tells whether the meter domain of its die is stopped (R246, R248). -/
def snapRead (s : State) (m : Nat) : List Byte :=
  let b := snapBytes (s.meter m)
  if (s.die (m / 64)).meterRun then b else lset b 24 (b.getD 24 0 ||| 0x20)

/-- The priority a requester has while ARB_PRIO is not written (R334). -/
def prioReset (q : Nat) : Word := if q < 4 then 0x5 else if q < 20 then 0x2 else if q = 20 then 0xF else if q = 21 then 0xC else 0x6

/-- ARB_PRIO of requester `q`. -/
def arbPrio (a : Arb) (q : Nat) : Word := tget (prioReset q) a.prio q

/-- Meters of die `d` with OP not OFF (R244 byte 0 [3:0]). -/
def metersOn (s : State) (d : Nat) : Nat :=
  (s.meters.filter (fun e => e.1 / 64 = d && fld (u8 e.2.settings 0) 0 4 != 0)).length

/-- PKG_TWIN entry bits (R422). -/
def twinBits (t : Twin) : Nat :=
  if t.valid then t.other + 8192 * b2n t.shadow + 16384 * b2n t.failedOver + 32768 else 0

/-! ### What a register reads as -/

/-- A register read: a 32-bit value, or a 64-bit register read as in R59. -/
inductive Reg where
  | w (v : Nat)
  | wide (v : Nat)
  deriving DecidableEq, Repr

/-- Registers of the PKG block through die `d`'s range (R57, R68, R422, R455, R64). -/
def pkgReg (s : State) (d o : Nat) : Option Reg :=
  let p := pkgOf s d
  if o = 0x40 then some (.w p.enforce.toNat)
  else if o = 0x44 then some (.w p.inval.toNat)
  else if o = 0x100 then some (.w (p.custody + 2 * b2n p.tiebreak + 4 * b2n p.split + 8 * b2n p.lost0 + 16 * b2n p.lost1 + 65536 * p.changes.toNat))
  else if o = 0x104 then some (.w (b2n p.holdLost))
  else if o = 0x180 then some (.w (p.sysId.toNat + 32 * b2n p.standby + 64 * b2n p.dup + 128 * b2n p.standoff + 256 * deviceRole s +
    2048 * b2n p.acting + 4096 * b2n p.path + 65536 * p.root.toNat + 2 ^ 24 * (if p.path then p.hops.toNat else 0)))
  else if o = 0x184 then some (.w (fld p.reach.toNat 0 31))
  else if o = 0x188 then some (.w (p.epoch.toNat + 256 * p.rootSeq.toNat + 65536 * p.takeovers.toNat))
  else if o = 0x18C then some (.w (p.offset.toNat + 65536 * b2n p.synced))
  else if 0x200 ≤ o && o < 0x300 then
    some (.w (((List.range 32).map (fun b => b2n (tget {} p.pairs (8 * (o - 0x200) + b)).valid * 2 ^ b)).foldl (· + ·) 0))
  else if 0x300 ≤ o && o < 0x400 then
    some (.w (((List.range 32).map (fun b => b2n (tget {} p.pairs (8 * (o - 0x300) + b)).highStandby * 2 ^ b)).foldl (· + ·) 0))
  else if 0x800 ≤ o && o < 0xB00 then
    let w := (o - 0x800) / 4
    some (.w (twinBits (tget {} p.twins (2 * w)) + 65536 * twinBits (tget {} p.twins (2 * w + 1))))
  else if 0x1000 ≤ o && o < 0x2000 then
    let e := tget {} p.windows ((o - 0x1000) / 16)
    let k := o % 16
    some (.w (if k < 8 then fld e.lo.toNat (8 * k) 32 else fld e.hi.toNat (8 * (k - 8)) 32))
  else none

/-- Registers of the DIE block (R49–R53, R73, R423). -/
def dieReg (s : State) (d o : Nat) : Option Reg :=
  let x := s.die d
  if o = 0x00 then some (.w (d + 2 * b2n (s.pkg.custody = d) + 4 * b2n s.pkg.split + 8 * b2n x.isolatesPeer + 16 * b2n x.selfStopped + 0xB100))
  else if o = 0x08 then some (.w (dieUnits s d))
  else if o = 0x10 then some (.w (((List.range 4).map (fun q => regionByte s (4 * d + q) * 256 ^ q)).foldl (· + ·) 0))
  else if o = 0x18 then some (.w 0)
  else if o = 0x20 then some (.w x.violTotal.toNat)
  else if o = 0x30 then some (.w (b2n x.seen + 2 * b2n (isLost s (1 - d)) + 4 * b2n x.wireFault + 65536 * x.losses.toNat))
  else if o = 0x34 then some (.w x.fatal.toNat)
  else if o = 0x38 then some (.w x.ceCount.toNat)
  else if o = 0x3C then some (.w x.ueCount.toNat)
  else if 0x100 ≤ o && o < 0x300 then some (.w (u32 (tget [] x.viol ((o - 0x100) / 32)) ((o - 0x100) % 32)))
  else none

/-- Registers of the CLK, PWR, OTP, ARC, BBX and STW blocks (R486–R488, R343, R425, R387). -/
def clkReg (s : State) (d o : Nat) : Option Reg :=
  let x := s.die d
  if o = 0x00 then some (.w (b2n x.refLost + 2 * b2n (x.power != .rest) + 4 * b2n x.stewardClock + 8 * b2n x.meterRun + 16 * b2n (x.arc.link = 2)))
  else if o = 0x04 then some (.w (((List.range 4).map (fun q =>
    (match (s.region (4 * d + q)).power with | .run => 0 | .doze => 1 | .gated => 2 | .off => 3) * 4 ^ q)).foldl (· + ·) 0))
  else if o = 0x08 then some (.w x.wakes.toNat)
  else if o = 0x0C then some (.w x.wakeMax.toNat)
  else if o = 0x10 then some (.wide s.pilot.toNat)
  else none

def pwrReg (s : State) (d o : Nat) : Option Reg :=
  let x := s.die d
  if o = 0x00 then some (.w ((match x.power with | .run => 0 | .doze => 1 | .rest => 2 | .off => 0) + 16 * x.lastReset.toNat))
  else if o = 0x04 then some (.w 0)
  else if o = 0x08 then some (.w (x.boot.state.toNat + 8 * x.boot.source.toNat + 256 * x.boot.attempts.toNat + 65536 * x.boot.reject.toNat))
  else none

def otpReg (s : State) (d o : Nat) : Option Reg :=
  let x := (s.die d).otp
  if o = 0x00 then some (.w ((if x.skipped then 0 else x.inForce) +
    8 * ((List.range 4).map (fun g => b2n (tget {} x.gens (g + 1)).used * 2 ^ g)).foldl (· + ·) 0 +
    128 * b2n x.skipped + 256 * b2n (!x.rootKey.isEmpty) + 65536 * x.thermo))
  else none

/-- The cluster whose sequencer serves a slot: its own, or the adopting one (R406). -/
def slotServer (s : State) (n : Nat) : Nat :=
  let c := slotCluster n
  if (s.slot n).adopted then (if c < 16 then c + 16 else c - 16) else c

/-- A command of a program of die `d` to a lane of the other die. -/
def npCmd (s : State) (d lane : Nat) (c : LaneCmd) : Bool :=
  c.user.device = 0 && !c.discard && slotServer s c.user.slot / 16 = d && laneDie (servingLane s lane) != d

/-- The forwarded commands of die `d` that the other die has taken in and whose results are not home. -/
def npTaken (s : State) (d : Nat) : Nat :=
  (s.lanes.map (fun e => ((e.2.txn.toList ++ e.2.queue).filter (npCmd s d e.1)).length)).foldl (· + ·) 0 +
  (s.results.filter (fun r => slotServer s r.slot / 16 = d && (match (s.slot r.slot).exec with
    | some e => (match e.members[r.res.pos]? with | some n => laneDie (servingLane s n) != d | none => false)
    | none => false))).length

/-- The reads of host memory that programs of die `d` have outstanding at the other die's port. -/
def npReads (s : State) (d : Nat) : Nat := (s.reads.filter (fun r => slotServer s r.slot / 16 = d && fnPort r.fn != d)).length

/-- The forwarded commands of die `d` that the other die has not taken in. -/
def npWaiting (s : State) (d : Nat) : Nat :=
  (s.clusters.map (fun e => (e.2.inbound.filter (fun x => npCmd s d x.lane x.cmd)).length)).foldl (· + ·) 0

/-- The NP requests of die `d` outstanding across the bridge (R338): at most 64, each with the space for its completion; those beyond
wait. -/
def npOut (s : State) (d : Nat) : Nat := min 64 (npTaken s d + npReads s d + npWaiting s d)

/-- A further NP request of die `d` finds credit and completion space (R338). -/
def npFree (s : State) (d : Nat) : Bool := decide (npTaken s d + npReads s d < 64)

/-- A sender of die `d` holds credit for `n` more bytes in the P channel, whose receiver holds 64 flits of 32 bytes (R336, R337). -/
def pCredit (s : State) (d n : Nat) : Bool := decide ((s.die (1 - d)).arc.pBuf + (n + 31) / 32 ≤ 64)

def arcReg (s : State) (d o : Nat) : Option Reg :=
  let x := (s.die d).arc
  if o = 0x00 then some (.w (x.link.toNat + 4 * b2n x.sideband + 256 * x.cause.toNat))
  else if o = 0x04 then some (.w (npOut s d))
  else if o = 0x08 then some (.w x.replays.toNat)
  else if o = 0x0C then some (.w x.downs.toNat)
  else if o = 0x10 then some (.wide x.downTime.toNat)
  else if o = 0x18 then some (.wide x.tx.toNat)
  else if o = 0x20 then some (.wide x.rx.toNat)
  else none

def bbxReg (s : State) (d o : Nat) : Option Reg :=
  let x := (s.die d).bbx
  if o = 0x00 then some (.w (x.newest.toNat + 4096 * b2n x.frozen + 8192 * b2n x.wrapped + 16384 * b2n (!x.written) + 65536 * x.cause.toNat))
  else if o = 0x04 then some (.w 0)
  else if o = 0x08 then some (.w x.trigger.toNat)
  else if o = 0x0C then some (.w (x.savedRecords + 8192 * b2n x.restored))
  else if o = 0x10 then some (.w x.dropped.toNat)
  else none

/-- The state code of a context (R382). -/
def ctxCode : CtxState → Nat
  | .empty => 0
  | .loaded => 1
  | .running => 2
  | .waiting => 3
  | .faulted => 4

/-- User context `c` of a steward pair is context code 2 + c (R350). -/
def userCtx (x : Core) (c : Nat) : Ctx := tget {} x.ctxs (2 + c)

def stwReg (s : State) (d o : Nat) : Option Reg :=
  let x := (s.die d).stw
  if o = 0x00 then some (.w (x.pair.toNat + 16 * x.core.running + 256 * b2n x.emask + 512 * b2n x.bpbar))
  else if o = 0x04 then some (.w x.rollbacks.toNat)
  else if o = 0x08 then
    let used (f : Ctx → Nat) := ((List.range 8).map (fun c => f (userCtx x.core c))).foldl (· + ·) 0
    some (.w ((8192 - used (·.codeLen)) + 65536 * (4096 - used (fun c => (c.dataLen + 63) / 64))))
  else if 0x100 ≤ o && o < 0x200 then
    let c := userCtx x.core ((o - 0x100) / 32)
    match (o - 0x100) % 32 with
    | 0 => some (.w (ctxCode c.st + 16 * c.loader + 256 * c.fault.toNat))
    | 4 => some (.w (fld c.pc 0 12))
    | 8 => some (.w c.submits.toNat)
    | 16 => some (.wide c.cycles.toNat)
    | _ => none
  else none

/-- Registers of the VTX block (R202, R203). -/
def vtxReg (s : State) (d o : Nat) : Option Reg :=
  if o < 0x40 then some (.w (tget 0 s.fvCfg (16 * d + o / 4)).toNat)
  else if o < 0x70 then some (.w (tget 0 s.pinPol (12 * d + (o - 0x40) / 4)).toNat)
  else if o = 0x80 then some (.w (s.die d).conflicts.toNat)
  else if o = 0x84 then some (.w (s.chords.filter (fun e => chordDie e.1 = d && e.2.st != .disarmed)).length)
  else if 0x100 ≤ o && o < 0x200 then
    some (.w (((List.range 32).map (fun b => b2n (s.level (8 * (o - 0x100) + b)) * 2 ^ b)).foldl (· + ·) 0))
  else if 0x200 ≤ o && o < 0x300 then
    let t := s.timer (16 * d + (o - 0x200) / 16)
    match (o - 0x200) % 16 with
    | 0 => some (.w (b2n t.run + 2 * b2n t.periodic))
    | 4 => some (.w t.period.toNat)
    | 8 => some (.w t.left.toNat)
    | _ => none
  else none

/-- A target's private bank (R312). -/
def evcBank (s : State) (t o : Nat) : Option Reg :=
  let g := s.target t
  let int := g.ready && g.head != g.tail
  if o = 0x00 then some (.wide g.base.toNat)
  else if o = 0x08 then some (.w (g.sizeLog2 + 16 * b2n g.live + 32 * b2n (t < 8 && g.live && !masters s t)))
  else if o = 0x0C then some (.w (g.tail + 4096 * b2n g.phase))
  else if o = 0x10 then some (.w g.head)
  else if o = 0x14 then some (.w (b2n g.ready + 2 * b2n int + 4 * b2n g.masked))
  else if o = 0x18 then some (.w 0)
  else if o = 0x1C then some (.w g.merged.toNat)
  else if o = 0x20 then some (.w g.stalls.toNat)
  else if 0x40 ≤ o && o < 0x80 then some (.w (tget 0x00010100 g.mods ((o - 0x40) / 4)).toNat)
  else if 0x80 ≤ o && o < 0xA0 then
    some (.w (((List.range 32).map (fun b => b2n (!tget false g.disabled (8 * (o - 0x80) + b)) * 2 ^ b)).foldl (· + ·) 0))
  else if 0xA0 ≤ o && o < 0xC0 then
    some (.w (((List.range 32).map (fun b =>
      let n := 8 * (o - 0xA0) + b
      b2n ((tget none g.pend n).isSome || !(tget {} g.notices n).q.isEmpty) * 2 ^ b)).foldl (· + ·) 0))
  else none

/-- The 32-bit view of EVC_ROUTE (R313): the value written last, with PENDING. -/
def routeReg (x : Shared) : Nat :=
  match x.next with
  | none => x.route.toNat
  | some r => putN (putN r.toNat 6 1 (b2n (routeOn x))) 31 1 1

/-- Registers of the EVC block of die `d` (R313); sources homed on the other die read 0. -/
def evcReg (s : State) (d o : Nat) : Option Reg :=
  let bits (base : Nat) (f : Nat → Bool) :=
    some (Reg.w (((List.range 32).map (fun b => b2n (sourceDie (base + b) = d && f (base + b)) * 2 ^ b)).foldl (· + ·) 0))
  if o < 0x800 then some (.w (if sourceDie (256 + o / 4) = d then routeReg (s.source (256 + o / 4)) else 0))
  else if o < 0x880 then some (.w (tget 0x00010100 (s.die d).smod (16 + (o - 0x800) / 4)).toNat)
  else if 0x900 ≤ o && o < 0x940 then bits (256 + 8 * (o - 0x900)) (fun n => (s.source n).pend.isSome)
  else if 0x940 ≤ o && o < 0x980 then bits (256 + 8 * (o - 0x940)) (fun n => (s.source n).inService)
  else if 0x1000 ≤ o && o < 0x2000 then evcBank s (8 + d) (o - 0x1000)
  else none

/-- Registers of a meter (R250, R251); `m` is the package number. -/
def mtrReg (s : State) (m o : Nat) : Option Reg :=
  let x := s.meter m
  if o < 0x20 then some (.w (u32 x.settings o))
  else if o < 0x40 then some (.w (u32 (if o = 0x20 || x.latch.isEmpty then snapRead s m else x.latch) (o - 0x20)))
  else if o = 0x40 then some (.w 0)
  else if o = 0x44 then some (.w (x.owner + 16 * b2n x.next.isSome + 32 * b2n x.trip0 + 64 * b2n x.trip1 +
    128 * b2n (s.level (928 + m))))
  else none

/-- Registers of the SNS block (R234, R235). -/
def snsReg (s : State) (d o : Nat) : Option Reg :=
  if o < 0x2000 then
    let x := s.input (32 * d + o / 256)
    match o % 256 with
    | 0x00 => some (.w x.gain.toNat)
    | 0x04 => some (.w x.offset.toNat)
    | 0x08 => some (.w x.win0.reg.toNat)
    | 0x0C => some (.w x.win1.reg.toNat)
    | 0x10 => some (.w (x.code.toNat + 4096 * b2n x.clip + 65536 * x.seq.toNat))
    | 0x14 => some (.w x.value.toNat)
    | 0x18 => some (.w x.fault.toNat)
    | _ => none
  else if o = 0x2000 then some (.w (2 * b2n (s.die d).calBusy))
  else if 0x2010 ≤ o && o < 0x2020 then some (.w (tget 0 (s.die d).adcRef ((o - 0x2010) / 4)).toNat)
  else if o = 0x2040 then some (.w (metersOn s d + 128 * b2n (s.die d).meterRun))
  else if o = 0x2044 then some (.w (s.die d).passes.toNat)
  else none

/-- Registers of a link port and the table of link vertices (R456, R457); `p` is the package number. -/
def lnkReg (s : State) (d p o : Nat) : Option Reg :=
  let x := s.port p
  if o = 0x00 then some (.w (match x.cfgNew with | some c => putN c.toNat 0 1 (wf x.cfg 0 1) | none => x.cfg.toNat))
  else if o = 0x04 then some (.w (portCode x.st + 8 * roleCode x.role + 256 * x.peerId.toNat + 8192 * x.peerHops.toNat + 32768 * b2n x.peerAttached))
  else if o = 0x08 then some (.w x.delay.toNat)
  else if o = 0x0C then some (.w x.replays.toNat)
  else if o = 0x10 then some (.w x.downs.toNat)
  else if o = 0x18 then some (.wide x.downTime.toNat)
  else if 0x1000 ≤ o && o < 0x1100 && p % 2 = 0 then
    let a := tget {} s.pkg.aliases (64 * d + (o - 0x1000) / 4)
    some (.w (a.vertex.toNat + 65536 * a.source.toNat + 2 ^ 24 * b2n a.valid + 2 ^ 25 * b2n a.live))
  else none

/-- The function registers (R259, R260). -/
def fnReg (s : State) (f o : Nat) : Option Reg :=
  let x := s.func f
  if o = 0x00 then some (.w (f + 8 * b2n (f = 0) + 16 * fnPort f + 256 * (s.die (fnPort f)).boot.level.toNat + 0xB10000))
  else if o = 0x04 then some (.w x.caps.toNat)
  else if o = 0x08 then some (.w (b2n x.ready + 2 * b2n s.pkg.split + 4 * b2n s.pkg.activating.isSome + 8 * b2n ((s.queue f 0).st = .error)))
  else if o = 0x10 then some (.wide x.adminBase.toNat)
  else if o = 0x18 then some (.wide x.adminMirror.toNat)
  else if o = 0x20 then some (.w (match x.adminNew with
    | some v => putN v.toNat 1 1 1
    | none => x.adminCtrl.toNat))
  else if 0x400 ≤ o && o < 0x800 then (if o % 8 = 0 then some (.wide (fnQState s f ((o - 0x400) / 8))) else none)
  else none

/-- The queue registers (R261). -/
def queReg (s : State) (f q o : Nat) : Option Reg :=
  let x := s.queue f q
  let v (n : Nat) := if x.st = .absent then 0 else n
  if o = 0x00 then some (.wide (v x.ring.toNat))
  else if o = 0x08 then some (.wide (v x.mirror.toNat))
  else if o = 0x10 then some (.w (v (b2n x.variable_ + 2 * b2n x.notify + 4 * x.sizeLog2)))
  else if o = 0x14 then some (.w (v (qCode x.st + 256 * x.reason.toNat + 65536 * x.index)))
  else if o = 0x18 then some (.w (v (x.head + 65536 * x.tail)))
  else if o = 0x1C then some (.w (v (x.fetch + 65536 * (x.flight.filter (fun e => !e.done)).length)))
  else if o = 0x20 then some (.w (v x.completed.toNat))
  else none

/-- Registers of region `r`: its RGN, ARB and XFR blocks (R424, R334, R324). -/
def rgnReg (s : State) (r o : Nat) : Option Reg :=
  let x := s.region r
  if o = 0x100 then some (.w x.ceCount.toNat)
  else if o = 0x104 then some (.w x.ueCount.toNat)
  else if o = 0x108 then some (.w (x.rows + ((List.range 4).map (fun i => (s.cluster (4 * r + i)).rows * 2 ^ (8 + 4 * i))).foldl (· + ·) 0))
  else if o = 0x10C then some (.w x.errLast.toNat)
  else none

def arbReg (s : State) (r o : Nat) : Option Reg :=
  let a := (s.region r).arb
  if o = 0x00 then some (.w a.cfg.toNat)
  else if o = 0x04 then some (.w 0)
  else if o = 0x08 then some (.w a.dead.toNat)
  else if o = 0x0C then some (.w a.preempts.toNat)
  else if 0x40 ≤ o && o < 0xA0 then some (.w (arbPrio a ((o - 0x40) / 4)).toNat)
  else if 0x100 ≤ o && o < 0x280 then
    let q := (o - 0x100) / 16
    match o % 16 with
    | 0 => some (.w (tget 0 a.grants q).toNat)
    | 4 => some (.w (tget 0 a.maxWait q))
    | 8 => some (.wide (tget 0 a.waitCycles q))
    | _ => none
  else none

/-- The state code of a direct channel (R325). -/
def xfrCode : XfrState → Nat
  | .idle => 0
  | .running => 1
  | .done => 2
  | .error => 3

def xfrReg (s : State) (ch o : Nat) : Option Reg :=
  let x := s.xfr ch
  if o = 0x00 then some (.wide x.src.toNat)
  else if o = 0x08 then some (.wide x.dst.toNat)
  else if o = 0x10 then some (.w x.count.toNat)
  else if o = 0x14 then some (.w (if x.disable then putN x.cfg.toNat 31 1 0 else x.cfg.toNat))
  else if o = 0x18 then some (.w 0)
  else if o = 0x1C then some (.w (xfrCode x.st + 16 * x.code.toNat))
  else if o = 0x20 then some (.w x.done.toNat)
  else if o = 0x24 then some (.w x.check.toNat)
  else if o = 0x28 then some (.w x.wraps.toNat)
  else none

/-- The slot that CLU registers show as slot `i` of cluster `c`: 64 and up are adopted slots (R152). -/
def cluSlot (s : State) (c i : Nat) : Slot :=
  let show_ (n : Nat) (adopted : Bool) : Slot := if (s.slot n).adopted = adopted then s.slot n else {}
  if i < 64 then show_ (64 * c + i) false
  else match (s.cluster c).adopts with
    | some l => show_ (64 * l + (i - 64)) true
    | none => {}

/-- Registers of a cluster (R25, R152–R155). -/
def cluReg (s : State) (c o : Nat) : Option Reg :=
  let x := s.cluster c
  let slotReg (i k : Nat) : Option Reg :=
    let y := cluSlot s c i
    match k with
    | 0 => some (.w (slotState y))
    | 8 => some (.wide (if y.st = .free then 0 else y.ccw.toNat))
    | 16 => some (.w (slotWait y))
    | _ => none
  if o = 0x00 then some (.w ((match x.voltsNew with | some v => v.toNat | none => x.volts.toNat) + 4 * x.measured.toNat +
    16 * b2n x.bankFault + 32 * b2n x.voltsNew.isSome))
  else if o = 0x40 then some (.w (match x.schedNew with | some w => w.toNat | none => x.sched.toNat))
  else if o = 0x44 then some (.w (x.admits.length + 65536 * slotsInUse s c false + 2 ^ 23 * x.chords.length))
  else if o = 0x48 then some (.w x.stale.toNat)
  else if o = 0x4C then some (.w (match x.adopts with
    | some l => if !isLost s (l / 16) && slotsInUse s l true = 0 && x.lostAdmit.isEmpty then 0
      else 1 + 2 * l + 256 * slotsInUse s l true + 65536 * x.lostAdmit.length
    | none => 0))
  else if 0x800 ≤ o && o < 0x1000 then slotReg ((o - 0x800) / 32) ((o - 0x800) % 32)
  else if 0x2000 ≤ o && o < 0x2800 then slotReg (64 + (o - 0x2000) / 32) ((o - 0x2000) % 32)
  else none

/-- The value software reads of an IDLE-class lane register: the shadow where one waits (R69). -/
def laneShadow (l : Lane) (o : Nat) (v : Word) : Nat :=
  match tget none l.shadow o with | some w => w.toNat | none => v.toNat

/-- The lane runs frame mode, so offsets 0x60 and 0x68 are its frame shapes 2 and 3 and not LANE_TGT and LANE_NOTIFY:
R166 gives both pairs one offset (log 20). -/
def isFrame (l : Lane) : Bool := personality l = 0xC

/-- Registers of a lane (R166). -/
def laneReg (s : State) (n o : Nat) : Option Reg :=
  let l := s.lane n
  if o = 0x00 then some (.w (laneShadow l 0 l.cfg))
  else if o = 0x04 then some (.w l.pins.toNat)
  else if o = 0x08 then some (.w (laneShadow l o l.timing))
  else if o = 0x0C then some (.w (laneShadow l o l.timeout))
  else if o = 0x10 then some (.w (laneShadow l o l.opt))
  else if o = 0x14 then some (.w l.fifo.toNat)
  else if o = 0x20 then some (.w (laneStatus s n))
  else if o = 0x24 then some (.w l.err.toNat)
  else if o = 0x28 then some (.w l.count.toNat)
  else if o = 0x30 then some (.w l.pwm.toNat)
  else if o = 0x40 then some (.w (laneShadow l o l.frmCfg))
  else if o = 0x44 then some (.w (laneShadow l o l.frmPre))
  else if o = 0x60 && !isFrame l then some (.w l.tgt.toNat)
  else if o = 0x68 && !isFrame l then some (.w l.notify.toNat)
  else if 0x50 ≤ o && o < 0x70 then
    some (.w (if o % 8 = 0 then laneShadow l o (tget 0 l.frmShape ((o - 0x50) / 8)) else laneShadow l o (tget 0 l.frmAck ((o - 0x54) / 8))))
  else none

/-- Registers of a chord (R226, R227). -/
def chdReg (s : State) (n o : Nat) : Option Reg :=
  let c := s.chord n
  if o = 0x00 then some (.w (chordState c))
  else if o = 0x04 then some (.w 0)
  else if o = 0x08 then some (.w c.firings.toNat)
  else if o = 0x0C then some (.w c.suppressed.toNat)
  else if o = 0x10 then some (.w c.claimsLost.toNat)
  else if o = 0x18 then some (.wide c.fireTime.toNat)
  else if o = 0x20 then some (.w c.fireInfo.toNat)
  else if o = 0x24 then some (.w c.fireEnd.toNat)
  else if o = 0x28 then some (.wide c.fireLast.toNat)
  else if 0x80 ≤ o && o < 0x100 then some (.w (if c.st = .disarmed then 0 else u32 c.record (o - 0x80)))
  else none

/-! ### The port space and BAR0 -/

/-- The register at an offset below 4 MiB region windows: package and die blocks (R56). -/
def dieBlockReg (s : State) (d off : Nat) : Option Reg :=
  if off < 0x2000 then pkgReg s d off
  else if off < 0x3000 then dieReg s d (off - 0x2000)
  else if off < 0x4000 then clkReg s d (off - 0x3000)
  else if off < 0x5000 then pwrReg s d (off - 0x4000)
  else if off < 0x6000 then otpReg s d (off - 0x5000)
  else if off < 0x7000 then arcReg s d (off - 0x6000)
  else if off < 0x8000 then bbxReg s d (off - 0x7000)
  else if off < 0x10000 then stwReg s d (off - 0x8000)
  else if off < 0x20000 then vtxReg s d (off - 0x10000)
  else if off < 0x30000 then evcReg s d (off - 0x20000)
  else if off < 0x34000 then mtrReg s (64 * d + (off - 0x30000) / 256) (off % 256)
  else if off < 0x40000 then snsReg s d (off - 0x34000)
  else if off < 0x50000 then lnkReg s d (2 * d + (off - 0x40000) / 0x8000) (off % 0x8000)
  else if off < 0x60000 then
    let o := (off - 0x50000) % 0x4000
    if o < 0x1000 then fnReg s (4 * d + (off - 0x50000) / 0x4000) o else none
  else if 0x80000 ≤ off then queReg s (4 * d + (off - 0x80000) / 0x20000) (off % 0x20000 / 0x400) (off % 0x400)
  else none

/-- The register at offset `o` of the window of local region `q` of die `d` (R56). -/
def regionBlockReg (s : State) (d q o : Nat) : Option Reg :=
  let r := 4 * d + q
  let i := o / 0x40000
  let k := o % 0x40000
  let c := 4 * r + i
  if k < 0x1000 || (0x2000 ≤ k && k < 0x2800) then cluReg s c k
  else if k < 0x1C00 then laneReg s (12 * c + (k - 0x1000) / 256) (k % 256)
  else if 0x20000 ≤ k && k < 0x28000 then chdReg s (128 * c + (k - 0x20000) / 256) (k % 256)
  else if 0x30000 ≤ o && o < 0x31000 then rgnReg s r (o - 0x30000)
  else if 0x31000 ≤ o && o < 0x32000 then arbReg s r (o - 0x31000)
  else if 0x32000 ≤ o && o < 0x33000 then xfrReg s (16 * r + (o - 0x32000) / 256) (o % 256)
  else none

/-- The register at port-space offset `off` of die `d`. -/
def portReg (s : State) (d off : Nat) : Option Reg :=
  if off < 0x100000 then dieBlockReg s d off
  else if off < 0x500000 then regionBlockReg s d ((off - 0x100000) / 0x100000) (off % 0x100000)
  else none

/-- What a 32-bit read at `off` returns (R56, R59, R72): an unmapped or private address reads 0; the high dword of a
64-bit register returns what the last read of its low dword latched. -/
def portRead (s : State) (d off : Nat) : Word :=
  match portReg s d off with
  | some (.w v) => w32 v
  | some (.wide v) => w32 v
  | none => match portReg s d (off - 4) with
    | some (.wide _) => tget 0 (s.die d).latches off
    | _ => 0

/-- Whether `off` lies in a mapped register, the high dword of a wide one included. -/
def portMapped (s : State) (d off : Nat) : Bool :=
  (portReg s d off).isSome || (match portReg s d (off - 4) with | some (.wide _) => true | _ => false)

/-- The RC registers of a die block cleared by a read (R8). -/
def clearOnRead (s : State) (d off : Nat) : State :=
  if off = 0x2038 then s.modDie d (fun x => { x with ceCount := 0 })
  else if off = 0x203C then s.modDie d (fun x => { x with ueCount := 0 })
  else if off = 0x300C then s.modDie d (fun x => { x with wakeMax := 0 })
  else if off = 0x6008 then s.modDie d (fun x => { x with arc := { x.arc with replays := 0 } })
  else if off = 0x7010 then s.modDie d (fun x => { x with bbx := { x.bbx with dropped := 0 } })
  else if off = 0x10080 then s.modDie d (fun x => { x with conflicts := 0 })
  else if off = 0x2101C then s.modTarget (8 + d) (fun g => { g with merged := 0 })
  else if off = 0x21020 then s.modTarget (8 + d) (fun g => { g with stalls := 0 })
  else if off = 0x4000C || off = 0x4800C then s.modPort (2 * d + (off - 0x40000) / 0x8000) (fun p => { p with replays := 0 })
  else if 0x100000 ≤ off && off < 0x500000 then
    let r := 4 * d + (off - 0x100000) / 0x100000
    let o := off % 0x100000
    let c := 4 * r + o / 0x40000
    let k := o % 0x40000
    if o = 0x30100 then s.modRegion r (fun x => { x with ceCount := 0 })
    else if o = 0x30104 then s.modRegion r (fun x => { x with ueCount := 0 })
    else if k = 0x48 then s.modCluster c (fun x => { x with stale := 0 })
    else if 0x1000 ≤ k && k < 0x1C00 && k % 256 = 0x68 && !isFrame (s.lane (12 * c + (k - 0x1000) / 256)) then
      s.modLane (12 * c + (k - 0x1000) / 256) (fun l => { l with notify := 0 })
    else s
  else s

/-- The effect of a 32-bit read: a read of a low dword latches the high part (R59), a read of MTR_SNAP0 latches the
snapshot (R251), a read of an RC register clears it (R8). -/
def portReadEffect (s : State) (d off : Nat) : State :=
  if 0x30000 ≤ off && off < 0x34000 && off % 256 = 0x20 then
    s.modMeter (64 * d + (off - 0x30000) / 256) (fun m => { m with latch := snapRead s (64 * d + (off - 0x30000) / 256) })
  else match portReg s d off with
    | some (.wide v) => s.modDie d (fun x => { x with latches := tset 0 x.latches (off + 4) (w32 (v / 2 ^ 32)) })
    | _ => clearOnRead s d off

/-- What a read at `o` of the private bank of target `t` returns (R54, R59, R312). -/
def bankRead (s : State) (t o : Nat) : Word :=
  match evcBank s t o with
  | some (.w v) => w32 v
  | some (.wide v) => w32 v
  | none => if o = 0x04 then (s.target t).latch else 0

/-- The effect of a read of the private bank of a function (R8, R59): the base's high dword is latched, an RC counter cleared. -/
def bankReadEffect (s : State) (t o : Nat) : State :=
  if o = 0x00 then s.modTarget t (fun g => { g with latch := w32 (g.base.toNat / 2 ^ 32) })
  else if o = 0x1C then s.modTarget t (fun g => { g with merged := 0 })
  else if o = 0x20 then s.modTarget t (fun g => { g with stalls := 0 })
  else s

/-- The port-space offset of what lies at BAR0 offset `off` of function `f`: only the FN registers have one (R54, R56). -/
def bar0Port (f off : Nat) : Nat := if off < 0x1000 then 0x50000 + 0x4000 * (f % 4) + off else off

/-- What a 32-bit read through BAR0 of function `f` returns (R54, R59, R72): a doorbell reads 0. -/
def bar0Read (s : State) (f off : Nat) : Word :=
  let g := s.target f
  if off < 0x1000 then portRead s (fnPort f) (bar0Port f off)
  else if 0x2000 ≤ off && off < 0x2040 then w32 (leNat ((List.range 4).map (fun i => tget 0 (s.func f).mailbox (off - 0x2000 + i))))
  else if 0x3000 ≤ off && off < 0x4000 then bankRead s f (off - 0x3000)
  else if off = 0x8000 then w32 g.msgAddr.toNat
  else if off = 0x8004 then w32 (g.msgAddr.toNat / 2 ^ 32)
  else if off = 0x8008 then g.msgData
  else if off = 0x800C then w32 (b2n g.masked)
  else if off = 0x9000 then w32 (b2n g.msixPending)
  else 0

/-- The effect of a 32-bit read through BAR0. -/
def bar0ReadEffect (s : State) (f off : Nat) : State :=
  if off < 0x1000 then portReadEffect s (fnPort f) (bar0Port f off)
  else if 0x3000 ≤ off && off < 0x4000 then bankReadEffect s f (off - 0x3000)
  else s

/-- Reads `n` dwords from `off`, in order, with their effects. -/
def portReadN (s : State) (d off : Nat) : Nat → List Byte × State
  | 0 => ([], s)
  | n + 1 =>
    let v := portRead s d off
    let (rest, t) := portReadN (portReadEffect s d off) d (off + 4) n
    (leBytes 4 v.toNat ++ rest, t)

end Sys2Proof.Machine
end

