-- ==== Sys2Proof/Machine/Access.lean ====
section
/-! DEFINITION. Channel addresses (R60–R66), the checks made before every access in their fixed order (R144), and
the accesses themselves: host memory, region SRAM, port space and black-box records. -/

namespace Sys2Proof.Machine

/-- The party that makes an access: its function, the chord whose follow-on chain it is, its body-chain tile,
whether windows are enforced for it, and the die and region it runs in. -/
structure Party where
  fn : Nat
  chord : Option Nat
  body : Option Nat
  enforce : Bool
  die : Nat
  region : Nat
  deriving DecidableEq, Repr

/-- What a read gives: bytes, or the failure that ends the accessing command. -/
inductive Got where
  | ok (bs : List Byte)
  | bad (f : Fail)
  deriving DecidableEq, Repr

/-- The program in a slot as a party. -/
def partyOf (s : State) (n : Nat) : Party :=
  let x := s.slot n
  let c := slotServer s n
  { fn := x.fn, chord := match x.owner with | .chord k => some k | _ => none, body := x.body, enforce := x.enforce
    die := c / 16, region := c / 4 }

/-- The party is the chain of a chord with PERSIST, which no reset of its function stops (R148). -/
def persistParty (s : State) (p : Party) : Bool :=
  match p.chord with
  | some c => recPersist (s.chord c).record
  | none => false

/-- A function as a party on the die of its port: entry fetches, completions and event records (R266, R303). The manual names no
region whose window cache serves these checks: local region 0 of the die does (DESIGN CHOICE, log 70). -/
def fnParty (s : State) (f : Nat) : Party :=
  { fn := f, chord := none, body := none, enforce := wb s.pkg.enforce f, die := fnPort f, region := 4 * fnPort f }

/-! ### Address form and blocks (R60, R61) -/

/-- An on-chip address. -/
def onChip (a : Nat) : Bool := 2 ^ 63 ≤ a
/-- Its die. -/
def chipDie (a : Nat) : Nat := fld a 27 1
/-- Its block. -/
def chipBlock (a : Nat) : Nat := fld a 24 3
/-- Its offset within the block. -/
def chipOff (a : Nat) : Nat := fld a 0 24
/-- Its region, for blocks 0–3. -/
def chipRegion (a : Nat) : Nat := 4 * chipDie a + chipBlock a

/-- The valid offsets of a block end here; block 5 has none stated and block 7 none (R61). -/
def blockEnd (b : Nat) : Nat := if b < 4 then 0x200000 else if b = 4 then 0x800000 else if b = 5 then 2 ^ 24 else if b = 6 then 0x20000 else 0

/-- Address form and block range (R60, R61, order 2 of R144). -/
def formFail (a n : Nat) : Option Fail :=
  if onChip a then
    if fld a 28 35 != 0 || 2 ^ 64 ≤ a || blockEnd (chipBlock a) < chipOff a + n then some badAddress else none
  else if 2 ^ 63 < a + n then some badAddress else none

/-- The alignment rule of block 4 (R61, order 1 of R144). -/
def portAlignFail (a n : Nat) : Option Fail :=
  if onChip a && chipBlock a = 4 && (a % 4 != 0 || n % 4 != 0) then some dataAlign else none

/-- A host range that meets a BAR of some function (R63). -/
def barHit (s : State) (a n : Nat) : Bool :=
  !onChip a && (List.range 8).any (fun f =>
    (match (s.func f).bar0 with | some b => decide (a < b.toNat + 0x10000) && decide (b.toNat < a + n) | none => false) ||
    (match (s.func f).bar2 with | some b => decide (a < b.toNat + 0x2000000) && decide (b.toNat < a + n) | none => false))

/-! ### Tiles (R27, R214) -/

/-- The tile of region offset `o`. -/
def tileOf (r o : Nat) : Nat := 512 * r + o / 4096

/-- The tile a chord's follow-on chain lies in (R214), when it has one and the chord is not DISARMED. -/
def chordTile (c : Chord) : Option Nat :=
  let a := recChain c.record
  if c.st = .disarmed || a = 0 then none else some (tileOf (chipRegion a) (chipOff a))

/-- The chords whose arming seals tile `t` (R214). -/
def sealers (s : State) (t : Nat) : List Nat := (s.chords.filter (fun e => chordTile e.2 = some t)).map Prod.fst

/-- Whether the party may use tile `t` (R27, R61, R214): its owner (party 8 is steward firmware, R320), a follow-on chain of a chord that sealed it, or the
program whose body chain it holds. -/
def tileAllowed (s : State) (p : Party) (t : Nat) : Bool :=
  p.body = some t || (match (s.tile t).owner with
  | .fn f => f = p.fn
  | .pool => false
  | .steward => p.fn = 8
  | .device => match p.chord with | some c => (sealers s t).contains c | none => false)

/-- Where a party's region offset lies once the half is lost (R407, R409): a mirrored body chain in the partner
region, an adopted follow-on chain's sealed tile in its standby's tile. -/
def redirect (s : State) (p : Party) (r o : Nat) : Nat × Nat :=
  if !isLost s (r / 4) then (r, o)
  else
    let t := tileOf r o
    if p.body = some t then ((r + 4) % 8, o + 4 * 4096)
    else match p.chord with
      | some c =>
        let twin := s.chord ((c + 2048) % 4096)
        if chordTile (s.chord c) = some t && recChain twin.record != 0 then
          (chipRegion (recChain twin.record), chipOff (recChain twin.record) / 4096 * 4096 + o % 4096)
        else (r, o)
      | none => (r, o)

/-- Where tile data lies after a remap (R396). -/
def physOff (s : State) (r o : Nat) : Nat :=
  match (s.tile (tileOf r o)).remap with
  | some t => t % 512 * 4096 + o % 4096
  | none => o

/-- The tiles a range of a region touches. -/
def tilesOf (r o n : Nat) : List Nat := if n = 0 then [] else rangeL (tileOf r o) ((o + n - 1) / 4096 - o / 4096 + 1)

/-- Block rights and tile ownership (order 4 of R144). -/
def rightsFail (s : State) (p : Party) (a n : Nat) (write : Bool) : Option Fail :=
  if !onChip a then (if p.fn < 8 then none else some blockRights)
  else if chipBlock a < 4 then
    if (tilesOf (chipRegion a) (chipOff a) n).all (fun t => tileAllowed s p t) then none else some tileOwner
  else if chipBlock a = 4 then (if p.fn = 0 || p.fn = 8 then none else some blockRights)
  else if chipBlock a = 6 then (if (p.fn = 0 || p.fn = 8) && !write then none else some blockRights)
  else if p.fn = 8 then none else some blockRights

/-! ### Windows (R64–R67) -/

/-- Entry `e` grants function `f` the right in bit `right` over the range. -/
def winGrants (e : WinEntry) (f a n right : Nat) : Bool :=
  wb e.lo 0 && wb e.lo right && wf e.lo 4 3 = f && decide (fld e.lo.toNat 12 52 * 4096 ≤ a) &&
  decide (a + n ≤ (fld e.hi.toNat 12 52 + 1) * 4096)

/-- The right bits of a window entry. -/
abbrev rightRead : Nat := 1
abbrev rightWrite : Nat := 2
abbrev rightFetch : Nat := 3

/-- The window check of region `r` (R66) against the PKG block as its half holds it (R57). A region may go on using a cached entry
after it is rewritten, with no time limit (R67): where the two versions differ, a free bit says which one it uses (log 9). An entry
that grants is cached, 16 at most: the manual does not say which one a full cache evicts, and the one cached longest ago goes
(DESIGN CHOICE, log 70). -/
def windowCheck (s : State) (r f a n right : Nat) : Bool × State :=
  let cache := (s.region r).cache
  let stale := cache.any (fun e => e.2 != tget {} (pkgOf s (r / 4)).windows e.1)
  let (old, s) := if stale then s.freeBit else (true, s)
  let inCache := fun (i : Nat) => cache.any (fun e => e.1 = i && e.2 != tget {} (pkgOf s (r / 4)).windows i)
  let hitOld := cache.find? (fun e => (old || e.2 = tget {} (pkgOf s (r / 4)).windows e.1) && winGrants e.2 f a n right)
  let hitNew := (pkgOf s (r / 4)).windows.find? (fun e => !(old && inCache e.1) && winGrants e.2 f a n right)
  match hitOld with
  | some _ => (true, s)
  | none => match hitNew with
    | some e => (true, s.modRegion r (fun x => { x with cache := (e :: x.cache.filter (fun c => c.1 != e.1)).take 16 }))
    | none => (false, s)

/-- The window check of order 5 of R144, with its violation record on the party's die. -/
def windowFail (s : State) (p : Party) (a n right : Nat) : Option Fail × State :=
  if onChip a || !p.enforce then (none, s)
  else
    let (ok, s) := windowCheck s p.region p.fn a n right
    if ok then (none, s) else (some windowMiss, violate s p.die vWindowMiss (.fn p.fn) a 0 0)

/-- The checks of R144 after alignment, in order; only the first failure is reported. -/
def accessFail (s : State) (p : Party) (a n right : Nat) : Option Fail × State :=
  if n = 0 then (none, s)
  else match portAlignFail a n with
    | some f => (some f, s)
    | none => match formFail a n with
      | some f => (some f, s)
      | none =>
        if barHit s a n then (some barSelf, s)
        else match rightsFail s p a n (right = rightWrite) with
          | some f => (some f, s)
          | none => windowFail s p a n right

/-- Whether the party's accesses to its function's host memory can be made (R133, R148, R255). -/
def hostOpen (s : State) (p : Party) : Bool := reaches s p.die p.fn && masters s p.fn && !(s.func p.fn).inReset

/-! ### Region SRAM (R344–R346) -/

/-- The first poisoned word of the range, at which a read fails (R345). -/
def poisonAt (s : State) (r o n : Nat) : Option Nat :=
  ((rangeL o n).map (fun i => physOff s r i / 8)).find? (fun w => s.ecc.contains (.regionSram, r, w))

/-- Bytes of region SRAM. -/
def sramRead (s : State) (r o n : Nat) : List Byte := (rangeL o n).map (fun i => memRead (s.region r).sram (physOff s r i))

/-- Logs an error found at a word of region SRAM: the count and RGN_ERR_LAST (R424). -/
def logSramError (s : State) (r word : Nat) (ue poison : Bool) : State :=
  s.modRegion r (fun x => { x with
    ceCount := if ue then x.ceCount else sat x.ceCount
    ueCount := if ue && !poison then sat x.ueCount else x.ueCount
    errLast := w32 (32 * b2n ue + 64 * b2n poison + 256 * word) })

/-- Stores bytes in region SRAM: a word that the store covers whole loses its POISON, a word covered in part keeps it
and the error is logged (R345). -/
def sramWrite (s : State) (r o : Nat) (bs : List Byte) : State :=
  let s := (enumL o bs).foldl (fun s e =>
    s.modRegion r (fun x => { x with sram := tset 0 x.sram (physOff s r e.1) e.2 })) s
  let n := bs.length
  let covers (w : Nat) : Bool := (List.range 8).all (fun k => (rangeL o n).any (fun i => physOff s r i = 8 * w + k))
  let hit := s.ecc.filter (fun e => e.1 = .regionSram && e.2.1 = r && (rangeL o n).any (fun i => physOff s r i / 8 = e.2.2))
  hit.foldl (fun s e => if covers e.2.2 then { s with ecc := s.ecc.filter (· != e) } else logSramError s r e.2.2 true true) s

/-! ### Steward SRAM (R344, R345, R361) -/

/-- The word of steward SRAM that a byte of instruction or data space lies in: instruction space first (log 35). -/
def stwWord (data : Bool) (a : Nat) : Nat := (if data then 32768 else 0) + a / 8

/-- A range of a steward's SRAM holds POISON. -/
def stwPoisoned (s : State) (d : Nat) (data : Bool) (a n : Nat) : Bool :=
  s.ecc.any (fun e => e.1 = .stewardSram && e.2.1 = d && decide (stwWord data a ≤ e.2.2) && decide (e.2.2 ≤ stwWord data (a + n - 1)) &&
    (data || decide (e.2.2 < 32768)))

/-- Stores bytes in a steward's SRAM: words that the store covers whole lose their POISON (R345). -/
def stwPut (s : State) (d : Nat) (data : Bool) (a : Nat) (bs : List Byte) : State :=
  let s := s.modDie d (fun x =>
    let c := x.stw.core
    let c := if data then { c with dram := memWrite c.dram a bs } else { c with iram := memWrite c.iram a bs }
    { x with stw := { x.stw with core := c } })
  { s with ecc := s.ecc.filter (fun e => !(e.1 = .stewardSram && e.2.1 = d &&
      decide (stwWord data (a + 7) ≤ e.2.2) && decide (e.2.2 < stwWord data (a + bs.length)) && (data || decide (e.2.2 < 32768)))) }

/-! ### Reads and writes -/

/-- One record of a black box (R417); 0 where none has been written. -/
def bbxBytes (s : State) (d i : Nat) : List Byte := sub (tget [] (s.die d).bbx.records i) 0 32

/-- A read that passed its checks. `fetch` for CCWs, tables and descriptors, whose failures are the caller's own. -/
def rawRead (s : State) (p : Party) (a n : Nat) : Got × State :=
  if n = 0 then (.ok [], s)
  else if !onChip a then
    if !hostOpen s p then (.bad portLost, s)
    else match hostRead s a n with
      | (some bs, s) => (.ok bs, s)
      | (none, s) => (.bad hostError, s)
  else if chipBlock a < 4 then
    let (r, o) := redirect s p (chipRegion a) (chipOff a)
    if isLost s (r / 4) || (r / 4 != p.die && !arcUp s) then (.bad hostError, s)
    else if (tilesOf r o n).any (fun t => (s.tile t).retired) then (.bad tileRetired, s)
    else match poisonAt s r o n with
      | some w => (.bad ueData, logSramError s r w true true)
      | none => (.ok (sramRead s r o n), s)
  else if isLost s (chipDie a) || (chipDie a != p.die && !arcUp s) then (.bad hostError, s)
  else if chipBlock a = 4 then
    let (bs, s) := portReadN s (chipDie a) (chipOff a) (n / 4)
    (.ok bs, s)
  else if chipBlock a = 5 then
    (if stwPoisoned s (chipDie a) true (chipOff a) n then (.bad ueData, s)
     else (.ok (memReadN (s.die (chipDie a)).stw.core.dram (chipOff a) n), s))
  else if (rangeL (chipOff a) n).any (fun o => s.ecc.contains (.blackBox, chipDie a, o / 8)) then (.bad ueData, s)
  else (.ok ((rangeL (chipOff a) n).map (fun o => (bbxBytes s (chipDie a) (o / 32)).getD (o % 32) 0)), s)

/-- A checked data read of a party (R144, R346). -/
def memGet (s : State) (p : Party) (a n : Nat) : Got × State :=
  match accessFail s p a n rightRead with
  | (some f, s) => (.bad f, s)
  | (none, s) => rawRead s p a n

/-- A checked fetch of a table, list or descriptor: a failed read is LIST_FETCH_FAILED (R101, R113). -/
def tableGet (s : State) (p : Party) (a n : Nat) : Got × State :=
  match accessFail s p a n rightFetch with
  | (some f, s) => (.bad f, s)
  | (none, s) => match rawRead s p a n with
    | (.bad f, s) => (.bad (if f = portLost then portLost else if f = tileRetired then tileRetired else listFetchFailed), s)
    | r => r

/-- Writes dwords to port space through `pw`. -/
def portPut (pw : State → Nat → Nat → Word → State) (s : State) (d off : Nat) : Nat → List Byte → State
  | 0, _ => s
  | n + 1, bs => portPut pw (pw s d off (w32 (leNat (bs.take 4)))) d (off + 4) n (bs.drop 4)

/-- A write that passed its checks. Nothing of a function in reset is stored (R147), its persistent chains' host
accesses failing instead (R148). -/
def rawWrite (pw : State → Nat → Nat → Word → State) (s : State) (p : Party) (a : Nat) (bs : List Byte) (k : PostKind)
    (holds : Bool) : Option Fail × State :=
  if bs.isEmpty then (none, s)
  else if !onChip a then
    if (s.func p.fn).inReset && !persistParty s p then (none, s)
    else if !reaches s p.die p.fn || (s.func p.fn).inReset then (some portLost, s)
    else if !masters s p.fn && !holds then (some portLost, s)
    else (none, postWrite s p.fn k a bs holds)
  else if (s.func p.fn).inReset && !persistParty s p then (none, s)
  else if chipBlock a < 4 then
    let (r, o) := redirect s p (chipRegion a) (chipOff a)
    if isLost s (r / 4) || (r / 4 != p.die && !arcUp s) then (some hostError, s)
    else if (tilesOf r o bs.length).any (fun t => (s.tile t).retired) then (some tileRetired, s)
    else (none, sramWrite s r o bs)
  else if isLost s (chipDie a) || (chipDie a != p.die && !arcUp s) then (some hostError, s)
  else if chipBlock a = 5 then (none, stwPut s (chipDie a) true (chipOff a) bs)
  else (none, portPut pw s (chipDie a) (chipOff a) (bs.length / 4) bs)

/-- A checked write of a party (R144, R513). -/
def memPut (pw : State → Nat → Nat → Word → State) (s : State) (p : Party) (a : Nat) (bs : List Byte) (k : PostKind)
    (holds : Bool) : Option Fail × State :=
  match accessFail s p a bs.length rightWrite with
  | (some f, s) => (some f, s)
  | (none, s) => rawWrite pw s p a bs k holds

/-! ### Fragment tables (R110–R113) -/

/-- A piece of a stream: address and length. -/
abbrev Piece := Nat × Nat

/-- What a table walk gives: the pieces of the stream, or the failure, with the pieces walked before it. -/
structure Walk where
  pieces : List Piece
  fail : Option Fail
  ended : Bool
  deriving DecidableEq, Repr

/-- Walks a table from address `a` with `left` bytes of table remaining (none: ends only at END), at nesting `level`,
until `need` bytes are found. `fuel` bounds the entries fetched. -/
def walkTable (p : Party) : Nat → State → Nat → Option Nat → List (Nat × Option Nat) → Nat → List Piece → Walk × State
  | 0, s, _, _, _, _, acc => (⟨acc, none, true⟩, s)
  | fuel + 1, s, a, left, stack, need, acc =>
    if need = 0 then (⟨acc, none, false⟩, s)
    else if left = some 0 then
      match stack with
      | [] => (⟨acc, none, true⟩, s)
      | (a', left') :: stack' => walkTable p fuel s a' left' stack' need acc
    else if a % 16 != 0 then (⟨acc, some tableAlign, true⟩, s)
    else match tableGet s p a 16 with
      | (.bad f, s) => (⟨acc, some f, true⟩, s)
      | (.ok e, s) =>
        let len := u32 e 8
        let kind := u8 e 12
        let next := left.map (· - 16)
        if !allZero e 13 3 || 2 < kind then (⟨acc, some badField, true⟩, s)
        else if kind = 2 then (if len != 0 then (⟨acc, some badField, true⟩, s) else (⟨acc, none, true⟩, s))
        else if kind = 0 then
          if len = 0 || 0x100000 < len then (⟨acc, some badField, true⟩, s)
          else walkTable p fuel s (a + 16) next stack (need - min len need) (acc ++ [(u64 e 0, min len need)])
        else if len < 16 || 4096 < len || len % 16 != 0 then (⟨acc, some badField, true⟩, s)
        else if 7 ≤ stack.length then (⟨acc, some listDepth, true⟩, s)
        else walkTable p fuel s (u64 e 0) (some len) ((a + 16, next) :: stack) need acc

/-- Steps enough for every walk (log 10): a DATA entry supplies a byte, a linked table holds an entry, and a table lies at most seven
LINKs deep (R112), so no more than seven LINKs and seven returns stand beside each DATA entry. -/
def walkFuel (need : Nat) : Nat := 16 * need + 16

/-- The pieces of `need` bytes at a data address, through the indirect list when `list` is set (R110, R111). -/
def piecesOf (s : State) (p : Party) (list : Bool) (a need : Nat) : Walk × State :=
  if !list then (⟨if need = 0 then [] else [(a, need)], none, false⟩, s)
  else if need = 0 then (⟨[], none, false⟩, s)
  else walkTable p (walkFuel need) s a none [] need []

/-- The part of a stream from byte `off`, `n` bytes of it. -/
def cutPieces : List Piece → Nat → Nat → List Piece
  | [], _, _ => []
  | (a, l) :: t, off, n =>
    if n = 0 then []
    else if l ≤ off then cutPieces t (off - l) n
    else
      let m := min (l - off) n
      (a + off, m) :: cutPieces t 0 (n - m)

/-- Reads pieces in order; the bytes read before a failure come with it. -/
def getPieces (p : Party) : State → List Piece → List Byte → (List Byte × Option Fail) × State
  | s, [], acc => ((acc, none), s)
  | s, (a, n) :: t, acc =>
    match memGet s p a n with
    | (.ok bs, s) => getPieces p s t (acc ++ bs)
    | (.bad f, s) => ((acc, some f), s)

/-- Stores bytes over pieces in order; those stored before a failure stay. The failure, and the bytes stored. -/
def putPieces (pw : State → Nat → Nat → Word → State) (p : Party) : State → List Piece → List Byte → (Option Fail × Nat) × State
  | s, [], _ => ((none, 0), s)
  | s, (a, n) :: t, bs =>
    if bs.isEmpty then ((none, 0), s)
    else match memPut pw s p a (bs.take n) .data false with
      | (some f, s) => ((some f, 0), s)
      | (none, s) =>
        let ((f, k), s) := putPieces pw p s t (bs.drop n)
        ((f, min n bs.length + k), s)

end Sys2Proof.Machine
end

