-- ==== Sys2Proof/Machine/Chords.lean ====
section
/-! DEFINITION. The chords' own machinery: twin pairs (R408, R409), the seal of a chain's tile (R214), trigger
evaluation (R210–R212, R217) and what follows a firing (R216, R225). -/

namespace Sys2Proof.Machine

/-! ### Twin pairs (R408) -/

/-- The pair of chords `c` and `c` XOR 2048. -/
def pairOf (s : State) (c : Nat) : Pair := tget {} s.pkg.pairs (c % 2048)
/-- Changes a pair. -/
def modPair (s : State) (c : Nat) (f : Pair → Pair) : State :=
  s.modPkg (fun p => { p with pairs := tset {} p.pairs (c % 2048) (f (tget {} p.pairs (c % 2048))) })
/-- The other chord of the pair. -/
def twinChord (c : Nat) : Nat := (c + 2048) % 4096
/-- Chord `c` is the standby of a pair. -/
def isStandby (s : State) (c : Nat) : Bool := (pairOf s c).valid && ((pairOf s c).highStandby == decide (2048 ≤ c))
/-- Chord `c` has a standby. -/
def hasStandby (s : State) (c : Nat) : Bool := (pairOf s c).valid && !isStandby s c

/-- The chord enters a state; its standby's CHD_STATE copies the code (R409). -/
def chordTo (s : State) (c : Nat) (st : ChordState) : State :=
  let s := s.modChord c (fun x => { x with st := st })
  if hasStandby s c then s.modChord (twinChord c) (fun x => { x with st := st }) else s

/-! ### Seals (R214) -/

/-- The chord's tile goes back, when no chord that names it is armed any more: to the function whose chord sealed it, or
to the pool when that function was reset meanwhile (R287). -/
def openSeal (s : State) (f : Nat) (t : Option Nat) : State :=
  match t with
  | none => s
  | some t =>
    if (sealers s t).isEmpty && (s.tile t).owner = .device then
      s.modTile t (fun x => { x with owner := if x.toPool then .pool else .fn f, toPool := false })
    else s

/-- The chord reaches DISARMED: its match is dropped, its record reads 0, and its tile is unsealed. -/
def disarmOne (s : State) (c : Nat) : State :=
  let x := s.chord c
  let t := chordTile x
  let s := s.modChord c (fun x => { x with st := .disarmed, trigs := [], matched := none, haltChain := false })
  openSeal s (recOwner x.record) t

/-- A disarm of either chord of a pair disarms both, and the pair ends (R408). -/
def disarmChord (s : State) (c : Nat) : State :=
  let paired := (pairOf s c).valid
  let s := disarmOne s c
  if paired then modPair (disarmOne s (twinChord c)) c (fun _ => {}) else s

/-! ### Trigger evaluation -/

/-- The trigger of index `k` occurs, given the edges of the tick (R205). -/
def trigOccurs (s : State) (edges : List (Nat × Bool)) (w : Nat) : Bool :=
  let v := trigVertex w
  match trigSense w with
  | 0 => edges.contains (v, true)
  | 1 => edges.contains (v, false)
  | 2 => edges.contains (v, true) || edges.contains (v, false)
  | _ => s.level v

/-- A trigger that has not occurred. -/
abbrev noTrig : TrigMem := {}

/-- Records the occurrence of trigger `k` in tick `t`: its tick, and the latest start of a sequence ending at it, taken
from the trigger before it in index order (R210). -/
def occurAt (ks : List Nat) (t : Nat) (trigs : Tab TrigMem) (k : Nat) : Tab TrigMem :=
  let prev := (ks.filter (· < k)).getLast?
  let start := match prev with
    | none => some t
    | some j => (tget noTrig trigs j).start
  let old := tget noTrig trigs k
  tset noTrig trigs k { last := some t, start := if start.isSome then start else old.start }

/-- The chord's condition in tick `t`, with the triggers that occur in it (R210); the completing trigger (R211). -/
def conditionMet (rec' : List Byte) (trigs : Tab TrigMem) (occ : List Nat) (t : Nat) : Option Nat :=
  let all := (recTriggers rec').map Prod.fst
  let w := recWindow rec'
  match occ.head?, recRule rec' with
  | none, _ => none
  | some k, 0 => some k
  | some k, 1 =>
    if all.all (fun j => match (tget noTrig trigs j).last with | some l => decide (t < l + w) | none => false) then some k else none
  | some _, _ =>
    match all.getLast? with
    | none => none
    | some h =>
      if occ.contains h then
        match (tget noTrig trigs h).start with
        | some b => if t < b + w then some h else none
        | none => none
      else none

/-- The match of an ARMED chord in the present tick: its own, or what its pair keeps of a standby (R409); one of an earlier tick stays. -/
def matchNow (s : State) (c : Nat) (k : Option Nat) : State :=
  let m : Option Match := k.map (fun k => { tick := s.edges, trigger := k })
  let keep (old : Option Match) : Option Match := match old with
    | some o => if o.tick = s.edges || m.isSome then m else old
    | none => m
  if isStandby s c then modPair s c (fun p => { p with kept := keep p.kept })
  else s.modChord c (fun x => { x with matched := keep x.matched })

/-- An ARMED chord evaluates the present tick anew, all of it, from what its triggers held before the tick (R212). -/
def evalChord (s : State) (c : Nat) (edges : List (Nat × Bool)) : State :=
  let x := s.chord c
  let ts := recTriggers x.record
  let occ := (ts.filter (fun e => trigOccurs s edges e.2)).map Prod.fst
  let trigs := occ.foldl (fun m k => occurAt (ts.map Prod.fst) s.edges m k) x.base
  matchNow (s.modChord c (fun x => { x with trigs := trigs })) c (conditionMet x.record trigs occ s.edges)

/-- The asserted level of vertex `v` in the tick before the present one. -/
def levelBefore (s : State) (v : Nat) : Bool :=
  match s.edgesNow.find? (fun e => e.1 = v) with
  | some e => !e.2
  | none => s.level v

/-- What the triggers of chord `c` held before the present tick: the level triggers whose vertices were asserted up to it occurred in the tick
before (R205, R210). -/
def tickBase (s : State) (c : Nat) : State :=
  let x := s.chord c
  if x.baseTick = some s.edges then s
  else
    let ts := recTriggers x.record
    let held (k : Nat) (w : Nat) : Bool := trigSense w = 3 && levelBefore s (trigVertex w) &&
      (match (tget noTrig x.trigs k).last with | some l => decide (l < s.edges) | none => false)
    s.modChord c (fun x => { x with baseTick := some s.edges, base :=
      (ts.filter (fun e => held e.1 e.2)).foldl (fun m e => occurAt (ts.map Prod.fst) (s.edges - 1) m e.1) x.trigs })

/-- A chord sees an edge of vertex `v` in the present tick: evaluated over the whole tick (R212) while ARMED and not matched in an
earlier tick; counted as suppressed, once a tick, for an edge-sensed trigger while FIRING, FOLLOWING, HOLDOFF or SPENT (R217). -/
def chordSees (s : State) (c v : Nat) (fired : Bool) : State :=
  let x := s.chord c
  if isLost s (chordDie c) || !(recTriggers x.record).any (fun e => trigVertex e.2 = v) then s
  else match x.st with
    | .armed =>
      if (match x.matched with | some m => m.tick != s.edges | none => false) then s else evalChord (tickBase s c) c s.edgesNow
    | .firing | .following | .holdoff | .spent =>
      let hit := (recTriggers x.record).any (fun e => trigSense e.2 != 3 && trigVertex e.2 = v && trigOccurs s [(v, fired)] e.2)
      if hit && x.suppTick != some s.edges && !isStandby s c then
        s.modChord c (fun x => { x with suppressed := sat x.suppressed, suppTick := some s.edges })
      else s
    | _ => s

/-- Every chord sees an edge of vertex `v`. -/
def chordsSee (s : State) (v : Nat) (fired : Bool) : State :=
  (s.chords.map Prod.fst).foldl (fun s c => chordSees s c v fired) s

/-- A fresh evaluation of chord `c`, with no occurrence before the present tick. -/
def evalFresh (s : State) (c : Nat) : State :=
  evalChord (s.modChord c (fun x => { x with trigs := [], matched := none, base := [], baseTick := some s.edges })) c s.edgesNow

/-- The chord enters ARMED: a fresh evaluation, in which every occurrence of the entry tick counts (R212). -/
def armEntry (s : State) (c : Nat) : State :=
  let s := evalFresh (chordTo s c .armed) c
  if hasStandby s c then evalFresh s (twinChord c) else s

/-! ### After a firing -/

/-- The claim result of claim `k` in CHD_FIRE_INFO (R227). -/
def claimResult (x : Chord) (k : Nat) : Nat := wf x.fireInfo (16 + 3 * k) 3
/-- Sets a claim result. -/
def setClaim (s : State) (c k r : Nat) : State := s.modChord c (fun x => { x with fireInfo := put x.fireInfo (16 + 3 * k) 3 r })

/-- The CHORD notice of the end of a firing (R225, R295, R300). -/
def chordNotice (s : State) (c : Nat) : State :=
  let x := s.chord c
  raiseNotice s (recOwner x.record) 132
    (c + 4096 * x.gen.toNat + 65536 * wf x.fireInfo 16 12 + 2 ^ 28 * wf x.fireEnd 0 4)

/-- The follow-on ending of R216: ONESHOT disarms; REARM goes to HOLDOFF until L + HOLDOFF, or to ARMED at once if that
tick has passed; neither gives SPENT; a DRAINING chord is DISARMED. -/
def chordRest (s : State) (c : Nat) : State :=
  let x := s.chord c
  if x.st = .draining then disarmChord s c
  else if recOneshot x.record then disarmChord s c
  else if recRearm x.record then
    (if s.edges < x.launch + recHoldoff x.record then chordTo s c .holdoff else armEntry s c)
  else chordTo s c .spent

/-- The last lead segment has ended: FOLLOWING while the chain is to run, else the follow-on ending (R216), with its notice when the
chord has no chain (R225). -/
def chordSegmentsDone (s : State) (c : Nat) : State :=
  let x := s.chord c
  if x.st != .firing then (if x.st = .disarmed && recChain x.record = 0 then chordNotice s c else s)
  else if recChain x.record != 0 then (if x.chainLive then chordTo s c .following else chordRest s c)
  else chordRest (chordNotice s c) c

/-- Claim `k` of the firing of chord `c` that was launched in tick `launch` ends with result `r`; when no segment of it runs any more the
chord goes on (R216, R225). One of a firing that a newer one has followed changes nothing of it. -/
def claimEnds (s : State) (c k launch r : Nat) : State :=
  if (s.chord c).launch != launch then s
  else
    let s := setClaim s c k r
    let s := s.modChord c (fun x => { x with running := x.running.filter (· != k) })
    if (s.chord c).running.isEmpty then chordSegmentsDone s c else s

/-- The follow-on chain of chord `c` ends: CHD_FIRE_END and CHD_FIRE_LAST take its final values (R225), and the chord
goes on once its segments are done too (R216). -/
def chainEnds (s : State) (c : Nat) (halted : Bool) (gen : BitVec 4) (reason : Byte) (chan : Half) (last : DWord) : State :=
  let code := if halted then 6 else 5
  let s := s.modChord c (fun x => { x with
    chainLive := false, haltChain := false
    fireEnd := w32 (code + 16 * gen.toNat + 256 * reason.toNat + 65536 * chan.toNat), fireLast := last })
  let s := chordNotice s c
  let x := s.chord c
  match x.st with
  | .following =>
    let s := if isLost s (chordDie c) then s.modChord c (fun x => { x with st := .disarmed }) else chordRest s c
    let t := twinChord c
    if isLost s (chordDie c) && (s.chord t).st = .following && !(s.chord t).chainLive then chordRest s t else s
  | .draining => chordRest s c
  | _ => s

end Sys2Proof.Machine
end

