-- ==== Sys2Proof/Machine/EventRegs.lean ====
section
/-! DEFINITION. The event controller's registers and interrupts: heads, acknowledgements, routes, moderation and
the MSI-X message (R302–R309, R312, R313). -/

namespace Sys2Proof.Machine

/-- Ignores a write and logs it with kind REQUEST (R71). -/
def refuseWrite (s : State) (d : Nat) (who : Who) (off : Nat) (v : Word) : State := violate s d vRequest who off v.toNat 0

/-- The die on which a target's writer lies (R299). -/
def targetDie (t : Nat) : Nat := if t < 8 then t / 4 else t - 8

/-- INT of a target (R304). -/
def intOf (g : Target) : Bool := g.ready && g.head != g.tail

/-- A message of a function falls due (R304): sent, or, while the vector is masked, the pending bit is set. A steward has
no message: its interrupt is the event context. -/
def messageDue (s : State) (t : Nat) : State :=
  if 8 ≤ t then s
  else
    let g := s.target t
    if g.masked then s.modTarget t (fun g => { g with msixPending := true })
    else
      let s := s.modTarget t (fun g => { g with lastMsg := some s.edges, msixPending := false })
      postWrite s t .message g.msgAddr.toNat (leBytes 4 g.msgData.toNat) true

/-- The moderation register of a pair (target, group) (R305). -/
def modOf (s : State) (t g : Nat) : Word := if g < 16 then tget 0x00010100 (s.target t).mods g else tget 0x00010100 s.die0.smod g

/-- Microseconds in pilot ticks (R4: 10 ns a tick). -/
def usTicks (us : Nat) : Nat := 100 * us

/-- A group's condition (R305). -/
def groupDue (s : State) (t g : Nat) : Bool :=
  let m := modOf s t g
  let p := tget {} (s.target t).paces g
  let time := usTicks (wf m 16 16)
  decide (p.judged ≤ s.edges) && (
    if wb m 0 then
      decide (1 ≤ p.count) && (match (s.target t).lastMsg with | some l => decide (l + time ≤ s.edges) | none => true)
    else decide (wf m 8 8 ≤ p.count) || (match p.since with | some b => decide (b + time ≤ s.edges) | none => false))

/-- Releases a pair (R304): count 0, timer stopped, READY set; a message is due when INT rises. -/
def releasePair (s : State) (t g : Nat) : State :=
  let before := intOf (s.target t)
  let s := s.modTarget t (fun x => { x with paces := tset {} x.paces g {}, ready := true })
  if !before && intOf (s.target t) then messageDue s t else s

/-- Releases a pair whose condition holds. -/
def judgePair (s : State) (t g : Nat) : State := if groupDue s t g then releasePair s t g else s

/-- The releases of a tick, which follow its record writes and its EVC_HEAD writes (R304). -/
def pairsJudged (s : State) : State :=
  (s.targets.map Prod.fst).foldl (fun s t => ((s.target t).paces.map Prod.fst).foldl (fun s g => judgePair s t g) s) s

/-- A write to EVC_HEAD (R302, R304). -/
def headWrite (s : State) (who : Who) (t off : Nat) (v : Word) : State :=
  let g := s.target t
  let n := 2 ^ g.sizeLog2
  let h := wf v 0 12
  let d := targetDie t
  if !g.live then refuseWrite s d who off v
  else if n ≤ h || (g.tail + n - g.head) % n < (h + n - g.head) % n then refuseWrite s d who off v
  else
    let s := s.modTarget t (fun x => { x with head := h, unread := x.unread.drop ((h + n - g.head) % n) })
    if h = g.tail then s.modTarget t (fun x => { x with ready := false, paces := [] })
    else if intOf (s.target t) then messageDue s t else s

/-- A moderation value that is no reserved encoding (R312). -/
def modOk (v : Word) : Bool := wf v 16 16 != 0 && (if wb v 0 then wf v 8 8 = 0 else wf v 8 8 != 0)

/-- The moderation of a pair changes (R306): a change of MODE zeroes the count, and restarts the timer if a record of the
group remains unconsumed; a count or timer that runs is judged against the new settings from the next tick. -/
def modApplied (s : State) (t g : Nat) (old : Word) : State :=
  s.modTarget t (fun x =>
    let p := tget {} x.paces g
    { x with paces := tset {} x.paces g (
        if wb old 0 != wb (modOf s t g) 0 then
          (if x.unread.contains g then { count := 0, since := some s.edges, judged := s.edges + 1 } else {})
        else if p.count = 0 && p.since.isNone then p
        else { p with judged := s.edges + 1 }) })

/-- A write to EVC_MOD of a target's own group (R306). -/
def modWrite (s : State) (who : Who) (t g off : Nat) (v : Word) : State :=
  if !modOk v then refuseWrite s (targetDie t) who off v
  else
    let old := modOf s t g
    modApplied (s.modTarget t (fun x => { x with mods := tset 0x00010100 x.mods g (w32 (v.toNat - fld v.toNat 1 7 * 2)) })) t g old

/-- A write to EVC_SMOD through either die is applied on both (R313), for every target the group's sources reach. -/
def smodWrite (s : State) (who : Who) (d g off : Nat) (v : Word) : State :=
  if !modOk v then refuseWrite s d who off v
  else
    let old := modOf s 0 g
    let v' := w32 (v.toNat - fld v.toNat 1 7 * 2)
    let s := (s.modDie 0 (fun x => { x with smod := tset 0x00010100 x.smod g v' })).modDie 1
      (fun x => { x with smod := tset 0x00010100 x.smod g v' })
    s.each (List.range 10) (fun s t => modApplied s t g old)

/-- A route encoding that R309 allows for source `n`; a VERTEX source that names a vertex of one tick is a pulse source (R296). -/
def routeOk (s : State) (n : Nat) (v : Word) : Bool :=
  let t := wf v 0 4
  let sense := wf v 4 2
  let vx := wf v 8 11
  let pulse := n < 512 || n = 512 || n = 520 || (528 ≤ n && oneTick vx)
  t < 10 && (8 ≤ t || fnPresent s t) && (!pulse || sense = 1) &&
  (if 528 ≤ n then
    vertexExists vx && !(1056 ≤ vx && vx < 1312) &&
      (match vertexDie vx with | some d => d = sourceDie n | none => true)
   else vx = 0)

/-- The source is at its idle point: neither pending nor in service (R309). -/
def sourceIdle (x : Shared) : Bool := x.pend.isNone && !x.inService

/-- The waiting route of an idle source comes into force (R309), ENABLE kept. -/
def routeApply (s : State) (n : Nat) : State :=
  let x := s.source n
  match x.next with
  | none => s
  | some r =>
    if !sourceIdle x then s
    else sampleLevel (s.modSource n (fun x => { x with route := put r 6 1 (wf x.route 6 1), next := none })) n

/-- A write to EVC_ACK (R308). -/
def ackWrite (s : State) (who : Who) (t off : Nat) (v : Word) : State :=
  let n := wf v 0 10
  let x := s.source n
  if n < 256 || 768 ≤ n || !x.inService || routeTarget x != t then refuseWrite s (targetDie t) who off v
  else routeApply (sampleLevel (s.modSource n (fun x => { x with inService := false })) n) n

/-- A write to EVC_ROUTE (R309, R313): TARGET, SENSE and VERTEX under class IDLE, ENABLE at once. -/
def routeWrite (s : State) (who : Who) (d n off : Nat) (v : Word) : State :=
  if sourceDie n != d || (516 ≤ n && n < 520) || (524 ≤ n && n < 528) then refuseWrite s d who off v
  else if !routeOk s n v then refuseWrite s d who off v
  else
    let v := w32 (wf v 0 7 + 256 * wf v 8 11)
    let was := routeOn (s.source n)
    let s := s.modSource n (fun x => { x with
      next := if wf x.route 0 6 = wf v 0 6 && wf x.route 8 11 = wf v 8 11 then none else some v
      route := put x.route 6 1 (wf v 6 1) })
    let s := routeApply s n
    if !was && wb v 6 then sampleLevel s n else s

/-- A write to EVC_ENABLE (R307). -/
def enableWrite (s : State) (t w : Nat) (v : Word) : State :=
  s.modTarget t (fun x => { x with
    disabled := (List.range 32).foldl (fun m b => tset false m (32 * w + b) (!wb v b)) x.disabled })

/-- A write to a target's bank at offset `o` (R312). Firmware owns a steward's bank. -/
def bankWrite (s : State) (who : Who) (t o off : Nat) (v : Word) : State :=
  if o = 0x10 then headWrite s who t off v
  else if o = 0x18 then ackWrite s who t off v
  else if 0x40 ≤ o && o < 0x80 then modWrite s who t ((o - 0x40) / 4) off v
  else if 0x80 ≤ o && o < 0xA0 then enableWrite s t ((o - 0x80) / 4) v
  else if (evcBank s t o).isSome || o = 0x04 then s
  else violate s (targetDie t) vUnmapped who off v.toNat 0

/-- A write to the EVC block of die `d` (R313). -/
def evcWrite (s : State) (who : Who) (d o : Nat) (v : Word) : State :=
  let off := 0x20000 + o
  if o < 0x800 then routeWrite s who d (256 + o / 4) off v
  else if o < 0x880 then smodWrite s who d (16 + (o - 0x800) / 4) off v
  else if 0x1000 ≤ o && o < 0x2000 then bankWrite s who (8 + d) (o - 0x1000) off v
  else if (evcReg s d o).isSome then s
  else violate s d vUnmapped who off v.toNat 0

end Sys2Proof.Machine
end

