-- ==== Sys2Proof/Machine/Lanes.lean ====
section
/-! DEFINITION. The lane registers as software writes them: apply classes, reserved encodings and the lane's idle
point (R69–R71, R159, R166–R173, R183, R184, R192, R193, R398). -/

namespace Sys2Proof.Machine

/-- What a register write does: whether it was refused or ignored in part, and the state after it. -/
abbrev Wrote := Bool × State

/-- ENABLE of a lane (R167). -/
def laneOn (l : Lane) : Bool := wb l.cfg 31
/-- A clear of ENABLE waits (R167). -/
def laneLeaving (l : Lane) : Bool := match tget none l.shadow 0 with | some w => !wb w 31 | none => false

/-- The lane's idle point: no transaction runs, none is held, and the FIFO is empty (R70). -/
def laneIdle (l : Lane) : Bool := l.txn.isNone && l.held.isNone && l.rx.isEmpty

/-- The personalities of the I2C family (R174). -/
def isI2c (p : Nat) : Bool := p = 2 || p = 3 || p = 4
/-- The target mailbox personalities (R192). -/
def isTargetMailbox (p : Nat) : Bool := p = 0xD || p = 0xE
/-- The lanes that may take them (R192). -/
def targetCapable (n : Nat) : Bool := [46, 47, 238, 239].contains n
/-- The personalities of a ganged pair (R167, R168). -/
def needsGang (p : Nat) : Bool := p = 6 || p = 7 || p = 0xC

/-- The LANE_OPT bits a personality lists (R172). -/
def optMask (p : Nat) : Nat :=
  if p = 2 then 0x0F
  else if p = 3 || p = 4 then 0x3F
  else if p = 5 then 0x7FF
  else if p = 6 || p = 7 then 0xFFF7
  else if p = 8 then 0x3F
  else if p = 9 then 0x3F
  else if p = 1 then 0x0F
  else if p = 0xA then 0x01
  else if p = 0xB then 0xFFFF0F
  else 0

/-- Reserved LANE_OPT encodings (R172). -/
def optBad (p v : Nat) : Bool :=
  if p = 5 then decide (5 ≤ fld v 8 3)
  else if p = 8 then fld v 1 2 = 3
  else if p = 9 then decide (33 ≤ fld v 0 6)
  else if p = 1 then fld v 0 2 = 3 || fld v 2 2 = 3
  else false

/-- The least HALF_PERIOD of a personality (R173). R170 makes only values below it reserved encodings, judged as the register is written, by
the PERSONALITY of LANE_CFG at the time: a value above the maximum is accepted, and one that is below the minimum of a PERSONALITY written
later is kept (DESIGN CHOICE, log 73). -/
def halfMin (p : Nat) : Nat :=
  if isI2c p then 600
  else if p = 5 then 48
  else if p = 6 then 12
  else if p = 7 then 24
  else if p = 8 then 50
  else if p = 9 then 48
  else if p = 0xC then 12
  else 0

/-- The state of a GPIO pin as its MODE changes (R80, R172): an output that stays one keeps its state, any other pin begins anew. -/
def gpioDrive (old new : Nat) (d : Option Drive) : Option Drive := if old = 0 || new = 0 then none else d

/-- LANE_OPT takes a new value (R172). -/
def optTaken (l : Lane) (v : Word) : Lane :=
  if personality l = 1 && laneOn l then
    { l with opt := v, driveA := gpioDrive (wf l.opt 0 2) (wf v 0 2) l.driveA, driveB := gpioDrive (wf l.opt 2 2) (wf v 2 2) l.driveB }
  else { l with opt := v }

/-- LANE_PWM as a period takes it (R181): a DUTY greater than PERIOD is PERIOD. -/
def pwmTaken (v : Word) : Word := put v 16 16 (min (wf v 0 16) (wf v 16 16))

/-- The lane is enabled (R167): its counters start (R181), PMBus sets PEC (R175), GPIO outputs take their pins. An override of PWM_FORCE
stays (R182). -/
def laneEnabled (now : Nat) (l : Lane) : Lane :=
  let l := { l with
    cfg := l.cfg ||| 0x80000000
    tachTime := 0, tachEdges := 0, tachStalled := false, tachLast := none, tachFrom := now, tachGaps := []
    pwmNow := pwmTaken l.pwm, pwmFrom := now, paused := false, busy := false, dynAddr := none }
  if personality l = 4 then { l with opt := put l.opt 4 1 1 }
  else if personality l = 1 then { l with driveA := none, driveB := none }
  else l

/-- ENABLE is cleared: the pins, also those of its odd lane and its strobe lane, which it drives as long as it is on, go high-impedance with
their pulls (R167). -/
def laneDisabled (l : Lane) : Lane :=
  { l with cfg := put l.cfg 31 1 0, shadow := tdel 0 l.shadow, driveA := none, driveB := none, released := none }

/-- One waiting IDLE-class register of a lane comes into force (R69). -/
def shadowTaken (l : Lane) (o : Nat) (w : Word) : Lane :=
  if o = 0x00 then (if wb w 31 then l else laneDisabled l)
  else if o = 0x08 then { l with timing := w }
  else if o = 0x0C then { l with timeout := w }
  else if o = 0x10 then optTaken l w
  else if o = 0x40 then { l with frmCfg := w }
  else if o = 0x44 then { l with frmPre := w }
  else if o % 8 = 0 then { l with frmShape := tset 0 l.frmShape ((o - 0x50) / 8) w }
  else { l with frmAck := tset 0 l.frmAck ((o - 0x54) / 8) w }

/-- The lane's idle point: every waiting register comes into force, and PENDING reads 0 (R69, R70). -/
def laneApplied (l : Lane) : Lane :=
  if !laneIdle l then l
  else
    let l' := l.shadow.foldl (fun x e => match e.2 with | some w => shadowTaken x e.1 w | none => x) l
    { l' with shadow := [] }

/-- The other lanes whose pins lane `n` governs: its odd lane, and a quad-SPI lane's strobe lane (R12, R167). -/
def pinLanes (s : State) (n : Nat) : List Nat :=
  let l := s.lane n
  (if wb l.cfg 4 && n % 2 = 0 then [n + 1] else []) ++ (if personality l = 7 then [12 * laneCluster n + wf l.cfg 8 4] else [])

/-- The pins of some lanes take a state of their own, or return to the personality's control. -/
def pinsSet (s : State) (ns : List Nat) (d : Option Drive) : State :=
  ns.foldl (fun s m => s.modLane m (fun l => { l with driveA := d, driveB := d })) s

/-- The configuration of lane `n` changes from that of `s`: a lane whose pins another lane governs keeps them as they are (R12, R167). -/
def pinsKept (s s' : State) (n : Nat) : State :=
  if governor s n = n then s' else s'.modLane n (fun l => { l with driveA := (s.lane n).driveA, driveB := (s.lane n).driveB })

/-- Lane `n` at its idle point: where ENABLE is cleared its other pins go high-impedance too (R69, R70, R167). -/
def idleTaken (s : State) (n : Nat) : State :=
  let s' := pinsKept s (s.modLane n laneApplied) n
  if laneOn (s.lane n) && !laneOn (s'.lane n) then pinsSet s' (pinLanes s n) none else s'

/-- SAFE_STATE ends on the pins of lane `n` as firmware writes its LANE_CFG, for a gang on all of them (R467). -/
def safeEnds (s : State) (n : Nat) : State :=
  (n :: pinLanes s n).foldl (fun s m => s.modLane m (fun l => if l.safe then { l with driveA := none, driveB := none, safe := false } else l)) s

/-- A lane unit's reset (R47, R69): its FIFO is empty, and its waiting registers are discarded. -/
def laneWiped (l : Lane) : Lane := { l with rx := [], paused := false, shadow := [] }

/-- Writes an IDLE-class register: it waits in the shadow, and comes into force at once on a lane at its idle point. -/
def idleWrite (s : State) (n o : Nat) (w : Word) : Wrote :=
  (false, idleTaken (s.modLane n (fun l => { l with shadow := tset none l.shadow o (some w) })) n)

/-- A write that is a reserved encoding: ignored as a whole and logged with kind REQUEST (R71). -/
def laneRefused (s : State) (who : Who) (n off : Nat) (v : Word) : Wrote := (true, refuseWrite s (laneDie n) who off v)

/-- A write that would change a LOCK field of an enabled lane: ignored there and logged once (R69). -/
def laneLocked (s : State) (who : Who) (n off : Nat) (v : Word) : Wrote :=
  (true, violate s (laneDie n) vLockWrite who off v.toNat 0)

/-- The LOCK fields and ENABLE of LANE_CFG (R167). -/
abbrev cfgMask : Word := 0x80000F1F

/-- Lane `m` of a cluster belongs to a gang. -/
def inGang (s : State) (m : Nat) : Bool := wb (s.lane m).cfg 4 || isPartner s m

/-- Reserved encodings of LANE_CFG (R167, R168, R173, R192) and writes a twin refuses (R398). A HALF_PERIOD already in LANE_TIMING is not
judged here (DESIGN CHOICE, log 73). -/
def cfgBad (s : State) (n : Nat) (v : Word) : Bool :=
  let p := wf v 0 4
  let gang := wb v 4
  let strobe := wf v 8 4
  let c := laneCluster n
  p = 0xF || (gang != needsGang p) || (gang && n % 2 = 1) || (isTargetMailbox p && !targetCapable n) ||
  ((p = 5 || p = 0xE) && wb v 31 && (s.cluster c).volts = 3) ||
  (p = 7 && (decide (12 ≤ strobe) || strobe / 2 = n % 12 / 2 || inGang s (12 * c + strobe))) ||
  ((twinOf s n).valid && (twinOf s n).shadow)

/-- A write to LANE_CFG (R69, R167, R172, R175). -/
def cfgWrite (s : State) (who : Who) (n off : Nat) (v : Word) : Wrote :=
  let l := s.lane n
  if cfgBad s n v then laneRefused s who n off v
  else
    let v' := v &&& cfgMask
    if laneOn l then
      let same := (v' ||| 0x80000000) = l.cfg
      let s :=
        if wb v' 31 then s.modLane n (fun l => { l with shadow := tdel 0 l.shadow })
        else idleTaken (s.modLane n (fun l => { l with shadow := tset none l.shadow 0 (some (put l.cfg 31 1 0)) })) n
      if same then (false, s) else laneLocked s who n off v
    else
      (false, safeEnds (pinsKept s (s.modLane n (fun l =>
        let new := wf v' 0 4 != personality l
        let l := { l with cfg := put v' 31 1 0, opt := if new then 0 else l.opt
                          shadow := if new then tdel 0x10 l.shadow else l.shadow }
        if wb v' 31 then laneEnabled s.edges l else l)) n) n)

/-- The FIFO bytes of the cluster of lane `n` with that lane's register at `v` (R159). -/
def fifoTotal (s : State) (n : Nat) (v : Word) : Nat :=
  ((rangeL (12 * laneCluster n) 12).map (fun m => fifoBytes (if m = n then v else (s.lane m).fifo))).foldl (· + ·) 0

/-- The clocks of a frame format (R183). -/
def shapeClocks (w : Word) : Nat :=
  wf w 0 6 + wf w 6 9 + (if wf w 15 2 = 0 then 0 else 1) + wf w 17 3 + wf w 20 7 + wf w 27 4

/-- Reserved encodings of LANE_FRM_SHAPE, and frames of more than 256 clocks (R183, R184). -/
def shapeBad (w : Word) : Bool :=
  decide (32 < wf w 0 6) || decide (256 < wf w 6 9) || wf w 15 2 = 3 || decide (64 < wf w 20 7) || decide (256 < shapeClocks w)

/-- LANE_FRM_CFG whose pins are not distinct (R184). -/
def frmCfgBad (w : Word) : Bool :=
  wf w 0 2 = wf w 2 2 || (wb w 6 && (wf w 4 2 = wf w 0 2 || wf w 4 2 = wf w 2 2))

/-- A register offset of the LANE block that software may write (R166, R282). -/
def laneWritable (frame : Bool) (o : Nat) : Bool :=
  [0x00, 0x04, 0x08, 0x0C, 0x10, 0x14, 0x24, 0x30, 0x40, 0x44].contains o || (decide (0x50 ≤ o) && decide (o < 0x60)) ||
  o = 0x60 || o = 0x64 || o = 0x6C || (frame && o = 0x68)

/-- A write to register `o` of lane `n`; `off` is its port-space offset (R166). -/
def laneWrite (s : State) (who : Who) (n o off : Nat) (v : Word) : Wrote :=
  let l := s.lane n
  let p := personality l
  if o = 0x00 then cfgWrite s who n off v
  else if o = 0x04 then (false, s.modLane n (fun l => { l with pins := w32 (wf v 0 10) }))
  else if o = 0x08 then
    (if wf v 0 20 < halfMin p then laneRefused s who n off v else idleWrite s n o (w32 (wf v 0 20)))
  else if o = 0x0C then idleWrite s n o (w32 (wf v 0 24))
  else if o = 0x10 then
    let w := w32 (v.toNat &&& optMask p)
    (if optBad p w.toNat then laneRefused s who n off v else idleWrite s n o w)
  else if o = 0x14 then
    let w := w32 (wf v 0 4)
    if 8 < wf v 0 4 || 73728 < fifoTotal s n w then laneRefused s who n off v
    else if laneOn l && w != l.fifo then laneLocked s who n off v
    else (false, s.modLane n (fun l => { l with fifo := w }))
  else if o = 0x24 then (false, s.modLane n (fun l => { l with err := l.err &&& ~~~v }))
  else if o = 0x30 then
    (if wf v 0 16 < 100 then laneRefused s who n off v else (false, s.modLane n (fun l => { l with pwm := v })))
  else if o = 0x40 then
    (if frmCfgBad v then laneRefused s who n off v else idleWrite s n o (w32 (wf v 0 11)))
  else if o = 0x44 then idleWrite s n o v
  else if o = 0x60 && !isFrame l then
    let w := v &&& 0xF7F
    if laneOn l && w != l.tgt then laneLocked s who n off v else (false, s.modLane n (fun l => { l with tgt := w }))
  else if 0x50 ≤ o && o < 0x70 && (o != 0x68 || isFrame l) then
    if o % 8 = 0 then (if shapeBad v then laneRefused s who n off v else idleWrite s n o v)
    else idleWrite s n o (w32 (wf v 0 16))
  else if (laneReg s n o).isSome then (false, s)
  else (true, violate s (laneDie n) vUnmapped who off v.toNat 0)

/-- The port-space offset of register `o` of lane `n` (R56). -/
def laneOff (n o : Nat) : Nat :=
  0x100000 + 0x100000 * (n / 48 % 4) + 0x40000 * (n / 12 % 4) + 0x1000 + 256 * (n % 12) + o

end Sys2Proof.Machine
end

