-- ==== Sys2Proof/Machine/Meters.lean ====
section
/-! DEFINITION. Meter settings, the arithmetic of one slot and the snapshot (R230, R238–R249). -/

namespace Sys2Proof.Machine

/-- Clamps to signed 32 bits (R230, R238). -/
def clamp32 (i : Int) : Int := if i < -0x80000000 then -0x80000000 else if 0x7FFFFFFF < i then 0x7FFFFFFF else i

/-- Clamps to signed 64 bits. -/
def clamp64 (i : Int) : Int :=
  if i < -0x8000000000000000 then -0x8000000000000000 else if 0x7FFFFFFFFFFFFFFF < i then 0x7FFFFFFFFFFFFFFF else i

/-- `i` divided by `k`, rounded to the nearest, halves upward. -/
def roundDiv (i : Int) (k : Nat) : Int := (2 * i + k) / (2 * k)

/-- IN(n) of a code (R230). -/
def senseValue (code : Nat) (gain offset : Word) : Int :=
  clamp32 (roundDiv ((16 * (code : Int) - sx (BitVec.ofNat 16 offset.toNat)) * sx gain) 4096)

/-! ### Settings (R244) -/

def setOp (b : List Byte) : Nat := fld (u8 b 0) 0 4
def setK (b : List Byte) : Nat := fld (u8 b 0) 4 4
def setSrc (b : List Byte) (i : Nat) : Nat := u8 b (4 + i)
def setTerms (b : List Byte) : Nat := u8 b 12
def setNegate (b : List Byte) : Nat := u8 b 13
def setEn (b : List Byte) (t : Nat) : Bool := bit (u8 b 1) (2 * t)
def setBelow (b : List Byte) (t : Nat) : Bool := bit (u8 b 1) (2 * t + 1)
def setT1Vertex (b : List Byte) : Bool := bit (u8 b 1) 4
def setLevel (b : List Byte) (t : Nat) : Int := sx (w32 (u32 b (16 + 8 * t)))
def setHyst (b : List Byte) (t : Nat) : Int := sx (w32 (u32 b (20 + 8 * t)))

/-- The source bytes an operation uses. -/
def setUsed (b : List Byte) : List Nat :=
  if setOp b = 1 then [0] else if setOp b = 2 then [0, 1] else if setOp b = 0 then []
  else (List.range 8).filter (bit (setTerms b))

/-- A settings write that is no reserved encoding, for a meter of die `d` (R244). -/
def settingsOk (d : Nat) (b : List Byte) : Bool :=
  let op := setOp b
  decide (op ≤ 5) && fld (u8 b 1) 5 3 = 0 && decide (fld (u8 b 2) 0 4 ≤ 5) && decide (fld (u8 b 2) 4 4 ≤ 2) && u8 b 3 = 0 &&
  u8 b 14 = 0 && u8 b 15 = 0 && !bit (u8 b 23) 7 && !bit (u8 b 31) 7 &&
  (List.range 8).all (fun i => bit (setSrc b i) 7 || !bit (setSrc b i) 6) &&
  (setUsed b).all (fun i => bit (setSrc b i) 7 || setSrc b i / 32 = d) &&
  (if op = 0 then allZero b 1 31
   else if op = 1 || op = 2 then
     setTerms b = 0 && setNegate b = 0 && (List.range 8).all (fun i => (setUsed b).contains i || setSrc b i = 0)
   else setTerms b != 0 && (setNegate b &&& (255 - setTerms b)) = 0 && (op = 3 || setNegate b = 0))

/-- What the average is taken over changed: OP, a source, TERMS, NEGATE or K (R239). -/
def averageChanged (a b : List Byte) : Bool := u8 a 0 != u8 b 0 || (List.range 10).any (fun i => u8 a (4 + i) != u8 b (4 + i))

/-- What the trips judge changed: OP, a source, TERMS or NEGATE (R241). -/
def sourcesChanged (a b : List Byte) : Bool := setOp a != setOp b || (List.range 10).any (fun i => u8 a (4 + i) != u8 b (4 + i))

/-- The waiting settings of a meter come into force (R239, R241, R245). -/
def meterTake (m : Meter) : Meter :=
  match m.next with
  | none => m
  | some b =>
    let keep (t : Nat) (on : Bool) : Bool := on && setEn m.settings t && setEn b t && !sourcesChanged m.settings b
    { m with
      settings := b, next := none, raw := if setOp b = 0 then 0 else m.raw, value := if setOp b = 0 then 0 else m.value
      fresh := m.fresh || averageChanged m.settings b, trip0 := keep 0 m.trip0, trip1 := keep 1 m.trip1 }

/-- CLEAR (R246). -/
def meterCleared (m : Meter) : Meter :=
  { m with energy := 0, passes := 0, min := 0x7FFFFFFF, max := -0x80000000, sat := false, gap := false, stale := false, clear := false }

/-! ### One slot (R238–R242) -/

/-- Pilot time in ns at the start of the present tick, and at its end. -/
def tickFrom (s : State) : Nat := 10 * s.pilot.toNat
def tickTo (s : State) : Nat := 10 * s.pilot.toNat + 10

/-- The value of meter `m` that is present on die `d` at pilot time `t` ns (R237): the latest published by then, 12 ns earlier on the
other die. -/
def meterSeen (s : State) (d m t : Nat) : Int :=
  let x := s.meter m
  let age := if m / 64 = d then 0 else 12
  if setOp x.settings = 0 then x.value
  else match x.hist.find? (fun e => decide (e.1 + age ≤ t)) with
    | some e => e.2
    | none => 0

/-- The sampling instant `k` of input `i` in ns (R229). -/
def sampleAt (i k : Nat) : Nat := 25 * (i % 8) + 200 * k

/-- IN of input `i` as it is present at pilot time `t` ns: 16 ns after its sampling instant (R229). -/
def inputSeenAt (s : State) (i t : Nat) : Int :=
  let x := s.input i
  match x.sampled with
  | some k => if sampleAt i k + 16 ≤ t then sx x.value else sx x.before
  | none => sx x.value

/-- The value of a source byte for a meter of die `d` whose slot starts at `t` ns (R237). -/
def sourceVal (s : State) (d t b : Nat) : Int := if bit b 7 then meterSeen s d (fld b 0 7) t else inputSeenAt s (fld b 0 6) t

/-- The source's die has its meter domain stopped (R237). -/
def sourceStopped (s : State) (b : Nat) : Bool :=
  !(s.die (if bit b 7 then fld b 0 7 / 64 else fld b 0 6 / 32)).meterRun

/-- RAW before saturation (R238). -/
def rawOf (s : State) (d t : Nat) (b : List Byte) : Int :=
  let v (i : Nat) := sourceVal s d t (setSrc b i)
  match setOp b with
  | 1 => v 0
  | 2 => roundDiv (v 0 * v 1) 65536
  | 3 => ((setUsed b).map (fun i => if bit (setNegate b) i then -(v i) else v i)).foldl (· + ·) 0
  | 4 => match (setUsed b).map v with
    | [] => 0
    | x :: xs => xs.foldl max x
  | 5 => match (setUsed b).map v with
    | [] => 0
    | x :: xs => xs.foldl min x
  | _ => 0

/-- A trip after judging `v` (R241). -/
def judgeTrip (on below : Bool) (l h v : Int) : Bool :=
  if below then (if on then !decide (l + h < v) else decide (v ≤ l))
  else (if on then !decide (v < l - h) else decide (l ≤ v))

/-- The trips of a meter after its value is known. -/
def tripsJudged (m : Meter) : Meter :=
  let b := m.settings
  { m with trip0 := setEn b 0 && judgeTrip m.trip0 (setBelow b 0) (setLevel b 0) (setHyst b 0) m.value
           trip1 := setEn b 1 && judgeTrip m.trip1 (setBelow b 1) (setLevel b 1) (setHyst b 1) m.value }

/-- ENERGY of the snapshot: the accumulator in Q16.16 unit-passes times 256 ns, in Q40.24 unit-seconds (R240). -/
def energyOf (acc : Int) : Int := clamp64 (roundDiv (acc * 65536) 1000000000)

/-- The snapshot taken at the end of a slot (R246). -/
def snapOf (m : Meter) : List Byte :=
  leBytes 4 (iw32 m.value).toNat ++ leBytes 4 (iw32 m.raw).toNat ++ leBytes 8 (BitVec.ofInt 64 (energyOf m.energy)).toNat ++
  leBytes 4 (iw32 m.min).toNat ++ leBytes 4 (iw32 m.max).toNat ++
  [w8 (b2n m.trip0 + 2 * b2n m.trip1 + 4 * b2n m.sat + 8 * b2n m.gap + 16 * b2n m.stale), 0, m.settings.getD 2 0, 0] ++
  leBytes 4 m.passes.toNat

/-- What waits for the slot applies, in the order settings, CLEAR, unit reset (R19, R245, R246, R249). -/
def meterBegun (m : Meter) : Meter :=
  let m := meterTake m
  let m := if m.clear then meterCleared m else m
  if m.resetPending then
    { meterCleared m with raw := 0, value := 0, fresh := true, trip0 := false, trip1 := false, resetPending := false }
  else m

/-- The update of an enabled meter of die `d` whose slot starts at `t` ns (R238). -/
def meterUpdated (s : State) (d t : Nat) (m : Meter) : Meter :=
  let b := m.settings
  if setOp b = 0 then { m with raw := 0, value := 0 }
  else
    let raw := rawOf s d t b
    let r := clamp32 raw
    let v := if m.fresh || setK b = 0 then r else m.value + (r - m.value) / 2 ^ setK b
    let v' := clamp32 v
    tripsJudged { m with
      raw := r, value := v', fresh := false, sat := m.sat || raw != r || v != v'
      gap := m.gap || m.woke, woke := false, stale := m.stale || (setUsed b).any (fun i => sourceStopped s (setSrc b i))
      energy := m.energy + v', passes := sat m.passes, min := min m.min v', max := max m.max v' }

/-- The level of the meter's vertex (R241). -/
def meterVertex (m : Meter) : Bool := m.trip0 || (m.trip1 && setT1Vertex m.settings)

/-! ### Requests (R245–R249) -/

/-- The slot of meter `m` that its die's engine comes to next starts at this pilot time in ns (R236): die 1 begins its passes 12 ns earlier. -/
def slotStart (s : State) (d : Nat) : Nat := 256 * (s.die d).meterPass + 4 * (s.die d).meterNext - 12 * d

/-- The meter engine of die `d` begins at its next pass start (R236). -/
def meterAnchor (s : State) (d : Nat) : State :=
  s.modDie d (fun x => { x with meterPass := (tickFrom s + 12 * d + 255) / 256, meterNext := 0 })

/-- The slot of meter `m` is next, and ends in the present tick or before; what the other die has published for it by its start stands
(R236, R237). -/
def slotMay (s : State) (m : Nat) : Bool :=
  let d := m / 64
  let o := 1 - d
  (s.die d).meterRun && (s.die d).meterNext = m % 64 && decide (slotStart s d + 4 ≤ tickTo s) &&
  (!(s.die o).meterRun || !dieUp s o || decide (slotStart s d < slotStart s o + 16))

/-- The engine of die `d` goes on to the next slot. -/
def slotPassed (s : State) (d : Nat) : State :=
  s.modDie d (fun x => if x.meterNext < 63 then { x with meterNext := x.meterNext + 1 } else { x with meterPass := x.meterPass + 1, meterNext := 0 })

/-- The staging of die `d` holds words of meter `m` (R65, R245). -/
def meterStaged (s : State) (m : Nat) : Tab (Option Word) :=
  match (s.die (m / 64)).meterStage with
  | some (k, t) => if k = m then t else []
  | none => []

/-- Commits 32 bytes of settings: they wait for the meter's slot, or apply at once while the meter domain is stopped; OP
OFF makes the meter unowned (R245, R247). Words staged for the meter before are dropped (R65). -/
def meterCommit (s : State) (m : Nat) (b : List Byte) : State :=
  let run := (s.die (m / 64)).meterRun
  let s := s.modDie (m / 64) (fun x => { x with meterStage := match x.meterStage with | some (k, t) => if k = m then none else some (k, t) | none => none })
  s.modMeter m (fun x =>
    let x := { x with next := some b, owner := if setOp b = 0 then 15 else x.owner }
    if run then x else meterTake x)

/-- A write to MTR_SETw (R245), as for the window table (R65): staged in the die's one buffer, which a write to another meter empties, or
committed by MTR_SET7, which empties it whichever meter it holds. -/
def meterSetWrite (s : State) (who : Who) (m w off : Nat) (v : Word) : State :=
  let d := m / 64
  if w < 7 then s.modDie d (fun x => { x with meterStage := some (m, tset none (meterStaged s m) w (some v)) })
  else
    let x := s.meter m
    let base := match x.next with | some b => b | none => sub x.settings 0 32
    let b := ((List.range 7).map (fun i => match tget none (meterStaged s m) i with
      | some w => leBytes 4 w.toNat
      | none => sub base (4 * i) 4)).flatten ++ leBytes 4 v.toNat
    let s := s.modDie d (fun x => { x with meterStage := none })
    if settingsOk d b then meterCommit s m b else refuseWrite s d who off v

/-- A CLEAR request (R246); while the meter domain is stopped it waits for the first slot. -/
def meterClearRequest (s : State) (m : Nat) : State := s.modMeter m (fun x => { x with clear := true })

end Sys2Proof.Machine
end

