-- ==== Sys2Proof/Machine/Transfers.lean ====
section
/-! DEFINITION. Direct transfer channels: their registers, START and STOP, the pieces of a run and its end
(R314–R325). -/

namespace Sys2Proof.Machine

/-- XFR_STATUS.CODE values (R325). -/
abbrev xfrAlign : BitVec 4 := 1
abbrev xfrRange : BitVec 4 := 2
abbrev xfrProtection : BitVec 4 := 3
abbrev xfrHost : BitVec 4 := 4
abbrev xfrUe : BitVec 4 := 5
abbrev xfrStopped : BitVec 4 := 6
abbrev xfrOwnerReset : BitVec 4 := 7
abbrev xfrLane : BitVec 4 := 8
abbrev xfrPath : BitVec 4 := 9

/-- The path channel of region `r` that a piece takes (R314, R315): the lowest-numbered in PATH mode that is in service. A piece is one
step, so that its channel is free again after it and no request waits for one. -/
def pathChannel (s : State) (r : Nat) : Option Nat :=
  (rangeL (16 * r) 16).find? (fun ch => !wb (s.xfr ch).cfg 0 && (s.xfr ch).unit = .inService)

/-- Fields of XFR_CFG (R325). -/
def xfrDirect (w : Word) : Bool := wb w 0
def xfrStream (w : Word) : Bool := wb w 1
def xfrWrap (w : Word) : Bool := wb w 2
def xfrStore (w : Word) : Bool := wb w 3
def xfrCheck (w : Word) : Nat := wf w 4 3
def xfrOwner (w : Word) : Nat := wf w 8 4
def xfrWidth (w : Word) : Nat := wf w 12 2 + 1
def xfrMsb (w : Word) : Bool := wb w 14
def xfrLaneNo (w : Word) : Nat := wf w 16 9
def xfrOn (w : Word) : Bool := wb w 31

/-- The channel's run as a party (R320): party 8 has the rights of steward firmware. -/
def xfrParty (s : State) (ch : Nat) : Party :=
  let f := xfrOwner (s.xfr ch).cfg
  { fn := f, chord := none, body := none, enforce := decide (f < 8) && wb (pkgOf s (ch / 64)).enforce f, die := ch / 64, region := ch / 16 }

/-- Raises the owner's TRANSFER source (R295, R322, R377). -/
def xfrRaise (s : State) (ch : Nat) : State :=
  let f := xfrOwner (s.xfr ch).cfg
  if f < 8 then raiseNotice s f 134 ch else stewardNotice s (ch / 64) 9 ch

/-- A waiting clear of ENABLE applies: the channel is at its idle point (R325). -/
def xfrIdleApply (x : Xfr) : Xfr :=
  if x.disable && x.st != .running then { x with cfg := put x.cfg 31 1 0, disable := false } else x

/-- A run ends in ERROR with a code; TRANSFER is raised unless the owner is being reset (R323). -/
def xfrFail (s : State) (ch : Nat) (code : BitVec 4) : State :=
  let s := s.modXfr ch (fun x => xfrIdleApply { x with st := .error, code := code })
  if code = xfrOwnerReset then s else xfrRaise s ch

/-- The code of a failed check (R320, R325). -/
def failCode (f : Fail) : BitVec 4 :=
  if f.1 = csAlign then xfrAlign else if f.1 = csProtection then xfrProtection else if f = ueData then xfrUe
  else if f.1 = csProgram then xfrRange else xfrHost

/-- The lane of a lane stream suits (R319): in the channel's region, a UART lane with RX_ALWAYS and ENABLE. -/
def streamLaneOk (s : State) (ch : Nat) : Bool :=
  let n := xfrLaneNo (s.xfr ch).cfg
  let l := s.lane n
  decide (n < 384) && laneRegion n = ch / 16 && personality l = 8 && wb l.opt 4 && laneOn l && l.unit != .retired

/-- A running lane stream takes the bytes that lane `n` receives (R321). -/
def laneStreamed (s : State) (n : Nat) : Bool := s.xfrs.any (fun e => e.2.st = .running && xfrStream e.2.cfg && xfrLaneNo e.2.cfg = n)

/-- The checks at START, in order, and the first that fails (R319, R320). -/
def xfrStartFail (s : State) (ch : Nat) : Option (BitVec 4) × State :=
  let x := s.xfr ch
  let p := xfrParty s ch
  let (a, b, n) := (x.src.toNat, x.dst.toNat, x.count.toNat)
  let stream := xfrStream x.cfg
  let m := n + (if xfrStore x.cfg then 8 else 0)
  if a % 8 != 0 || b % 8 != 0 || n = 0 || n % 8 != 0 || (xfrWidth x.cfg = 3 && n % 24 != 0) then (some xfrAlign, s)
  else if stream && !streamLaneOk s ch then (some xfrLane, s)
  else if (stream && a != 0) || (!stream && xfrWrap x.cfg) then (some xfrRange, s)
  else if !stream && (formFail a n).isSome then (some xfrRange, s)
  else if (formFail b m).isSome then (some xfrRange, s)
  else if !stream && a < b + m && b < a + n then (some xfrRange, s)
  else
    let (f, s) := if stream then (none, s) else accessFail s p a n rightRead
    match f with
    | some f => (some (failCode f), s)
    | none => match accessFail s p b m rightWrite with
      | (some f, s) => (some (failCode f), s)
      | (none, s) => (none, s)

/-- The check register a run starts with (R326). -/
def xfrAcc (cfg : Word) : Acc := accInit (BitVec.ofNat 2 (xfrCheck cfg - 1))

/-- START (R323), by a write of `v` to XFR_CTRL. -/
def xfrBegin (s : State) (who : Who) (ch off : Nat) (v : Word) : State :=
  let x := s.xfr ch
  if x.st = .running || !xfrOn x.cfg || !xfrDirect x.cfg || x.unit != .inService then refuseWrite s (ch / 64) who off v
  else
    let (f, s) := xfrStartFail s ch
    match f with
    | some c => s.modXfr ch (fun x => { x with st := .error, code := c, done := 0, wraps := 0 })
    | none => s.modXfr ch (fun x => { x with st := .running, code := 0, done := 0, wraps := 0, acc := xfrAcc x.cfg, rx := [] })

/-- STOP (R323): a run ends after the piece in progress, and pieces are whole steps. -/
def xfrEnd (s : State) (ch : Nat) : State := if (s.xfr ch).st = .running then xfrFail s ch xfrStopped else s

/-- Reverses each device word of `k` bytes (R318). -/
def swapWords : Nat → Nat → List Byte → List Byte
  | 0, _, bs => bs
  | fuel + 1, k, bs => if bs.isEmpty then [] else (bs.take k).reverse ++ swapWords fuel k (bs.drop k)

/-- An access of the channel crosses a bridge that is down (R323). -/
def crossesDown (s : State) (ch a : Nat) (f : Nat) : Bool :=
  !arcUp s && (if onChip a then chipDie a != ch / 64 else fnPort f != ch / 64)

/-- The end of a piece: the bytes counted and fed to the check value. -/
def xfrMoved (x : Xfr) (crossed : List Byte) : Xfr :=
  { x with done := x.done + w32 crossed.length, acc := if xfrCheck x.cfg = 0 then x.acc else accFeed x.acc crossed }

/-- One piece of a running direct channel (R321): up to 256 bytes, in whole aligned words; of a lane stream, the whole words
that the lane has received. -/
def xfrPiece (pw : State → Nat → Nat → Word → State) (s : State) (ch : Nat) : State :=
  let x := s.xfr ch
  let p := xfrParty s ch
  let left := x.count.toNat - x.done.toNat
  if x.st != .running || left = 0 then s
  else
    let dst := x.dst.toNat + x.done.toNat
    if xfrStream x.cfg then
      let n := xfrLaneNo x.cfg
      if !streamLaneOk s ch then xfrFail s ch xfrLane
      else
        let unit := if xfrWidth x.cfg = 3 then 24 else 8
        let k := min (min 240 left) ((s.lane n).rx.length / unit * unit)
        let k := k / unit * unit
        if k = 0 then s
        else if crossesDown s ch dst p.fn then xfrFail s ch xfrPath
        else
          let got := (s.lane n).rx.take k
          let out := if xfrMsb x.cfg then swapWords k (xfrWidth x.cfg) got else got
          let s := s.modLane n (fun l => { l with rx := l.rx.drop k })
          match rawWrite pw s p dst out .data false with
          | (some f, s) => xfrFail s ch (failCode f)
          | (none, s) => s.modXfr ch (fun x => xfrMoved x got)
    else
      let src := x.src.toNat + x.done.toNat
      let k := min 256 left
      if crossesDown s ch src p.fn || crossesDown s ch dst p.fn then xfrFail s ch xfrPath
      else match rawRead s p src k with
        | (.bad f, s) => xfrFail s ch (failCode f)
        | (.ok bs, s) => match rawWrite pw s p dst bs .data false with
          | (some f, s) => xfrFail s ch (failCode f)
          | (none, s) => s.modXfr ch (fun x => xfrMoved x bs)

/-- The run reaches its count (R322): the check word is stored, XFR_CHECK takes the value, the run is DONE or wraps, and
the owner's TRANSFER source is raised. -/
def xfrCounted (pw : State → Nat → Nat → Word → State) (s : State) (ch : Nat) : State :=
  let x := s.xfr ch
  if x.st != .running || x.done != x.count then s
  else
    let v := if xfrCheck x.cfg = 0 then 0 else accResult x.acc
    let a := x.dst.toNat + x.count.toNat
    if xfrStore x.cfg && crossesDown s ch a (xfrOwner x.cfg) then xfrFail s ch xfrPath
    else
      let (f, s) := if xfrStore x.cfg then rawWrite pw s (xfrParty s ch) a (leBytes 8 v.toNat) .data false else (none, s)
      match f with
      | some f => xfrFail s ch (failCode f)
      | none =>
        let s := s.modXfr ch (fun x =>
          if xfrWrap x.cfg then { x with check := v, wraps := x.wraps + 1, done := 0, acc := xfrAcc x.cfg }
          else xfrIdleApply { x with check := v, st := .done })
        xfrRaise s ch

/-- Lane streams of lane `n` end when the lane no longer suits (R323). -/
def laneStreams (s : State) (n : Nat) : State :=
  (s.xfrs.map Prod.fst).foldl (fun s ch =>
    let x := s.xfr ch
    if x.st = .running && xfrStream x.cfg && xfrLaneNo x.cfg = n && !streamLaneOk s ch then xfrFail s ch xfrLane else s) s

/-- Reserved encodings of XFR_CFG (R314, R325). -/
def xfrCfgBad (ch : Nat) (v : Word) : Bool :=
  (xfrDirect v && decide (ch % 16 < 4)) || decide (5 ≤ xfrCheck v) || decide (9 ≤ xfrOwner v)

/-- A write to register `o` of channel `ch` (R324). -/
def xfrWrite (s : State) (who : Who) (ch o off : Nat) (v : Word) : State :=
  let x := s.xfr ch
  let locked := violate s (ch / 64) vLockWrite who off v.toNat 0
  let lock (same : Bool) (f : Xfr → Xfr) : State :=
    if xfrOn x.cfg then (if same then s else locked) else s.modXfr ch f
  if o = 0x00 then let w := put x.src 0 32 v.toNat; lock (w = x.src) (fun x => { x with src := w })
  else if o = 0x04 then let w := put x.src 32 32 v.toNat; lock (w = x.src) (fun x => { x with src := w })
  else if o = 0x08 then let w := put x.dst 0 32 v.toNat; lock (w = x.dst) (fun x => { x with dst := w })
  else if o = 0x0C then let w := put x.dst 32 32 v.toNat; lock (w = x.dst) (fun x => { x with dst := w })
  else if o = 0x10 then let w := w32 (wf v 0 24); lock (w = x.count) (fun x => { x with count := w })
  else if o = 0x14 then
    let w := v &&& 0x81FF7F7F
    if xfrCfgBad ch w then refuseWrite s (ch / 64) who off v
    else if !xfrOn x.cfg then s.modXfr ch (fun x => { x with cfg := w })
    else
      let s := if (w ||| 0x80000000) = x.cfg then s else locked
      s.modXfr ch (fun x => xfrIdleApply { x with disable := !xfrOn w })
  else if o = 0x18 then
    let s := if wb v 1 then xfrEnd s ch else s
    if wb v 0 then xfrBegin s who ch off v else s
  else if (xfrReg s ch o).isSome then s
  else violate s (ch / 64) vUnmapped who off v.toNat 0

end Sys2Proof.Machine
end

