-- ==== Sys2Proof/Machine/Wire.lean ====
section
/-! DEFINITION. What a lane does on its pins: the sequence each personality puts on its bus for a command (R174–R185, R190, R191), the
SMBus PEC (R175), the bits and edges of a lead frame (R209), and the drive of every pin (R157, R164, R173, R208). The bit periods of a
running transaction are not followed: `Lane.wire` holds the sequence once the transaction has ended (log 73). -/

namespace Sys2Proof.Machine

/-! ### A command by what it moves -/

/-- The bytes of `n` bits. -/
def bitBytes (n : Nat) : Nat := (n + 7) / 8

/-- The bytes a command sends, and receives. -/
def sendLen (c : LaneCmd) : Nat := match c.op with | .write => c.count | .gang => c.count | .xact => c.wlen | _ => 0
def recvLen (c : LaneCmd) : Nat := match c.op with | .read => c.count | .xact => c.count - c.wlen | _ => 0

/-- A READ that runs ENTDAA (R176). -/
def isDaa (p : Nat) (c : LaneCmd) : Bool := p = 5 && c.op = .read && c.target = 0x107E

/-- Whether the personality has no bus. -/
def isInner (p : Nat) : Bool := p = 1 || p = 0xA || p = 0xB

/-- The command leaves the transaction open (R81). -/
def cmdHolds (p : Nat) (c : LaneCmd) : Bool :=
  bit c.target.toNat 14 && (c.op = .write || c.op = .read || c.op = .gang || (c.op = .xact && (p = 6 || p = 7))) &&
  (isI2c p || p = 5 || p = 6 || p = 7)

/-- The format of a frame lane that a command selects (R185). -/
def frameFormat (op : LaneOp) (target : Nat) : Nat := fld target (if op = .xact then 8 else 0) 2
/-- Its shape. -/
def frameShape (l : Lane) (op : LaneOp) (target : Nat) : Word := tget 0 l.frmShape (frameFormat op target)

/-- What is known of a transaction that has ended: the condition sensed (9 where the lane cut it), the bytes the device took, all bytes received, the PEC byte
received, the arbitration losses before it, whether it went on from a held one, and whether the lane closes it. -/
structure BusEnd where
  cls : Nat
  sent : Nat
  recv : List Byte
  pec : Option Byte := none
  losses : Nat := 0
  cont : Bool := false
  closed : Bool := true

/-! ### Bits -/

/-- The bits of a byte in the order they are sent. -/
def byteBits (lsbFirst : Bool) (b : Byte) : List Bool :=
  let l := (List.range 8).map (bit b.toNat)
  if lsbFirst then l else l.reverse

/-- The bits of bytes. -/
def bytesBits (lsbFirst : Bool) (bs : List Byte) : List Bool := (bs.map (byteBits lsbFirst)).flatten

/-- The `n` low bits of a number, the most significant first. -/
def numBits (n v : Nat) : List Bool := ((List.range n).map (bit v)).reverse

/-- Even or odd parity over bits (R183): code 1 even, 2 odd; none for code 0. -/
def parityBit (code : Nat) (bits : List Bool) : List Bool :=
  if code = 0 then [] else [(bits.filter id).length % 2 = (if code = 1 then 1 else 0)]

/-! ### I2C family (R174, R175, R190) -/

/-- The address bytes of a phase (R79, R82): one, or for a 10-bit device two; a 10-bit read sends the second form after them. -/
def i2cAddress (c : LaneCmd) (read : Bool) : List Byte :=
  let t := c.target.toNat
  if c.op = .xact then [w8 (2 * fld t 8 7 + b2n read)]
  else if bit t 10 then [w8 (0xF0 + 2 * fld t 8 2), w8 (fld t 0 8)] ++ (if read then [w8 (0xF1 + 2 * fld t 8 2)] else [])
  else [w8 (2 * fld t 0 7 + b2n read)]

/-- A byte on the I2C bus with its acknowledge bit: one the lane sends, and one it receives. -/
def i2cSent (acked : Bool) (b : Byte) : List Wire := [.send 1 (byteBits false b), .sample 1 [!acked]]
def i2cTaken (acks : Bool) (b : Byte) : List Wire := [.sample 1 (byteBits false b), .send 1 [!acks]]

/-- The address of a phase on the bus; a 10-bit read has a repeated START before its last byte. -/
def i2cHeader (c : LaneCmd) (read acked : Bool) : List Wire :=
  match i2cAddress c read with
  | [a, b, r] => i2cSent true a ++ i2cSent true b ++ [.restart] ++ i2cSent acked r
  | [a, b] => i2cSent true a ++ i2cSent acked b
  | as => (as.map (i2cSent acked)).flatten

/-- The command has PEC (R175): SMBus or PMBus with PEC, and no quick command. -/
def pecOn (l : Lane) (c : LaneCmd) : Bool :=
  (personality l = 3 || personality l = 4) && wb l.opt 4 && c.count != 0 && (c.op != .control)

/-- The PEC of a command (R175): over its address bytes and data, in bus order, of that command alone. -/
def commandPec (c : LaneCmd) (recv : List Byte) : Byte :=
  let w := c.out.take (sendLen c)
  let ws := if c.op = .read || (c.op = .xact && c.wlen = 0) then [] else i2cAddress c false ++ w
  let rs := if recvLen c = 0 then [] else i2cAddress c true ++ recv
  pecOf (ws ++ rs)

/-- Bytes received: the last one, which a PEC that follows it is, is not acknowledged (R174). -/
def i2cReads (bs : List Byte) (whole : Bool) : List Wire :=
  match bs.getLast? with
  | none => []
  | some b => (bs.dropLast.map (i2cTaken true)).flatten ++ i2cTaken (!whole) b

/-- A command of the I2C family on its bus: START or repeated START, the phases that are not empty, PEC, and STOP but under HOLD. -/
def i2cWire (l : Lane) (c : LaneCmd) (e : BusEnd) : List Wire :=
  let reads := c.op = .read || (c.op = .xact && recvLen c != 0)
  let writes := !(c.op = .read || (c.op = .xact && c.wlen = 0 && recvLen c != 0))
  let tries := (List.replicate e.losses [Wire.start, Wire.lost]).flatten
  let first : List Wire := if e.cont then [.restart] else [.start]
  let stop : List Wire := if e.closed then [.stop] else []
  let body : List Wire :=
    let w := c.out.take e.sent
    if e.cls = 3 then [.lost]
    else if e.cls = 1 then
      if writes && reads && !w.isEmpty then
        i2cHeader c false true ++ (w.map (i2cSent true)).flatten ++ [.restart] ++ i2cHeader c true false
      else i2cHeader c (!writes) false
    else
      let pecSent := writes && !reads && pecOn l c
      let wp : List Wire :=
        if !writes then []
        else i2cHeader c false true ++ (w.map (i2cSent true)).flatten ++
          (if e.cls = 2 then i2cSent false (if e.sent = sendLen c then commandPec c [] else c.out.getD e.sent 0)
           else if pecSent && e.cls = 0 then i2cSent true (commandPec c []) else [])
      let rp : List Wire :=
        if !reads || e.cls = 2 || (writes && e.sent < sendLen c) then []
        else (if writes then [.restart] else []) ++ i2cHeader c true true ++
          i2cReads (e.recv ++ e.pec.toList) (e.cls = 0)
      wp ++ rp
  tries ++ first ++ body ++ (if e.cls = 3 then [] else stop)

/-! ### I3C Basic (R176) -/

/-- A byte of an I3C data phase with its T-bit. -/
def i3cByte (taken : Bool) (b : Byte) : List Wire := [if taken then .sample 1 (byteBits false b) else .send 1 (byteBits false b), .tbit]

/-- One target's answer to ENTDAA: its 8 bytes, then the address assigned. -/
def daaRound (bs : List Byte) : List Wire :=
  [.restart] ++ i2cSent true 0xFD ++ [.sample 1 (bytesBits false (bs.take 8)), .send 1 (byteBits false (bs.getD 8 0)), .sample 1 [false]]

/-- Records of nine bytes: those received and the address assigned. -/
def daaRounds : Nat → List Byte → List Wire
  | 0, _ => []
  | fuel + 1, bs => if bs.length < 9 then [] else daaRound bs ++ daaRounds fuel (bs.drop 9)

/-- A command of an I3C lane on its bus (R176): ENTDAA with each target's record in `recv`, a CCC after 0x7E with the direct phase at the
target, or a private transfer. The code 0x07 of ENTDAA is PRESUMED from the I3C family (log 73). -/
def i3cWire (c : LaneCmd) (e : BusEnd) : List Wire :=
  let t := c.target.toNat
  let stop : List Wire := if e.closed then [.stop] else []
  let first : List Wire := if e.cont then [.restart] else [.start]
  let addr := if c.op = .xact then fld t 8 7 else fld t 0 7
  let ccc := (c.op != .read && c.op != .xact && bit t 13) || (c.op = .xact && bit t 15)
  let header (a : Nat) (read acked : Bool) : List Wire := i2cSent acked (w8 (2 * a + b2n read))
  let sent := c.out.take e.sent
  let body : List Wire :=
    if isDaa 5 c then header 0x7E false (e.cls != 1) ++ (if e.cls = 1 then [] else i3cByte false 0x07 ++ daaRounds 32 e.recv)
    else if ccc then
      header 0x7E false true ++
        (if c.op = .xact || addr = 0x7E then (sent.map (i3cByte false)).flatten
         else (sent.take 1).flatMap (i3cByte false) ++ [.restart] ++ header addr false (e.cls != 1) ++ (sent.drop 1).flatMap (i3cByte false)) ++
        (if c.op = .xact && recvLen c != 0 then [.restart] ++ header addr true (e.cls != 1) ++ e.recv.flatMap (i3cByte true) else [])
    else if e.cls = 1 then header addr (c.op = .read || (c.op = .xact && c.wlen = 0)) false
    else
      (if c.op = .read || (c.op = .xact && c.wlen = 0) then [] else header addr false true ++ sent.flatMap (i3cByte false)) ++
      (if recvLen c = 0 && c.op != .read then []
       else (if c.op = .xact && c.wlen != 0 then [.restart] else []) ++ header addr true true ++ e.recv.flatMap (i3cByte true))
  first ++ body ++ stop

/-! ### SPI (R178) -/

/-- CS_GAP in half periods (R172). -/
def csGap (l : Lane) : Nat := if wf l.opt 4 4 = 0 then 1 else wf l.opt 4 4

/-- A command of an SPI lane on its bus: chip select with its gaps, and the phases on one or four lines. -/
def spiWire (l : Lane) (c : LaneCmd) (e : BusEnd) : List Wire :=
  let t := c.target.toNat
  let lsb := wb l.opt 2
  let bits := bytesBits lsb
  let fill (k : Nat) : List Byte := List.replicate k (w8 (wf l.opt 8 8))
  let sent := c.out.take e.sent
  let lines (q : Bool) : Nat := if q then 4 else 1
  let read (q : Bool) (bs : List Byte) : List Wire :=
    if q then [.sample 4 (bits bs)] else [.swap (bits (fill bs.length)) (bits bs)]
  let body : List Wire :=
    match c.op with
    | .read => read (fld t 0 2 = 2) e.recv
    | .xact =>
      if bit t 15 then [.swap (bits sent) (bits e.recv)]
      else
        let one := if bit t 8 then sent.take 1 else []
        [.send 1 (bits one), .send (lines (bit t 9)) (bits (sent.drop one.length))] ++
          (if fld t 11 3 = 0 then [] else [.free (2 * fld t 11 3)]) ++ read (bit t 10) e.recv
    | _ => [.send (lines (fld t 0 2 = 2)) (bits sent)]
  (if e.cont then [] else [.clock (wb l.opt 1) (wb l.opt 0), .select, .gap (csGap l)]) ++ body ++
    (if e.closed then [.gap (csGap l), .deselect, .gap (csGap l)] else [])

/-! ### UART and MDIO (R179, R180) -/

/-- A character on the line: start bit, data, parity, and one or two stop bits (R172, R179). -/
def uartChar (l : Lane) (b : Byte) : List Bool :=
  let d := (byteBits true b).take (if wb l.opt 0 then 8 else 7)
  [false] ++ d ++ parityBit (wf l.opt 1 2) d ++ (if wb l.opt 3 then [true, true] else [true])

/-- A UART command on the line. -/
def uartWire (l : Lane) (c : LaneCmd) (e : BusEnd) : List Wire :=
  if c.op = .control then (if c.target = 0x0110 then [.breakLow (u16 c.out 0)] else [])
  else if c.op = .read then e.recv.map (fun b => .sample 1 (byteBits true b))
  else (c.out.take e.sent).map (fun b => .send 1 (uartChar l b))

/-- One MDIO frame (R180): PREAMBLE ones, start and operation bits, two 5-bit addresses, turnaround, and 16 bits written or read; the
codes are those of clauses 22 and 45, which the manual names (PRESUMED, log 73). -/
def mdioFrame (l : Lane) (c45 : Bool) (op phy reg : Nat) (data : Nat ⊕ Nat) : List Wire :=
  let head := List.replicate (wf l.opt 0 6) true ++ numBits 2 (if c45 then 0 else 1) ++ numBits 2 op ++ numBits 5 phy ++ numBits 5 reg
  match data with
  | .inl v => [.send 1 (head ++ [true, false] ++ numBits 16 v)]
  | .inr v => [.send 1 head, .free 2, .sample 1 (numBits 16 v)]

/-- The 16-bit words of bytes in memory order. -/
def halfWords : Nat → List Byte → List Nat
  | 0, _ => []
  | fuel + 1, bs => if bs.length < 2 then [] else u16 bs 0 :: halfWords fuel (bs.drop 2)

/-- An MDIO command on its bus; `recv` is in memory order. A target that does not answer a read gives ones (`0xFFFF` sampled). -/
def mdioWire (l : Lane) (c : LaneCmd) (e : BusEnd) : List Wire :=
  let upTo (k : Nat) (w : List Wire) : List Wire := if k ≤ e.sent then w else []
  let t := c.target.toNat
  let c45 := bit t 15
  let words := halfWords e.recv.length e.recv
  let out (i : Nat) : Nat := u16 c.out i
  let missed (f : Nat ⊕ Nat → List Wire) : List Wire := if e.cls = 1 then (f (.inr 0xFFFF)).dropLast else []
  match c.op with
  | .read =>
    let f := mdioFrame l c45 2 (fld t 5 5) (fld t 0 5)
    words.flatMap (fun v => f (.inr v)) ++ missed f
  | .xact =>
    if t = 2 then
      let f := mdioFrame l false 2 (fld (u8 c.out 0) 0 5) (fld (u8 c.out 1) 0 5)
      words.flatMap (fun v => f (.inr v)) ++ missed f
    else
      let f := mdioFrame l true 3 (fld (u8 c.out 0) 0 5) (fld (u8 c.out 1) 0 5)
      upTo 4 (mdioFrame l true 0 (fld (u8 c.out 0) 0 5) (fld (u8 c.out 1) 0 5) (.inl (out 2))) ++
        words.flatMap (fun v => f (.inr v)) ++ missed f
  | _ =>
    if c45 then
      upTo 2 (mdioFrame l true 0 (fld t 5 5) (fld t 0 5) (.inl (out 0))) ++
        (if bit t 13 then [] else upTo 4 (mdioFrame l true 1 (fld t 5 5) (fld t 0 5) (.inl (out 2))))
    else upTo 2 (mdioFrame l false 1 (fld t 5 5) (fld t 0 5) (.inl (out 0)))

/-! ### Frame lanes (R183–R185) -/

/-- The clocks of TRAIL of format 0, or 8: the recovery of a frame lane (R190). -/
def frameRecovery (l : Lane) : Nat := if wf (tget 0 l.frmShape 0) 27 4 = 0 then 8 else wf (tget 0 l.frmShape 0) 27 4

/-- A frame command on its pins: preamble, body, parity, turnaround, response and trailer; a data chain that ended short ends with its
body (R185). `recv` is the response as stored. -/
def frameWire (l : Lane) (c : LaneCmd) (e : BusEnd) : List Wire :=
  let w := frameShape l c.op c.target.toNat
  let pre := numBits (wf w 0 6) l.frmPre.toNat
  let want := if c.op = .read then 0 else wf w 6 9
  let body := (bytesBits (wb l.frmCfg 9) (c.out.take e.sent)).take want
  let drive := pre ++ body
  let whole := body.length = want
  [.clock (wb l.frmCfg 7) (wb l.frmCfg 8), .send 1 (drive ++ (if whole then parityBit (wf w 15 2) drive else []))] ++
    (if !whole || (e.cls = 9 && e.recv.isEmpty) then []
     else (if wf w 17 3 = 0 then [] else [.free (wf w 17 3)]) ++
       [.sample 1 ((bytesBits false e.recv).take (wf w 20 7))] ++ (if wf w 27 4 = 0 then [] else [.free (wf w 27 4)]))

/-- A response as it is stored: the bytes of RESP_BITS bits, zero-padded at their end (R183). -/
def responseFits (w : Word) (recv : List Byte) : Bool :=
  let bits := bytesBits false recv
  recv.length = bitBytes (wf w 20 7) && (bits.drop (wf w 20 7)).all (!·)

/-- The first response byte has the acknowledge pattern (R185). -/
def ackFits (l : Lane) (op : LaneOp) (target : Nat) (recv : List Byte) : Bool :=
  let a := tget 0 l.frmAck (frameFormat op target)
  !wb (frameShape l op target) 31 || wf (frameShape l op target) 20 7 = 0 || fld (u8 recv 0 &&& wf a 0 8) 0 8 = wf a 8 8

/-! ### Recovery and endings (R190, R191) -/

/-- The recovery of a personality on its pins: SCL pulses, then STOP where SDA came high; CS_N released; preamble ones; clocks with data
released. -/
def recoveryWire (l : Lane) (pulses : Nat) (good : Bool) : List Wire :=
  let p := personality l
  if isI2c p || p = 5 then (if pulses = 0 then [] else [.free pulses]) ++ (if good then [.stop] else [])
  else if p = 6 || p = 7 then [.deselect, .gap (csGap l)]
  else if p = 9 then [.send 1 (List.replicate 32 true)]
  else if p = 0xC then [.free (frameRecovery l)]
  else []

/-- How a lane ends a transaction it holds or cuts (R134, R191). -/
def closingWire (l : Lane) : List Wire :=
  let p := personality l
  if isI2c p || p = 5 then [.stop]
  else if p = 6 || p = 7 then [.gap (csGap l), .deselect, .gap (csGap l)]
  else []

/-- What command `c` put on the bus of its lane. -/
def commandWire (l : Lane) (c : LaneCmd) (e : BusEnd) : List Wire :=
  let p := personality l
  if isInner p then []
  else if p = 8 then uartWire l c e
  else if c.op = .control || c.op = .sense then []
  else if isI2c p then i2cWire l c e
  else if p = 5 then i3cWire c e
  else if p = 6 || p = 7 then spiWire l c e
  else if p = 9 then mdioWire l c e
  else if p = 0xC then frameWire l c e
  else []

/-! ### Pins (R157, R164, R169, R173) -/

/-- The filter of a lane's inputs (R169): the I2C family, the mailbox personalities and I3C in its open-drain phases use 5 ticks, any other
what the lane's FILTER says. Between transactions an I3C bus is in an open-drain phase (DEDUCED, log 73). -/
def pinFilter (s : State) (n : Nat) (openPhase : Bool) : Nat :=
  let l := s.lane (governor s n)
  let p := personality l
  if isI2c p || isTargetMailbox p || (p = 5 && (openPhase || l.txn.isNone)) then 5
  else match wf (s.lane n).pins 8 2 with
    | 0 => 0
    | 1 => 5
    | 2 => 10
    | _ => 100

/-- The place of a pin among those that its governor drives: 0 and 1 the even lane's A and B, 2 and 3 the odd lane's, 4 and 5 the strobe
lane's. -/
def pinRole (s : State) (m : Nat) (pinB : Bool) : Nat :=
  (match strobeOf s m with | some _ => 4 | none => if isPartner s m then 2 else 0) + b2n pinB

/-- The PWM output at the present tick (R181, R182). -/
def pwmHigh (s : State) (l : Lane) : Bool :=
  let active : Bool := if l.pwmForce = 1 then true else if l.pwmForce = 2 then false else decide (s.edges - l.pwmFrom < wf l.pwmNow 16 16)
  active != wb l.opt 0

/-- The drive that personality `p` gives a pin of `role` by itself (R157, R173): the idle state of a bus, with chip select low while a
transaction runs or is held and SCL low while one is held; a GPIO output low (log 21). -/
def roleDrive (s : State) (g : Nat) (role : Nat) : Drive :=
  let l := s.lane g
  let p := personality l
  let to_ (b : Bool) : Drive := if b then .high else .low
  let taken := l.txn.isSome || l.held.isSome
  let kept := l.held.isSome && l.txn.isNone
  if !laneOn l then .hiz
  else if p = 1 then (if wf l.opt (2 * role) 2 = 0 then .hiz else .low)
  else if isI2c p then (if role = 0 && kept then .low else .hiz)
  else if p = 5 then (if role = 0 then to_ (!kept) else .hiz)
  else if p = 6 then
    (if role = 0 then to_ (wb l.opt 1) else if role = 1 then to_ (!taken) else if role = 2 then to_ (Config.idleLevel g role) else .hiz)
  else if p = 7 then (if role = 4 then to_ (wb l.opt 1) else if role = 5 then to_ (!taken) else .hiz)
  else if p = 8 then
    (if role = 0 then to_ (!(match l.txn with | some c => c.op = .control && c.target = 0x0110 | none => false)) else .hiz)
  else if p = 9 then (if role = 0 then to_ (Config.idleLevel g role) else .hiz)
  else if p = 0xA then (if role = 0 then to_ (pwmHigh s l) else .hiz)
  else if p = 0xC then (if role = wf l.frmCfg 0 2 then to_ (wb l.frmCfg 7) else .hiz)
  else .hiz

/-- The state that a pin holds apart from its personality: a GPIO level, a stroke's, SAFE_STATE's or RELEASE's. -/
def pinHeld (s : State) (n : Nat) (pinB : Bool) : Option Drive := if pinB then (s.lane n).driveB else (s.lane n).driveA

/-- The drive of a pin of lane `n`. -/
def pinDrive (s : State) (n : Nat) (pinB : Bool) : Drive :=
  match pinHeld s n pinB with
  | some d => d
  | none => roleDrive s (governor s n) (pinRole s n pinB)

end Sys2Proof.Machine
end

