-- ==== Sys2Proof/Machine/RegWrite.lean ====
section
/-! DEFINITION. Writes to the registers of a die's port space (R56–R73): the part of every write that stays within the
register's own block. `Fabric` and what follows it add the writes whose effect reaches further. -/

namespace Sys2Proof.Machine

/-- A write to an unmapped address (R72). -/
def unmappedWrite (s : State) (d : Nat) (who : Who) (off : Nat) (v : Word) : State := violate s d vUnmapped who off v.toNat 0

/-! ### PKG (R57, R64–R68, R422) -/

/-- The region's window cache drops what PKG_WIN_INVAL names (R67). -/
def cacheDropped (inval : Word) (x : Region) : Region :=
  { x with cache := if wb inval 8 then [] else x.cache.filter (fun e => e.1 != wf inval 0 8), dropPending := false }

/-- A write to PKG_WIN_INVAL (R67): a region in RUN drops within 50 ticks (WINDOW_CACHE_DROP), one that sleeps counts at
once, one beyond a bridge that is down when the bridge returns. -/
def winInval (s : State) (who : Who) (d : Nat) (v : Word) : State :=
  if wb s.pkg.inval 31 then refuseWrite s d who 0x44 v
  else
    let w := w32 (wf v 0 9)
    let s := s.each (List.range 8) (fun s r =>
      let far := r / 4 != s.pkg.custody && !arcUp s
      if far || ((s.region r).power = .run && isLost s (r / 4) = false) then s.modRegion r (fun x => { x with dropPending := true })
      else s.modRegion r (cacheDropped w))
    let waits := (List.range 8).any (fun r => (s.region r).dropPending)
    s.modPkg (fun p => { p with inval := put w 31 1 (b2n waits) })

/-- The window entry that 16 bytes spell, reserved bits read as 0 (R64, R71). -/
def winOf (b : List Byte) : WinEntry := { lo := put (w64 (u64 b 0)) 7 5 0, hi := put (w64 (u64 b 8)) 0 12 0 }

/-- An entry R65 calls a reserved encoding. -/
def winBad (e : WinEntry) : Bool := wb e.lo 63 || wb e.hi 63 || decide (wf e.hi 12 52 < wf e.lo 12 52)

/-- Byte `i` of a window entry as a committing write forms it (R65). -/
def winByte (old : List Byte) (staged : Tab (Option Byte)) (first : Nat) (bs : List Byte) (i : Nat) : Byte :=
  if first ≤ i && i < first + bs.length then bs.getD (i - first) 0
  else match tget none staged i with
    | some b => b
    | none => old.getD i 0

/-- Bytes written to entry `e` of the window table through die `d`'s range (R65). -/
def winWrite (s : State) (who : Who) (d e first : Nat) (bs : List Byte) : State :=
  let staged := match (s.die d).winStage with
    | some (k, t) => if k = e then t else []
    | none => []
  if first + bs.length ≤ 12 then
    s.modDie d (fun x => { x with
      winStage := some (e, (enumL first bs).foldl (fun t b => tset none t b.1 (some b.2)) staged) })
  else
    let old := tget {} s.pkg.windows e
    let b := (List.range 16).map (winByte (leBytes 8 old.lo.toNat ++ leBytes 8 old.hi.toNat) staged first bs)
    let s := s.modDie d (fun x => { x with winStage := none })
    if winBad (winOf b) then refuseWrite s d who (0x1000 + 16 * e + first) (w32 (leNat (bs.take 4)))
    else
      let drop (x : Die) : Die := match x.winStage with
        | some (k, _) => if k = e then { x with winStage := none } else x
        | none => x
      ((s.modDie 0 drop).modDie 1 drop).modPkg (fun p => { p with windows := tset {} p.windows e (winOf b) })

/-- A write to the PKG block through die `d`'s range; in SPLIT the half without custody ignores it (R57). -/
def pkgWrite (s : State) (who : Who) (d o : Nat) (v : Word) : State :=
  if s.pkg.split && s.pkg.custody != d then violate s d vSplitWrite who o v.toNat 0
  else if o = 0x40 then s.modPkg (fun p => { p with enforce := w32 (wf v 0 8) })
  else if o = 0x44 then winInval s who d v
  else if o = 0x104 then s.modPkg (fun p => { p with holdLost := wb v 0 })
  else if 0x1000 ≤ o then winWrite s who d ((o - 0x1000) / 16) (o % 16) (leBytes 4 v.toNat)
  else if (pkgReg s d o).isSome then s
  else unmappedWrite s d who o v

/-! ### BBX (R419, R420, R425) -/

/-- UNFREEZE: recording resumes after the newest record; a restored copy is consumed (R419, R420). -/
def bbxResume (s : State) (d : Nat) : State :=
  withSourceEdge s (514 + 8 * d) (fun s => s.modDie d (fun x => { x with bbx := { x.bbx with
    frozen := false, cause := 0, post := none, restored := false
    savedRecords := if x.bbx.restored then 0 else x.bbx.savedRecords
    copy := if x.bbx.restored then none else x.bbx.copy } }))

/-- A write to the BBX block. -/
def bbxWrite (s : State) (who : Who) (d o : Nat) (v : Word) : State :=
  if o = 0x04 then
    if wb v 0 && wb v 1 then refuseWrite s d who (0x7000 + o) v
    else if wb v 0 then bbxResume s d
    else if wb v 1 then bbxFreezeBox s d 4
    else s
  else if o = 0x08 then s.modDie d (fun x => { x with bbx := { x.bbx with trigger := w32 (wf v 0 20) } })
  else if (bbxReg s d o).isSome then s
  else unmappedWrite s d who (0x7000 + o) v

/-! ### VTX (R200–R203) -/

/-- A write to VTX_TMR_CTRL of timer `t` (R201, R203). -/
def timerCtrl (s : State) (who : Who) (t off : Nat) (v : Word) : State :=
  let run := wb v 0
  let periodic := wb v 1
  if run && (s.timer t).period = 0 then refuseWrite s (t / 16) who off v
  else s.modTimer t (fun x => { x with
    run := run, periodic := periodic, loaded := if run then x.period else x.loaded, left := if run then x.period else 0 })

/-- The filter before the fabric of an input vertex (R198): which phase of a running I3C transaction the change meets is free. -/
def inputFilter (s : State) (v : Nat) (phase : Bool) : Nat :=
  if v < 768 then pinFilter s (v / 2) phase else wf (tget 0 s.fvCfg (v - 768)) 4 4

/-- The inversion of an input vertex changes (R200): it acts from the next tick and then passes the filter and the two-flop synchroniser;
one undone before the filter has seen `k` samples of it never reaches the fabric (R514). -/
def turnBegins (s : State) (v : Nat) : State :=
  let (b, s) := if v < 768 && personality (s.lane (governor s (v / 2))) = 5 && (s.lane (governor s (v / 2))).txn.isSome then s.freeBit else (false, s)
  let k := max (inputFilter s v b) 1
  match s.turned.find? (fun t => t.vertex = v && t.inv && decide (s.edges < t.since + k)) with
  | some t => { s with turned := s.turned.erase t }
  | none => { s with turned := s.turned ++ [{ vertex := v, since := s.edges, due := s.edges + 2 + k, inv := true }] }

/-- A write to the VTX block (R200–R203). -/
def vtxWrite (s : State) (who : Who) (d o : Nat) (v : Word) : State :=
  if o < 0x40 then
    let i := 16 * d + o / 4
    let w := w32 (v.toNat &&& 0xF1)
    let turn := wb w 0 != wb (tget 0 s.fvCfg i) 0
    let s := { s with fvCfg := tset 0 s.fvCfg i w }
    if turn then turnBegins s (768 + i) else s
  else if o < 0x70 then
    let i := 12 * d + (o - 0x40) / 4
    let old := tget 0 s.pinPol i
    (((List.range 32).filter (fun b => wb v b != wb old b)).map (32 * i + ·)).foldl turnBegins { s with pinPol := tset 0 s.pinPol i v }
  else if 0x200 ≤ o && o < 0x300 && o % 16 = 0 then timerCtrl s who (16 * d + (o - 0x200) / 16) (0x10000 + o) v
  else if 0x200 ≤ o && o < 0x300 && o % 16 = 4 then s.modTimer (16 * d + (o - 0x200) / 16) (fun x => { x with period := v })
  else if (vtxReg s d o).isSome then s
  else unmappedWrite s d who (0x10000 + o) v

/-! ### MTR and SNS (R231, R232, R235, R251) -/

/-- A write to register `o` of meter `m`. -/
def mtrWrite (s : State) (who : Who) (m o off : Nat) (v : Word) : State :=
  if o < 0x20 then meterSetWrite s who m (o / 4) off v
  else if o = 0x40 then (if wb v 0 then meterClearRequest s m else s)
  else if (mtrReg s m o).isSome then s
  else unmappedWrite s (m / 64) who off v

/-- A window's register after a write (R231): a change of THRESHOLD, HYST or MODE holds the level for 10 ticks. -/
def winTaken (now : Nat) (w : Window) (v : Word) : Window :=
  { w with reg := v, hold := if wf w.reg 0 20 = wf v 0 20 then w.hold else if wf v 18 2 = 0 then none else some (now + 10) }

/-- A write to SNS_WINw of input `i` (R231, R235). OFF releases the vertex in the next tick. -/
def snsWinSet (s : State) (who : Who) (i k off : Nat) (v : Word) : State :=
  if wf v 18 2 = 3 then refuseWrite s (i / 32) who off v
  else
    let v := w32 (wf v 0 24)
    let s := s.modInput i (fun x =>
      if k = 0 then { x with win0 := winTaken s.edges x.win0 v } else { x with win1 := winTaken s.edges x.win1 v })
    if wf v 18 2 = 0 then { s with turned := s.turned ++ [{ vertex := 800 + 2 * i + k, since := s.edges, due := s.edges + 1, inv := false }] } else s

/-- A calibration of the die's converters starts (R232): it takes 40 ticks. A START is ignored while one runs. -/
def calStart (s : State) (d : Nat) : State :=
  s.modDie d (fun x => if x.calBusy then x else { x with calBusy := true, calEnd := s.edges + 40 })

/-- A write to the SNS block. -/
def snsWrite (s : State) (who : Who) (d o : Nat) (v : Word) : State :=
  let off := 0x34000 + o
  if o < 0x2000 then
    let i := 32 * d + o / 256
    match o % 256 with
    | 0x00 => s.modInput i (fun x => { x with gain := v })
    | 0x04 => s.modInput i (fun x => { x with offset := w32 (wf v 0 16) })
    | 0x08 => snsWinSet s who i 0 off v
    | 0x0C => snsWinSet s who i 1 off v
    | 0x18 => withSourceEdge s (513 + 8 * d) (fun s => s.modInput i (fun x => { x with fault := x.fault &&& ~~~v }))
    | _ => if (snsReg s d o).isSome then s else unmappedWrite s d who off v
  else if o = 0x2000 then (if wb v 0 then calStart s d else s)
  else if (snsReg s d o).isSome then s
  else unmappedWrite s d who off v

/-! ### LNK (R456) -/

/-- A waiting LNK_CFG.TX_PRESET comes into force at the port's idle point, any moment at which it is not UP. -/
def presetApplied (p : LinkPort) : LinkPort :=
  match p.cfgNew with
  | some w => if p.st = .up then p else { p with cfg := put w 0 1 (wf p.cfg 0 1), cfgNew := none }
  | none => p

/-- TX_PRESET of a write to LNK_CFG (R456). -/
def lnkPreset (s : State) (p : Nat) (v : Word) : State :=
  s.modPort p (fun x => presetApplied { x with cfgNew := some (w32 (v.toNat &&& 0xF1)) })

/-- A write to link port `p` but for ENABLE. -/
def lnkWrite (s : State) (who : Who) (d p o off : Nat) (v : Word) : State :=
  if o = 0x00 then (if 9 < wf v 4 4 then refuseWrite s d who off v else lnkPreset s p v)
  else if (lnkReg s d p o).isSome || o = 0x1C then s
  else unmappedWrite s d who off v

/-! ### FN (R259, R260, R265, R266) -/

/-- The port-space offset of function register `o` (R56). -/
def fnOff (f o : Nat) : Nat := 0x50000 + 0x4000 * (f % 4) + o

/-- A ring address that R266 allows: a multiple of the smaller of the ring's size and 4 KiB, on no BAR. -/
def ringOk (s : State) (a bytes : Nat) : Bool := a % min bytes 4096 = 0 && (formFail a bytes).isNone && !onChip a && !barHit s a bytes

/-- The head mirror of a queue is written (R274): [15:0] HEAD, [16] ERROR. A write that a check of R144 refuses is not made. -/
def mirrorWrite (s : State) (f q : Nat) (error : Bool) : State :=
  let x := s.queue f q
  match windowFail s (fnParty s f) x.mirror.toNat 4 rightWrite with
  | (some _, s) => s
  | (none, s) => if !portUp s (fnPort f) then s else postWrite s f .mirror x.mirror.toNat (leBytes 4 (x.head + 65536 * b2n error)) true

/-- Tags of function `f` whose START lies in queue `q` at an entry that `gone` names leave quarantine (R141). -/
def quarPassed (s : State) (f q : Nat) (gone : Nat → Bool) : State :=
  s.modFunc f (fun x => { x with quar := x.quar.filter (fun e => !(e.src = .queue f q && gone e.idx)) })

/-- The head of a running queue advances over the entries that have completed at its front, and the mirror is written (R274). -/
def headAdvance (s : State) (f q : Nat) : State :=
  let x := s.queue f q
  let gone := x.flight.takeWhile (·.done)
  match gone.getLast? with
  | none => s
  | some e =>
    let head := (e.idx + e.len) % 2 ^ x.sizeLog2
    let s := s.modQueue f q (fun x => { x with head := head, flight := x.flight.dropWhile (·.done) })
    let s := mirrorWrite (quarPassed s f q (fun i => gone.any (fun e => e.idx = i))) f q false
    if x.notify then raisePulse s f q kindQueue head else s

/-- A queue in ERROR whose entries before INDEX have all completed publishes INDEX with ERROR, and its source is raised whatever
NOTIFY says (R276). -/
def errorPublish (s : State) (f q : Nat) : State :=
  let x := s.queue f q
  let before := x.flight.takeWhile (fun e => e.idx != x.index)
  if x.errPosted || !before.all (·.done) then s
  else
    let s := s.modQueue f q (fun x => { x with
      head := x.index, errPosted := true, flight := x.flight.dropWhile (fun e => e.idx != x.index) })
    let s := mirrorWrite (quarPassed s f q (fun i => before.any (fun e => e.idx = i))) f q true
    raisePulse s f q kindQueue (x.index + 65536)

/-- The head mirror of a queue is brought up to date (R274, R276). -/
def headPublish (s : State) (f q : Nat) : State :=
  match (s.queue f q).st with
  | .absent => s
  | .running => headAdvance s f q
  | .error | .destroying => errorPublish s f q

/-- The admin queue becomes ABSENT at its idle point, every entry in flight completed (R265); its last advance is published. -/
def adminStopped (s : State) (f : Nat) : State :=
  let x := s.func f
  match x.adminNew with
  | none => s
  | some v =>
    if (s.queue f 0).flight.all (·.done) then
      ((headPublish (quarPassed s f 0 (fun _ => true)) f 0).modFunc f (fun x => { x with
        adminCtrl := put v 0 1 0, adminNew := none })).modQueue f 0 (fun _ => {})
    else s

/-- ENABLE goes from 0 to 1 (R265): head and tail 0, the head mirror written as 0. -/
def adminStarted (s : State) (f : Nat) : State :=
  let x := s.func f
  let s := s.modQueue f 0 (fun _ => { st := .running, ring := x.adminBase, mirror := x.adminMirror, sizeLog2 := wf x.adminCtrl 8 4 })
  mirrorWrite s f 0 false

/-- A write to FN_ADMIN_CTRL (R260, R265). -/
def adminCtrlWrite (s : State) (who : Who) (f : Nat) (v : Word) : State :=
  let x := s.func f
  let d := fnPort f
  let size := wf v 8 4
  let w := w32 (v.toNat &&& 0xF01)
  if size < 4 || 12 < size then refuseWrite s d who (fnOff f 0x20) v
  else if wb x.adminCtrl 0 then
    let s := if size = wf x.adminCtrl 8 4 then s else violate s d vLockWrite who (fnOff f 0x20) v.toNat 0
    if wb w 0 then s.modFunc f (fun x => { x with adminNew := none })
    else adminStopped (s.modFunc f (fun x => { x with adminNew := some (put x.adminCtrl 0 1 0) })) f
  else if wb w 0 && (!x.ready || !ringOk s x.adminBase.toNat (64 * 2 ^ size) || x.adminMirror.toNat % 4 != 0) then
    refuseWrite s d who (fnOff f 0x20) v
  else
    let s := s.modFunc f (fun x => { x with adminCtrl := w })
    if wb w 0 then adminStarted s f else s

/-- A write to register `o` of function `f`'s control registers (R259). -/
def fnWrite (s : State) (who : Who) (f o : Nat) (v : Word) : State :=
  let x := s.func f
  let d := fnPort f
  let lock (same : Bool) (g : Func → Func) : State :=
    if wb x.adminCtrl 0 then (if same then s else violate s d vLockWrite who (fnOff f o) v.toNat 0) else s.modFunc f g
  if o = 0x10 then let w := put x.adminBase 0 32 v.toNat; lock (w = x.adminBase) (fun x => { x with adminBase := w })
  else if o = 0x14 then let w := put x.adminBase 32 32 v.toNat; lock (w = x.adminBase) (fun x => { x with adminBase := w })
  else if o = 0x18 then let w := put x.adminMirror 0 32 v.toNat; lock (w = x.adminMirror) (fun x => { x with adminMirror := w })
  else if o = 0x1C then let w := put x.adminMirror 32 32 v.toNat; lock (w = x.adminMirror) (fun x => { x with adminMirror := w })
  else if o = 0x20 then adminCtrlWrite s who f v
  else if (fnReg s f o).isSome || (match fnReg s f (o - 4) with | some (.wide _) => true | _ => false) then s
  else unmappedWrite s d who (fnOff f o) v

/-! ### CLU, CHD, ARB (R25, R152, R227, R335) -/

/-- The cluster's idle point: no program slot it serves, adopted ones included (R152), is ACTIVE (R70). -/
def clusterIdle (s : State) (c : Nat) : Bool := !s.slots.any (fun e => slotServer s e.1 = c && e.2.st = .active)

/-- A waiting CLU_SCHED comes into force at the idle point. -/
def schedApplied (s : State) (c : Nat) : State :=
  match (s.cluster c).schedNew with
  | some w => if clusterIdle s c then s.modCluster c (fun x => { x with sched := w, schedNew := none }) else s
  | none => s

/-- A write to the CLU block of cluster `c`. -/
def cluWrite (s : State) (who : Who) (c o off : Nat) (v : Word) : State :=
  if o = 0x00 then
    let i3c := (rangeL (12 * c) 12).any (fun n => laneOn (s.lane n) && (personality (s.lane n) = 5 || personality (s.lane n) = 0xE))
    if wf v 0 2 = 3 && i3c then refuseWrite s (c / 16) who off v
    else s.modCluster c (fun x => { x with voltsNew := some (BitVec.ofNat 2 (wf v 0 2)) })
  else if o = 0x40 then
    if 32 < wf v 0 6 then refuseWrite s (c / 16) who off v
    else schedApplied (s.modCluster c (fun x => { x with schedNew := some (w32 (wf v 0 6)) })) c
  else if (cluReg s c o).isSome || (match cluReg s c (o - 4) with | some (.wide _) => true | _ => false) then s
  else unmappedWrite s (c / 16) who off v

/-- CHD_CTRL.CLEAR (R227). -/
def chordCleared (s : State) (c : Nat) : State :=
  s.modChord c (fun x => { x with firings := 0, suppressed := 0, claimsLost := 0 })

/-- CHD_CTRL.REARM (R227): a SPENT chord becomes ARMED. -/
def chordRearm (s : State) (who : Who) (c off : Nat) (v : Word) : State :=
  if (s.chord c).st = .spent then armEntry s (if isStandby s c then twinChord c else c)
  else refuseWrite s (chordDie c) who off v

/-- A write to the CHD block. -/
def chdWrite (s : State) (who : Who) (c o off : Nat) (v : Word) : State :=
  if o = 0x04 then
    let s := if wb v 1 then chordCleared s c else s
    if wb v 0 then chordRearm s who c off v else s
  else if (chdReg s c o).isSome || (match chdReg s c (o - 4) with | some (.wide _) => true | _ => false) then s
  else unmappedWrite s (chordDie c) who off v

/-- ARB_CTRL.CLEAR (R335). -/
def arbCleared (s : State) (r : Nat) : State :=
  s.modRegion r (fun x => { x with arb := { x.arb with dead := 0, preempts := 0, grants := [], maxWait := [], waitCycles := [] } })

/-- A write to the ARB block of region `r`. -/
def arbWrite (s : State) (who : Who) (r o off : Nat) (v : Word) : State :=
  if o = 0x00 then s.modRegion r (fun x => { x with arb := { x.arb with cfg := w32 (wf v 0 10) } })
  else if o = 0x04 then (if wb v 0 then arbCleared s r else s)
  else if 0x40 ≤ o && o < 0xA0 then
    let q := (o - 0x40) / 4
    if wb v 3 && q != 20 && q != 21 then refuseWrite s (r / 4) who off v
    else s.modRegion r (fun x => { x with arb := { x.arb with prio := tset (prioReset q) x.arb.prio q (w32 (wf v 0 4)) } })
  else if (arbReg s r o).isSome || (match arbReg s r (o - 4) with | some (.wide _) => true | _ => false) then s
  else unmappedWrite s (r / 4) who off v

/-! ### The port space -/

/-- A write to register `o` of lane `n`, and the end of a lane stream it leaves without its lane (R166, R323). -/
def laneRegWrite (s : State) (who : Who) (n o off : Nat) (v : Word) : Wrote :=
  let r := laneWrite s who n o off v
  (r.1, laneStreams r.2 n)

/-- A write in the die blocks. -/
def dieBlockWrite (s : State) (who : Who) (d off : Nat) (v : Word) : State :=
  if off < 0x2000 then pkgWrite s who d off v
  else if 0x7000 ≤ off && off < 0x8000 then bbxWrite s who d (off - 0x7000) v
  else if 0x10000 ≤ off && off < 0x20000 then vtxWrite s who d (off - 0x10000) v
  else if 0x20000 ≤ off && off < 0x30000 then evcWrite s who d (off - 0x20000) v
  else if 0x30000 ≤ off && off < 0x34000 then mtrWrite s who (64 * d + (off - 0x30000) / 256) (off % 256) off v
  else if 0x34000 ≤ off && off < 0x40000 then snsWrite s who d (off - 0x34000) v
  else if 0x40000 ≤ off && off < 0x50000 then lnkWrite s who d (2 * d + (off - 0x40000) / 0x8000) (off % 0x8000) off v
  else if 0x50000 ≤ off && off < 0x60000 && off % 0x4000 < 0x1000 then
    fnWrite s who (4 * d + (off - 0x50000) / 0x4000) (off % 0x4000) v
  else if portMapped s d off then s
  else unmappedWrite s d who off v

/-- A write in the window of local region `q`. -/
def regionBlockWrite (s : State) (who : Who) (d q o off : Nat) (v : Word) : State :=
  let r := 4 * d + q
  let c := 4 * r + o / 0x40000
  let k := o % 0x40000
  if 0x30000 ≤ o && o < 0x31000 then (if (rgnReg s r (o - 0x30000)).isSome then s else unmappedWrite s d who off v)
  else if 0x31000 ≤ o && o < 0x32000 then arbWrite s who r (o - 0x31000) off v
  else if 0x32000 ≤ o && o < 0x33000 then xfrWrite s who (16 * r + (o - 0x32000) / 256) (o % 256) off v
  else if k < 0x1000 || (0x2000 ≤ k && k < 0x2800) then cluWrite s who c k off v
  else if k < 0x1C00 then (laneRegWrite s who (12 * c + (k - 0x1000) / 256) (k % 256) off v).2
  else if 0x20000 ≤ k && k < 0x28000 then chdWrite s who (128 * c + (k - 0x20000) / 256) (k % 256) off v
  else unmappedWrite s d who off v

/-- A write of a whole dword at port-space offset `off` of die `d`, within its block. -/
def blockWrite (s : State) (who : Who) (d off : Nat) (v : Word) : State :=
  if off < 0x100000 then dieBlockWrite s who d off v
  else if off < 0x500000 then regionBlockWrite s who d ((off - 0x100000) / 0x100000) (off % 0x100000) off v
  else if 0x800000 ≤ off then (match who with | .steward _ => s | _ => violate s d vPrivate who off v.toNat 0)
  else unmappedWrite s d who off v

/-- A program of the primary function writes port space (R61), within the block. -/
def programBlockWrite (s : State) (d off : Nat) (v : Word) : State := blockWrite s (.fn 0) d off v

end Sys2Proof.Machine
end

