-- ==== Sys2Proof/Machine/Links.lean ====
section
/-! DEFINITION. Sending on the Polob links: the route along the tree, acknowledged blocks, packets with their credits and
replay buffer, and the receive buffers that relayed packets stand in (R21, R428, R431–R435, R437, R438). -/

namespace Sys2Proof.Machine

/-- The system IDs of a tree (R426). -/
abbrev allDevices : Nat := 31

/-- The port is up and carries traffic in a tree role (R428). -/
def portCarries (p : LinkPort) : Bool := p.st = .up && (p.role = .upstream || p.role = .downstream)

/-- The downstream ports. -/
def downPorts (s : State) : List Nat := (List.range 4).filter (fun p => (s.port p).st = .up && (s.port p).role = .downstream)

/-- The upstream port. -/
def upPort (s : State) : Option Nat := (List.range 4).find? (fun p => (s.port p).st = .up && (s.port p).role = .upstream)

/-- The port on which a device lies: the downstream port whose subtree holds it, else upstream (R428, R433 JOIN). -/
def routePort (s : State) (dest : Nat) : Option Nat :=
  match (downPorts s).find? (fun p => wb (s.port p).subtree dest) with
  | some p => some p
  | none => upPort s

/-- The device runs as the root: the apex or the acting apex (R426, R446). -/
def isRoot (s : State) : Bool := deviceRole s = 1

/-- A device other than this one is reachable (R438). -/
def reachable (s : State) (dev : Nat) : Bool := wb s.pkg.reach dev

/-- VERTEX and SIGNAL blocks, which are acknowledged hop by hop (R434). -/
def isBlockItem : LinkItem → Bool
  | .vertex _ _ _ _ _ _ => true
  | .signal _ _ _ _ => true
  | _ => false

/-- A block with its block SEQ. -/
def withBseq (b : BitVec 3) : LinkItem → LinkItem
  | .vertex _ d i l c src => .vertex b d i l c src
  | .signal _ d n v => .signal b d n v
  | it => it

/-- The channel of a packet: 0 P, 1 NP, 2 CPL; control blocks have none (R433). -/
def itemChannel : LinkItem → Option Nat
  | .hello .. => some 0
  | .join .. => some 0
  | .laneCmd .. => some 1
  | .laneData .. => some 0
  | .laneResult .. => some 2
  | .subscribe .. => some 0
  | .handback _ => some 0
  | _ => none

/-- The most blocks a packet takes: HEADER, 32 data blocks, TRAILER (R433). -/
abbrev packetBlocks : Nat := 34

/-- A packet leaves on the line; an IDLE block goes in front of it where more than 1,024 blocks could otherwise pass without one
(R431). -/
def emitPacket (x : LinkPort) (seq : Half) (it : LinkItem) : LinkPort :=
  if 1024 < x.sinceIdle + packetBlocks then { x with sent := x.sent ++ [.idle, .packet seq it], sinceIdle := packetBlocks }
  else { x with sent := x.sent ++ [.packet seq it], sinceIdle := x.sinceIdle + packetBlocks }

/-- A control block leaves on the line, an IDLE block in front of it where one is due (R431, R432). -/
def emitBlock (x : LinkPort) (it : LinkItem) : LinkPort :=
  if 1024 ≤ x.sinceIdle then { x with sent := x.sent ++ [.idle, it], sinceIdle := 1 }
  else { x with sent := x.sent ++ [it], sinceIdle := x.sinceIdle + 1 }

/-- Sends a packet that has credit and a place in the replay buffer (R434, R435). -/
def packetOut (x : LinkPort) (ch : Nat) (it : LinkItem) : LinkPort :=
  emitPacket { x with
    credP := if ch = 0 then x.credP - 1 else x.credP
    credNp := if ch = 1 then x.credNp - 1 else x.credNp
    replay := x.replay ++ [(x.txSeq, it)], txSeq := x.txSeq + 1 } x.txSeq it

/-- A packet may leave: credit of its channel, and fewer than 64 packets to replay. -/
def packetMay (x : LinkPort) (ch : Nat) : Bool :=
  decide (x.replay.length < 64) && (if ch = 0 then decide (0 < x.credP) else if ch = 1 then decide (0 < x.credNp) else true)

/-- Sends a block under its block SEQ. -/
def blockOut (x : LinkPort) (it : LinkItem) : LinkPort :=
  let it := withBseq x.bTx it
  emitBlock { x with bTx := x.bTx + 1, unacked := x.unacked ++ [it] } it

/-- A packet of channel `later` may not pass a waiting one of channel `earlier` (R339, R435). -/
def mustFollow (later earlier : Nat) : Bool := earlier = 0 || earlier = later

/-- A packet of channel `ch` has one before it among `l` that it may not pass. -/
def held (l : List (Option Nat × LinkItem)) (ch : Nat) : Bool :=
  l.any (fun e => match itemChannel e.2 with | some c => mustFollow ch c | none => false)

/-- An item handed to a port, with the port it came by: blocks wait while 4 are unacknowledged, packets wait for credit and behind
those they may not pass; control blocks go at once. -/
def portItem (x : LinkPort) (it : LinkItem) (org : Option Nat := none) : LinkPort :=
  if isBlockItem it then
    (if x.unacked.length < 4 && x.waiting.isEmpty then blockOut x it else { x with waiting := x.waiting ++ [it] })
  else match itemChannel it with
    | none => emitBlock x it
    | some ch => if packetMay x ch && !held x.stalled ch then packetOut x ch it else { x with stalled := x.stalled ++ [(org, it)] }

/-- Sends an item on port `p`, if it is UP. -/
def portSend (s : State) (p : Nat) (it : LinkItem) (org : Option Nat := none) : State :=
  if (s.port p).st = .up then s.modPort p (fun x => portItem x it org) else s

/-- Sends an item towards a device. -/
def sendTo (s : State) (dest : Nat) (it : LinkItem) (org : Option Nat := none) : State :=
  match routePort s dest with
  | some p => portSend s p it org
  | none => s

/-! ### The receive buffers (R21, R431, R435) -/

/-- The packets of channel `ch` that stand in the receive buffer of port `p`: those that came by it and wait on another port. -/
def rxDepth (s : State) (p ch : Nat) : Nat :=
  ((List.range 4).map (fun q => ((s.port q).stalled.filter (fun e => e.1 = some p && itemChannel e.2 = some ch)).length)).foldl (· + ·) 0

/-- The receive buffer of port `p` takes one more packet of channel `ch`: it holds 32 of P and of NP, and completions have space
reserved. A push at full is refused, and one in the cycle of a pop finds the place that the pop freed (R21). -/
def rxRoom (s : State) (p ch : Nat) : Bool := ch = 2 || decide (rxDepth s p ch < 32)

/-- Places of port `p`'s receive buffer that came free since `before` return their credit in an ACK (R432, R435). -/
def creditsBack (before s : State) (p : Nat) : State :=
  let freed (ch : Nat) : Nat := rxDepth before p ch - rxDepth s p ch
  if (s.port p).st = .up && freed 0 + freed 1 + freed 2 != 0 then
    s.modPort p (fun x => emitBlock x (.ackPacket false (x.rxSeq - 1) (freed 0) (freed 1) (freed 2)))
  else s

/-- The same for every port. -/
def creditsReturn (before s : State) : State := s.each (List.range 4) (creditsBack before)

/-- Waiting blocks leave while fewer than 4 are unacknowledged; `fuel` counts those that wait. -/
def blocksDrain : Nat → LinkPort → LinkPort
  | 0, x => x
  | k + 1, x =>
    if x.unacked.length < 4 then
      match x.waiting with
      | [] => x
      | it :: rest => blocksDrain k (blockOut { x with waiting := rest } it)
    else x

/-- Waiting packets leave as their channels have credit, in the order R339 keeps. -/
def packetsDrain (x : LinkPort) : LinkPort :=
  (x.stalled.foldl (fun (r : LinkPort × List (Option Nat × LinkItem)) e =>
    match itemChannel e.2 with
    | none => (r.1, r.2)
    | some ch =>
      if packetMay r.1 ch && !held r.2 ch then (packetOut r.1 ch e.2, r.2)
      else (r.1, r.2 ++ [e])) ({ x with stalled := [] }, [])) |> fun r => { r.1 with stalled := r.2 }

/-- 256-byte pieces of data (R132, R433). -/
def dataPieces : Nat → List Byte → List (List Byte)
  | 0, _ => []
  | fuel + 1, bs => if bs.isEmpty then [] else bs.take 256 :: dataPieces fuel (bs.drop 256)

/-- A SIGNAL sent to a device, or on every downstream port (R439). -/
def sendSignal (s : State) (dest n : Nat) (data : Word) : State :=
  let it : LinkItem := .signal 0 (BitVec.ofNat 5 dest) (w8 n) data
  if dest = allDevices then s.each (downPorts s) (fun s p => portSend s p it) else sendTo s dest it

end Sys2Proof.Machine
end

