-- ==== Sys2Proof/Machine/LaneRun.lean ====
section
/-! DEFINITION. Lane commands at their lane: the checks of each personality, arrival, waiting, the start and the end of a
transaction, held transactions and the SENSE record (R79–R83, R90, R174–R196). -/

namespace Sys2Proof.Machine

/-! ### Where a lane command runs -/

/-- The die whose pins serve lane `n` now. -/
def laneDieNow (s : State) (n : Nat) : Nat := laneDie (servingLane s n)
/-- The lane is LANE_DEAD and no twin serves it (R13, R403). -/
def laneGone (s : State) (n : Nat) : Bool := (s.lane (servingLane s n)).unit = .retired
/-- The lane's path from die `d` stands (R90, R132). -/
def laneReach (s : State) (d n : Nat) : Bool :=
  dieUp s (laneDieNow s n) && (laneDieNow s n = d || arcUp s)
/-- The clocks and the engine that serve lane `n` run (R30, R392, R461). -/
def laneServed (s : State) (n : Nat) : Bool :=
  let m := servingLane s n
  let x := s.region (laneRegion m)
  let c := s.cluster (laneCluster m)
  let engine := match c.engine with
    | .own => c.engineUnit != .resetting
    | .spare r => (s.region r).spareUnit != .resetting
    | _ => false
  x.power = .run && !x.inReset && engine && dieUp s (laneDie m)

/-- The program in a slot as the user of a lane. -/
def slotUser (s : State) (n : Nat) : LaneUser :=
  let x := s.slot n
  { device := 0, slot := n, fn := x.fn, tag := x.tag, gen := x.gen }

/-! ### The personality's own checks (order 5 of R77) -/

/-- The codes of R182 and R83 on a lane of personality `p`: the parameter bytes taken. -/
def controlBytes (code : Nat) : Option Nat :=
  if code = 0x0000 || code = 0x0001 || code = 0x0002 || code = 0x0100 || code = 0x0120 then some 0
  else if code = 0x0110 then some 2
  else if code = 0x0130 then some 1
  else none

/-- A control code that personality `p` has. -/
def controlFits (p code : Nat) : Bool :=
  if code = 0x0100 then p = 8 || p = 5
  else if code = 0x0110 then p = 8
  else if code = 0x0120 then p = 0xB
  else if code = 0x0130 then p = 0xA
  else true

/-- The COUNT a frame command needs (R185); none for a format it may not use. -/
def frameCount (l : Lane) (op : LaneOp) (target : Nat) : Option Nat :=
  let w := frameShape l op target
  let body := bitBytes (wf w 6 9)
  let resp := bitBytes (wf w 20 7)
  match op with
  | .read => if resp = 0 then none else some resp
  | .xact => if body = 0 then none else some (body + resp)
  | _ => if body = 0 then none else some body

/-- The bytes a frame command sends. -/
def frameBody (l : Lane) (target : Nat) : Nat := bitBytes (wf (tget 0 l.frmShape (fld target 8 2)) 6 9)

/-- The rules of R79–R83 and R174–R185 for a command on a lane of the lane's personality: the first that fails, fields before
COUNT. `chained` when a data chain follows, whose total is judged later (R185). -/
def laneForm (l : Lane) (op : LaneOp) (count target : Nat) (chained : Bool) : Option Fail :=
  let p := personality l
  let wlen := fld target 0 8
  match op with
  | .sense => if count = 0 || 16 < count then some badCount else none
  | .control =>
    match controlBytes target with
    | none => some badField
    | some k => if count != k then some badCount else if !controlFits p target then some badPersonality else none
  | .xact =>
    if p = 8 || p = 1 || p = 0xA || p = 0xB then some badCommand
    else if p = 6 || p = 7 then
      if p = 6 && (bit target 9 || bit target 10) then some badPersonality
      else if bit target 15 && (bit target 9 || bit target 10) then some badField
      else if count < wlen || (bit target 15 && count != 2 * wlen) then some badCount
      else none
    else if isI2c p then
      if bit target 15 then some badField else if count < wlen then some badCount else none
    else if p = 5 then (if count < wlen then some badCount else none)
    else if p = 9 then
      if target != 2 && target != 4 then some badField else if count != wlen + 2 then some badCount else none
    else if p = 0xC then
      if fld target 10 6 != 0 then some badField
      else if frameCount l op target != some count || wlen != frameBody l target then some badCount
      else none
    else some badPersonality
  | .read =>
    if p = 1 then (if target != 0 then some badField else if count != 1 then some badCount else none)
    else if isI2c p then
      (if fld target 11 3 != 0 || bit target 15 || (!bit target 10 && fld target 7 3 != 0) then some badField else none)
    else if p = 5 then
      if target = 0x107E then (if count % 9 != 0 then some badCount else none)
      else if bit target 15 then (if fld target 0 15 != 0 then some badField else if count % 8 != 0 then some badCount else none)
      else if fld target 7 7 != 0 then some badField
      else none
    else if p = 6 || p = 7 then
      if fld target 2 12 != 0 || bit target 15 || fld target 0 2 = 1 || fld target 0 2 = 3 then some badField
      else if p = 6 && fld target 0 2 = 2 then some badPersonality
      else none
    else if p = 8 then (if target != 0 then some badField else none)
    else if p = 9 then
      if fld target 10 3 != 0 || bit target 13 || bit target 14 then some badField else if count % 2 != 0 then some badCount else none
    else if p = 0xA then (if target != 0 then some badField else if count != 4 && count != 1 then some badCount else none)
    else if p = 0xB then (if target != 0 then some badField else if count != 4 && count != 8 then some badCount else none)
    else if p = 0xC then
      if fld target 2 14 != 0 then some badField
      else match frameCount l op target with
        | none => some badCount
        | some k => if count = k || (chained && count ≤ k) then none else some badCount
    else some badPersonality
  | _ =>
    if p = 1 then (if target != 0 then some badField else if count != 1 then some badCount else none)
    else if isI2c p then
      (if fld target 11 3 != 0 || bit target 15 || (!bit target 10 && fld target 7 3 != 0) then some badField else none)
    else if p = 5 then (if fld target 7 6 != 0 || bit target 15 then some badField else none)
    else if p = 6 || p = 7 then
      if fld target 2 12 != 0 || bit target 15 || fld target 0 2 = 1 || fld target 0 2 = 3 then some badField
      else if p = 6 && fld target 0 2 = 2 then some badPersonality
      else none
    else if p = 8 then (if target != 0 then some badField else none)
    else if p = 9 then
      if fld target 10 3 != 0 || bit target 14 || (bit target 13 && !bit target 15) then some badField
      else if count != (if bit target 15 && !bit target 13 then 4 else 2) then some badCount
      else none
    else if p = 0xA then (if target != 0 then some badField else if count != 2 && count != 4 then some badCount else none)
    else if p = 0xC then
      if fld target 2 14 != 0 then some badField
      else match frameCount l op target with
        | none => some badCount
        | some k => if count = k || (chained && count ≤ k) then none else some badCount
    else some badPersonality

/-- The rules of a command on lane `n`, the lane's being off or a target mailbox first (R167, R192). -/
def laneCheck (l : Lane) (op : LaneOp) (count target : Nat) (chained : Bool) : Option Fail :=
  if op != .sense && (!laneOn l || laneLeaving l || isTargetMailbox (personality l)) then
    (if op = .control && (controlBytes target).isNone then some badField else some badPersonality)
  else laneForm l op count target chained

/-- Rules on the data of a command, which the lane checks before it acts: the GPIO byte (R80), a break's duration and the
override's code (R182), and a PWM period (R181). -/
def laneData (l : Lane) (op : LaneOp) (target : Nat) (out : List Byte) : Option Fail :=
  let p := personality l
  match op with
  | .control =>
    if target = 0x0110 && u16 out 0 = 0 then some badField
    else if target = 0x0130 && 2 < u8 out 0 then some badField
    else none
  | .xact | .read | .sense => none
  | _ =>
    if p = 1 && (fld (u8 out 0) 6 2 != 0 || fld (u8 out 0) 2 2 != 0) then some badField
    else if p = 0xA && out.length = 4 && u16 out 2 < 100 then some badField
    else none

/-! ### The status record (R195) -/

/-- The next free dynamic address (R176). -/
def nextDa (l : Lane) : Option Nat := (rangeL (wf l.opt 0 7) (0x78 - wf l.opt 0 7)).find? (fun a => !l.devices.contains (w8 a))

/-- The last revolution time as read (R181). -/
def tachRev (l : Lane) : Word := if l.tachStalled then 0xFFFFFFFF else l.tachTime

/-- The level at the pin that a frame role names on the pair of lane `n` (R184). -/
def framePin (s : State) (n code : Nat) : Bool :=
  let l := s.lane (n + code / 2)
  if code % 2 = 0 then l.levelA else l.levelB

/-- The personality word of the status record. -/
def personalityWord (s : State) (n : Nat) : Nat :=
  let l := s.lane n
  let p := personality l
  if isI2c p then l.notify.toNat
  else if p = 5 then l.ibi.length + 256 * (match nextDa l with | some a => a | none => 0)
  else if p = 8 then min l.rx.length 65535 + 65536 * l.overruns.toNat
  else if p = 0xA then l.pwm.toNat
  else if p = 0xB then (tachRev l).toNat
  else if p = 0xC then b2n (wb l.frmCfg 6 && framePin s n (wf l.frmCfg 4 2))
  else if isTargetMailbox p then l.served.toNat
  else 0

/-- The lane's 16-byte status record. -/
def senseRecord (s : State) (n : Nat) : List Byte :=
  let l := s.lane n
  leBytes 4 (laneStatus s n) ++ leBytes 2 l.err.toNat ++ leBytes 2 l.lastDev.toNat ++ leBytes 4 l.count.toNat ++
    leBytes 4 (personalityWord s n)

/-! ### Results -/

/-- The result of a command that ended without one of the bus; `recv` are the bytes received since the last piece. -/
def plainRes (c : LaneCmd) (f : Option Fail) (recv : List Byte) : MemberRes :=
  let resid := c.count - (c.got + recv.length)
  match f with
  | none => { pos := c.pos, dev := 0, chan := 0, reason := 0, resid := resid, recv := recv }
  | some f => { pos := c.pos, dev := 0, chan := f.1, reason := f.2, resid := resid, recv := recv }

/-- A command that failed before it moved a byte. -/
def failRes (c : LaneCmd) (f : Fail) : MemberRes := plainRes c (some f) []

/-- A command that moved all its bytes. -/
def doneRes (c : LaneCmd) (recv : List Byte) : MemberRes := { plainRes c none recv with resid := 0 }

/-- Received data and the result of lane `n` go back to another device (R433, R437). -/
def sendResult (s : State) (n : Nat) (c : LaneCmd) (r : MemberRes) : State :=
  let dest := BitVec.ofNat 5 (c.user.device % 32)
  let s := (dataPieces r.recv.length r.recv).foldl (fun s d =>
    sendTo s dest.toNat (.laneResult s.pkg.sysId dest c.user.slot c.user.tag c.user.gen none d)) s
  sendTo s dest.toNat (.laneResult s.pkg.sysId dest c.user.slot c.user.tag c.user.gen
    (some { dev := r.dev, chan := r.chan, reason := r.reason, resid := r.resid, words := personality (s.lane n) = 9 }) [])

/-- The requester of a remote command is another device: `device` is its number plus 32. -/
def isRemoteCmd (c : LaneCmd) : Bool := c.user.device != 0

/-- A result leaves the lane for its home slot, or another device (R140, R163). -/
def pushResult (s : State) (n : Nat) (c : LaneCmd) (r : MemberRes) : State :=
  if c.discard then s
  else if isRemoteCmd c then sendResult s n c r
  else { s with results := s.results ++ [{ slot := c.user.slot, fn := c.user.fn, tag := c.user.tag, gen := c.user.gen, res := r }] }

/-- What a lane gives its caller: a command that has ended, and the state. -/
abbrev Ended := Option (LaneCmd × MemberRes) × State

/-! ### Start -/

/-- The held transaction ends with the personality's ending (R191). -/
def holdEnds (s : State) (n : Nat) : State :=
  match (s.lane n).held with
  | none => s
  | some h =>
    let s := idleTaken (s.modLane n (fun l => { l with held := none, wire := l.wire ++ closingWire l })) n
    if h.user.device = 0 then s.modSlot h.user.slot (fun x => { x with holds := x.holds.filter (· != n) }) else s

/-- The next command or control returns the pins to the personality's control: RELEASE ends, and the pins a lead segment
left on a bus personality, those of its whole gang, go back (R83, R164). -/
def pinsBack (s : State) (n : Nat) : State :=
  if personality (s.lane n) = 1 then
    s.modLane n (fun l => match l.released with
      | some (a, b) => { l with driveA := a, driveB := b, released := none }
      | none => l)
  else pinsSet s (n :: pinLanes s n) none

/-- RELEASE: the pins of the lane, on a gang all of them, are high-impedance until its next command (R83). -/
def pinsFree (s : State) (n : Nat) : State :=
  pinsSet (s.modLane n (fun l => if personality l = 1 then { l with released := some (l.driveA, l.driveB) } else l))
    (n :: pinLanes s n) (some .hiz)

/-- The control codes that act at once (R83, R182); none for those that take the bus. -/
def controlNow (s : State) (n : Nat) (c : LaneCmd) : Option State :=
  let code := c.target.toNat
  let p := personality (s.lane n)
  if code = 0x0000 then
    some (holdEnds (s.modLane n laneWiped) n)
  else if code = 0x0001 then (if p = 8 || p = 1 || p = 0xA || p = 0xB then some s else none)
  else if code = 0x0002 then
    some (pinsFree s n)
  else if code = 0x0100 then
    some (idleTaken (s.modLane n (fun l => if p = 5 then { l with ibi := [] } else { l with rx := [] })) n)
  else if code = 0x0120 then
    some (s.modLane n (fun l => { l with
      tachTime := 0, tachEdges := 0, tachStalled := false, tachLast := none, tachFrom := s.edges, tachGaps := [] }))
  else if code = 0x0130 then some (s.modLane n (fun l => { l with pwmForceNew := some (BitVec.ofNat 2 (u8 c.out 0)) }))
  else none

/-- A READ of queued in-band interrupt records (R177). -/
def isPop (p : Nat) (c : LaneCmd) : Bool := p = 5 && c.op = .read && bit c.target.toNat 15

/-- The level at the pin of `role` 0 to 3 of the pair of lane `n` (R184). -/
def rolePin (s : State) (n role : Nat) : Bool := framePin s n role

/-- The idle check of a personality passes at once (R190): the bus free, CS_N released, the clock idle. A command that continues a held
transaction has its bus. -/
def idleCheck (s : State) (n : Nat) : Bool :=
  let l := s.lane n
  let p := personality l
  if l.held.isSome then true
  else if isI2c p then l.levelA && l.levelB && !l.busy
  else if p = 5 then l.levelA && l.levelB
  else if p = 6 then l.levelB
  else if p = 7 then (s.lane (12 * laneCluster n + wf l.cfg 8 4)).levelB
  else if p = 0xC then rolePin s n (wf l.frmCfg 0 2) = wb l.frmCfg 7
  else true

/-- The personality waits for a free bus (R174, R176, R190). -/
def waitsFree (p : Nat) : Bool := isI2c p || p = 5

/-- The idle check of lane `n` may fail now (R190): SCL high with SDA low on a bus that is waited for, else that it does not pass. -/
def checkMayFail (s : State) (n : Nat) : Bool :=
  let l := s.lane n
  if waitsFree (personality l) then l.held.isNone && l.levelA && !l.levelB else !idleCheck s n

/-- The transaction of command `c` runs on lane `n` from now: it has begun where its idle check passes. -/
def txnStarts (s : State) (n : Nat) (c : LaneCmd) : State :=
  let (ok, bad) := (idleCheck s n, checkMayFail s n)
  s.modLane n (fun l => { l with
    txn := some c, txnSince := s.edges, begun := ok, checkBad := bad, waitFrom := s.edges, memAt := s.edges })

/-- The lane starts a command: one that makes no bus access ends at once, any other runs. -/
def laneStart (s : State) (n : Nat) (c : LaneCmd) : Ended :=
  let l := s.lane n
  if c.op = .control then
    match controlNow s n c with
    | some s => (some (c, doneRes c []), s)
    | none => (none, txnStarts s n c)
  else if isPop (personality l) c then
    let k := min (c.count / 8) l.ibi.length
    (some (c, plainRes c none (l.ibi.take k).flatten), s.modLane n (fun l => { l with ibi := l.ibi.drop k }))
  else (none, txnStarts s n c)

/-- Lane `n` may start a command of `u` now (R81, R90). -/
def laneFree (l : Lane) (u : LaneUser) : Bool :=
  l.unit != .resetting && l.txn.isNone && l.lead.isNone && (match l.held with | none => true | some h => h.user = u)

/-- A command of `u` that its lane is to end for a hold or a lead segment it lost meanwhile (R81, R208). -/
def laneLost (l : Lane) (u : LaneUser) : Option Fail :=
  (l.lost.find? (fun e => e.1 = u)).map (fun e => (csLane, e.2))

/-- A command that reaches the front: it fails with what its program lost, as a READ of a lane whose bytes go to a channel (R321) and one
from another device whose parameters the lane refuses (R83), or starts. -/
def laneTake (s : State) (n : Nat) (c : LaneCmd) : Ended :=
  let s := pinsBack s n
  match laneLost (s.lane n) c.user with
  | some f => (some (c, failRes c f), s.modLane n (fun l => { l with lost := l.lost.filter (fun e => e.1 != c.user) }))
  | none =>
    if laneGone s n then (some (c, failRes c laneDead), s)
    else match laneCheck (s.lane n) c.op c.count c.target.toNat c.open_ with
      | some f => (some (c, failRes c f), s)
      | none =>
        if c.op = .read && laneStreamed s n then (some (c, failRes c badPersonality), s)
        else match (if c.op = .control then laneData (s.lane n) c.op c.target.toNat c.out else none) with
          | some f => (some (c, failRes c f), s)
          | none => laneStart s n c

/-- The checks that the destination makes of a command from another device as it arrives (R76, R77, R163): its home, which knows none of
the worker's lanes, has not made them. -/
def arrivalFails (s : State) (n : Nat) (c : LaneCmd) : Option Fail :=
  if !isRemoteCmd c then none
  else if laneGone s n then some noSuchResource
  else if isPartner s n || (strobeOf s n).isSome then some gangedOdd
  else match laneCheck (s.lane n) c.op c.count c.target.toNat false with
    | some f => if f.1 = csProgram then some f else none
    | none => none

/-- The parameters of a CONTROL are there: those of another device's travel behind the command (R83, R437). -/
def paramsHere (c : LaneCmd) : Bool := c.op != .control || decide (c.count ≤ c.out.length)

/-- What another program of the same slot of another device left on the lane: a slot holds one program, so that program has ended. Its hold
ends, and what it lost is forgotten (R81; DEDUCED, log 60). -/
def slotReused (s : State) (n : Nat) (u : LaneUser) : State :=
  let gone (v : LaneUser) : Bool := v.device = u.device && v.slot = u.slot && v != u
  if u.device = 0 then s
  else
    let s := s.modLane n (fun l => { l with lost := l.lost.filter (fun e => !gone e.1) })
    match (s.lane n).held with
    | some h => if gone h.user then holdEnds s n else s
    | none => s

/-- A lane command arrives at its lane (R90, R163): one that a check refuses ends, SENSE is answered at once, any other starts or waits in
arrival order. -/
def laneArrive (s : State) (n : Nat) (c : LaneCmd) : Ended :=
  let s := slotReused s n c.user
  match arrivalFails s n c with
  | some f => (some (c, failRes c f), s)
  | none =>
    if c.op = .sense then (some (c, doneRes c ((senseRecord s n).take c.count)), s)
    else if laneFree (s.lane n) c.user && paramsHere c && !(s.lane n).queue.any (fun q => q.user = c.user) then laneTake s n c
    else (none, s.modLane n (fun l => { l with queue := l.queue ++ [c] }))

/-- The next waiting commands start; one that ends at once sends its result and the next follows. -/
def laneNextN : Nat → State → Nat → State
  | 0, s, _ => s
  | fuel + 1, s, n =>
    let l := s.lane n
    match l.queue.find? (fun c => laneFree l c.user && paramsHere c) with
    | none => s
    | some c =>
      let s := s.modLane n (fun l => { l with queue := l.queue.erase c })
      match laneTake s n c with
      | (some (c, r), s) => laneNextN fuel (pushResult s n c r) n
      | (none, s) => s

/-- The lane takes up its waiting commands. -/
def laneNext (s : State) (n : Nat) : State := laneNextN (s.lane n).queue.length s n

/-! ### End of a transaction -/

/-- The packer lays received words little-endian in memory: the 16-bit words of MDIO cross most significant byte first (R160, R180,
R318). -/
def laneOrder (p : Nat) (bs : List Byte) : List Byte := if p = 9 then swapWords bs.length 2 bs else bs

/-- The LANE_ERR bit of a DEVICE STATUS class (R196); that of a UART overrun is set where its byte is lost (R179). -/
def classErr (p : Nat) (cls : Nat) : Nat :=
  match cls with
  | 1 => 0x01
  | 2 => if p = 0xC then 0x10 else 0x01
  | 3 => 0x02
  | 4 => 0x04
  | 5 => 0x08
  | 6 => 0x10
  | 7 => 0x01
  | 8 => 0x20
  | _ => 0

/-- The targets that answered ENTDAA: each gets the next free address and enters the device table of 32 entries, and gives
9 bytes (R176). -/
def assignAll : Nat → Lane → List Byte → List Byte → List Byte × Lane
  | 0, l, _, acc => (acc, l)
  | fuel + 1, l, bs, acc =>
    if bs.length < 8 || 32 ≤ l.devices.length then (acc, l)
    else match nextDa l with
      | none => (acc, l)
      | some a => assignAll fuel { l with devices := l.devices ++ [w8 a] } (bs.drop 8) (acc ++ bs.take 8 ++ [w8 a])

/-- The data a lane with no bus returns (R80, R181). -/
def innerData (l : Lane) (count : Nat) : List Byte :=
  let p := personality l
  if p = 1 then [w8 (b2n l.levelA + 2 * b2n l.levelB)]
  else if p = 0xA then (if count = 1 then [w8 (b2n l.levelB)] else leBytes 2 (wf l.pwm 16 16) ++ leBytes 2 (wf l.pwm 0 16))
  else leBytes 4 (tachRev l).toNat ++ (if count = 8 then leBytes 4 l.tachEdges.toNat else [])

/-- A pin takes a level under its mask bit (R80). -/
def gpioPin (mode : Nat) (mask lvl : Bool) (d : Option Drive) : Option Drive :=
  if !mask || mode = 0 then d else some (if mode = 2 && lvl then .hiz else if lvl then .high else .low)

/-- The effect of the bytes sent on a lane with no bus: GPIO levels, PWM duty and period (R80, R181). -/
def innerWrite (l : Lane) (out : List Byte) : Lane :=
  let p := personality l
  let b := u8 out 0
  if p = 1 then { l with
    driveA := gpioPin (wf l.opt 0 2) (bit b 4) (bit b 0) l.driveA
    driveB := gpioPin (wf l.opt 2 2) (bit b 5) (bit b 1) l.driveB }
  else if p = 0xA then
    { l with pwm := w32 ((if out.length = 4 then u16 out 2 else wf l.pwm 0 16) + 65536 * u16 out 0) }
  else l

/-- The lane is a direct CCC's (R176). -/
def directCcc (c : LaneCmd) : Bool :=
  if c.op = .xact then bit c.target.toNat 15 else c.op != .read && bit c.target.toNat 13 && fld c.target.toNat 0 7 != 0x7E

/-- The personality has a bus recovery (R190). -/
def hasRecovery (p : Nat) : Bool := p != 8 && !isInner p

/-- The conditions that a shifter may sense on a personality for a command (R190, R196). A PEC mismatch and a wrong acknowledge pattern are
the lane's own finding, and a UART's bad characters end its READ as they come. -/
def classFits (l : Lane) (c : LaneCmd) (cls : Nat) : Bool :=
  let p := personality l
  let data := c.op != .control
  match cls with
  | 0 => true
  | 1 => data && (isI2c p || p = 5 || (p = 9 && recvLen c != 0))
  | 2 => data && (isI2c p || p = 5) && sendLen c != 0
  | 3 => data && isI2c p
  | 4 => hasRecovery p && p != 9
  | 6 => data && p = 5 && recvLen c != 0
  | 7 => data && p = 5 && directCcc c
  | _ => false

/-- HALF_PERIOD in engine cycles (R170). -/
def halfPeriod (l : Lane) : Nat := wf l.timing 0 20

/-- `k` half periods have passed since tick `t`; a tick has 12 engine cycles. -/
def halvesPassed (now t k : Nat) (l : Lane) : Bool := decide (k * halfPeriod l ≤ 12 * (now - t))

/-- AUTO_RECOVER, which only the I2C family has (R172, R190): any other personality always recovers. -/
def autoRecovers (l : Lane) : Bool := !isI2c (personality l) || wb l.opt 3

/-- What the end says of arbitration, the idle check and its recovery can be (R172, R174, R190). -/
def busFits (now : Nat) (l : Lane) (c : LaneCmd) (r : BusResult) : Bool :=
  let p := personality l
  let own := c.op = .control
  let stuck := r.cls = 4
  (if isI2c p then (if r.cls = 3 then r.losses = wf l.opt 0 3 + 1 else decide (r.losses ≤ wf l.opt 0 3)) else r.losses = 0) &&
  decide (r.pulses ≤ 9) && (r.pulses = 0 || (waitsFree p && (r.recovered || own || (stuck && autoRecovers l)))) &&
  (!r.recovered || (!own && !stuck && l.checkBad && hasRecovery p && autoRecovers l)) &&
  (if own then true
   else if stuck then l.checkBad && !l.begun && (autoRecovers l || halvesPassed now l.waitFrom 2 l)
   else l.begun || r.recovered)

/-- What the end says of the bytes moved can be (R117, R175, R176, R182, R183, R196). -/
def bytesFit (now : Nat) (l : Lane) (c : LaneCmd) (r : BusResult) : Bool :=
  let p := personality l
  let got := c.got + r.recv.length
  let checks := pecOn l c && recvLen c != 0
  (r.pec.isNone || (checks && r.cls = 0)) &&
  decide (r.sent ≤ min (sendLen c) c.out.length) &&
  (if r.cls = 0 then
    !c.open_ && decide (c.out.length = sendLen c ∨ c.op = .control) && (!checks || r.pec.isSome) &&
      (if c.op = .control then r.recv.isEmpty && (c.target != 0x0110 || halvesPassed now l.txnSince (2 * u16 c.out 0) l)
       else if isInner p then r.recv.isEmpty
       else if isDaa p c then r.recv.length % 8 = 0 && decide (c.got + r.recv.length / 8 * 9 ≤ c.count)
       else if p = 8 && c.op = .read then decide (c.count ≤ c.got + l.rx.length + r.recv.length)
       else if p = 0xC then responseFits (frameShape l c.op c.target.toNat) (c.seen ++ r.recv)
       else got = recvLen c)
   else
    decide (got ≤ recvLen c) &&
      (if r.cls = 1 then r.sent = 0 || (c.op = .xact && r.sent = sendLen c)
       else if r.cls = 2 then decide (r.sent < sendLen c) || (pecOn l c && recvLen c = 0)
       else if r.cls = 4 then r.sent = 0 && got = 0
       else if r.cls = 6 then got != 0
       else true))

/-- What the transaction's end says can be: the condition, the recovery and the counts agree with the lane and its command. -/
def endFits (now : Nat) (l : Lane) (c : LaneCmd) (r : BusResult) : Bool :=
  classFits l c r.cls.toNat && busFits now l c r && bytesFit now l c r

/-- The DEVICE STATUS class of the end: the condition sensed, and of a transaction that met none the lane's own comparisons: the PEC of
what it read (R175), and the acknowledge pattern of a frame (R185). -/
def endClass (l : Lane) (c : LaneCmd) (r : BusResult) : Nat :=
  let all := c.seen ++ r.recv
  if r.cls != 0 then r.cls.toNat
  else if pecOn l c && recvLen c != 0 then (if r.pec = some (commandPec c all) then 0 else 5)
  else if personality l = 0xC && c.op != .control && !ackFits l c.op c.target.toNat all then 2
  else 0

/-- The byte at which the condition arose (R117): an address-phase condition and a bus that was not free at 0, a data NACK, a lost
arbitration or a device's error at the byte not taken, a frame's wrong answer at its first byte, a T-bit error at the last byte received, a
PEC last. -/
def endIndex (l : Lane) (c : LaneCmd) (r : BusResult) : Nat :=
  match endClass l c r with
  | 2 => if personality l = 0xC then sendLen c else r.sent
  | 3 | 7 => r.sent
  | 5 => c.count
  | 6 => r.sent + c.got + r.recv.length - 1
  | _ => 0

/-- The bytes a command that ends has received: a UART READ takes the bytes already held first (R179). -/
def takenBytes (l : Lane) (c : LaneCmd) (recv : List Byte) : List Byte × Lane :=
  if personality l = 8 && c.op = .read then
    let k := c.count - c.got
    ((l.rx ++ recv).take k, { l with rx := if wb l.opt 4 then (l.rx ++ recv).drop k else [] })
  else (recv.take (recvLen c - c.got), l)

/-- What a running command of the lane gives to memory of the bytes received since the last piece, `recv` (R180, R315): whole 16-bit words
on MDIO, whole records with their addresses on ENTDAA, held characters on a UART READ, up to 256. -/
def laneGives (l : Lane) (c : LaneCmd) (recv : List Byte) : List Byte × Lane :=
  let p := personality l
  let room := recvLen c - c.got
  if isInner p || c.op = .control || c.op = .sense then ([], l)
  else if p = 8 && c.op = .read then
    let k := min 256 room
    (l.rx.take k, { l with rx := l.rx.drop k })
  else if isDaa p c then (if recv.length % 8 = 0 && decide (recv.length / 8 * 9 ≤ room) then assignAll 32 l recv [] else ([], l))
  else if room < recv.length || (p = 9 && recv.length % 2 = 1) then ([], l)
  else (laneOrder p recv, l)

/-- The bytes a command that ends has received since the last piece, `recv` off its bus: records of ENTDAA with the addresses assigned
(R176), a UART's held characters first (R179), else those it was to receive. -/
def endBytes (l : Lane) (c : LaneCmd) (recv : List Byte) : List Byte × Lane :=
  if isDaa (personality l) c then assignAll 32 l recv [] else
  let (bs, l) := takenBytes l c recv
  (laneOrder (personality l) bs, l)

/-- The lane after a transaction has ended with a result: counted, its DEVICE STATUS kept, held under HOLD where it ended
well (R81, R171). -/
def txnOver (s : State) (n : Nat) (c : LaneCmd) (dev : Half) (errs : Nat) : State :=
  let holds := cmdHolds (personality (s.lane n)) c && dev = 0
  let s := idleTaken (s.modLane n (fun l => { l with
    txn := none, count := l.count + 1, lastDev := dev, paused := false, begun := false, checkBad := false
    held := if holds then some { user := c.user, since := s.edges } else none })) n
  let s := if c.user.device = 0 then
      s.modSlot c.user.slot (fun x => { x with holds := if holds then (if x.holds.contains n then x.holds else x.holds ++ [n]) else x.holds.filter (· != n) })
    else s
  setLaneErr s n errs false

/-- What the transaction put on the bus (R174–R185, R190): a recovery before it, and the command itself. -/
def endWire (l : Lane) (c : LaneCmd) (r : BusResult) (recv : List Byte) (holds : Bool) : List Wire :=
  let all := c.seen ++ (if personality l = 0xC then r.recv else recv)
  if c.op = .control && c.target = 1 then recoveryWire l r.pulses (r.cls = 0)
  else if r.cls = 4 then (if autoRecovers l then recoveryWire l r.pulses false else [])
  else (if r.recovered then recoveryWire l r.pulses true else []) ++
    commandWire l c { cls := r.cls.toNat, sent := if r.cls = 0 then sendLen c else r.sent, recv := all, pec := r.pec
                      losses := r.losses, cont := l.held.isSome, closed := !holds }

/-- The result of a command that moved `sent` and `recv` bytes. -/
def endResult (c : LaneCmd) (dev : Half) (f : Option Fail) (sent : Nat) (recv : List Byte) : MemberRes :=
  { pos := c.pos, dev := dev, chan := match f with | some f => f.1 | none => 0, reason := match f with | some f => f.2 | none => 0
    resid := if c.op = .control then 0 else c.count - (sent + c.got + recv.length), recv := recv, cut := c.cut }

/-- The bytes that the running command took when it ends with `r`, and the lane with its effects: on a lane with no bus its own. -/
def endTakes (l : Lane) (c : LaneCmd) (r : BusResult) : List Byte × Lane :=
  if r.cls = 0 && isInner (personality l) && c.op = .read then (innerData l c.count, l)
  else if r.cls = 0 && isInner (personality l) && c.op != .control then ([], innerWrite l c.out)
  else endBytes l c r.recv

/-- The running command ends as the bus says (R109, R117, R196): the received bytes and effects of the personality. -/
def laneEnds (s : State) (n : Nat) (r : BusResult) : Ended :=
  let l := s.lane n
  match l.txn with
  | none => (none, s)
  | some c =>
    if !endFits s.edges l c r || !laneServed s n then (none, s)
    else match (if isRemoteCmd c && r.cls = 0 then laneData l c.op c.target.toNat c.out else none) with
    | some f => (some (c, failRes c f), laneNext (txnOver s n { c with target := put c.target 14 1 0 } 0 0) n)
    | none =>
      let p := personality l
      let cls := endClass l c r
      let dev := if cls = 0 then 0 else devStatus (BitVec.ofNat 4 cls) (BitVec.ofNat 12 (endIndex l c r))
      let (recv, l') := endTakes l c r
      let recovers := r.recovered || (cls = 0 && c.op = .control && c.target = 1)
      let s := s.modLane n (fun _ => { l' with wire := endWire l c r recv (cls = 0 && cmdHolds p c) })
      let s := txnOver s n c dev (classErr p cls + (if recovers then 0x100 else 0))
      (some (c, endResult c dev (classFail (BitVec.ofNat 4 cls)) (if r.cls = 0 then sendLen c else r.sent) recv), laneNext s n)

/-- The bytes that a command which is cut had sent: none before its idle check passed. -/
def cutSent (l : Lane) (c : LaneCmd) (sent : Nat) : Nat := if l.begun then min sent (min (sendLen c) c.out.length) else 0

/-- The running command ends at once with a failure of its own (R90, R134, R188): `sent` and `recv` are what it moved, `tail` is how the
lane leaves the bus. -/
def laneAborts (s : State) (n : Nat) (f : Option Fail) (dev : Half) (errs sent : Nat) (recv : List Byte) (tail : List Wire) : Ended :=
  match (s.lane n).txn with
  | none => (none, s)
  | some c =>
    let l := s.lane n
    let sent := cutSent l c sent
    let (recv, l') := endBytes l c recv
    let done := if l.begun then commandWire l c { cls := 9, sent := sent, recv := c.seen ++ recv, cont := l.held.isSome, closed := false } else []
    let s := s.modLane n (fun _ => { l' with wire := done ++ tail })
    (some (c, endResult c dev f sent recv), txnOver s n { c with target := put c.target 14 1 0 } dev errs)

/-! ### Timeouts (R188–R191) -/

/-- The lane timeout in ticks; none for no limit (R170, R188). -/
def laneLimit (l : Lane) : Option Nat :=
  let p := personality l
  let v := wf l.timeout 0 16
  if p = 3 || p = 4 then some (1000 * (if v = 0 || 3500 < v then 3500 else v))
  else if v = 0 then none
  else some (1000 * v)

/-- The tick from which a bounded wait of the running command runs (R188): the wait for a free bus from the command's start; once begun, a
stretch of SCL from when it went low, and the wait for a STOP from the loss of arbitration, `lostAt`; a UART READ from its last byte. -/
def waitSince (l : Lane) (c : LaneCmd) (lostAt : Option Nat) : Option Nat :=
  let p := personality l
  if p = 8 then (if c.op = .read then some l.waitFrom else none)
  else if !waitsFree p then none
  else if !l.begun then some l.txnSince
  else if !isI2c p then none
  else match lostAt with
    | some t => if l.txnSince ≤ t then some t else none
    | none => if l.levelA then none else some l.waitFrom

/-- A wait of the running command has lasted its limit (R188); on SMBus and PMBus the 25 ms of a target's clock extension also end it. -/
def waitOver (now : Nat) (l : Lane) (c : LaneCmd) (lostAt : Option Nat) : Bool :=
  (match laneLimit l, waitSince l c lostAt with
    | some lim, some t => decide (t + lim ≤ now)
    | _, _ => false) ||
  ((personality l = 3 || personality l = 4) && l.begun && decide (l.txnSince + 2500000 ≤ now))

/-- The lane timeout expires on a UART READ that READ_END lets end well (R188). -/
def readEnds (l : Lane) (c : LaneCmd) (recv : List Byte) : Bool :=
  personality l = 8 && c.op = .read && wb l.opt 5 && !(takenBytes l c recv).1.isEmpty

/-- The hold timeout in ticks (R170). -/
def holdLimit (l : Lane) : Nat := 1000 * (if wf l.timeout 16 8 = 0 then 1 else wf l.timeout 16 8)

/-- The hold of lane `n` ends and its program loses it: its next command there fails with `reason` (R81, R48). -/
def holdLost' (s : State) (n : Nat) (reason : Byte) : State :=
  match (s.lane n).held with
  | none => s
  | some h =>
    let s := holdEnds s n
    let s := s.modLane n (fun l => { l with lost := l.lost ++ [(h.user, reason)] })
    laneNext s n

/-- Everything a program holds ends with it, and what it lost is forgotten (R81). -/
def releaseHolds (s : State) (u : LaneUser) (holds : List Nat) : State :=
  let s := holds.foldl (fun s n =>
    match (s.lane n).held with
    | some h => if h.user = u then laneNext (holdEnds s n) n else s
    | none => s) s
  (s.lanes.map Prod.fst).foldl (fun s n =>
    if (s.lane n).lost.any (fun e => e.1 = u) then s.modLane n (fun l => { l with lost := l.lost.filter (fun e => e.1 != u) }) else s) s

end Sys2Proof.Machine
end

