-- ==== Sys2Proof/Machine/Program.lean ====
section
/-! DEFINITION. A program in its slot: completions, status writes, the ends of a program and of a command, the prefetch
buffer, and the lane commands and copies that run across steps (R74–R151, R268–R276, R384). -/

namespace Sys2Proof.Machine

/-- How a dword is written to port space: data that a program stores reaches registers through it. -/
abbrev PortWriter := State → Nat → Nat → Word → State

/-! ### Completions (R273, R263, R384) -/

/-- The function for which an entry is served: the queue's or mailbox's, or the one that loaded the context (R384). -/
def srcFn (s : State) : EntrySrc → Nat
  | .queue f _ => f
  | .mailbox f => f
  | .policy d c => (userCtx (s.die d).stw.core c).loader

/-- Bytes 48–63 of a completed entry (R267). -/
def completionBytes (code gen : Nat) (result : List Byte) : List Byte :=
  leBytes 2 code ++ [w8 gen, 0] ++ sub result 0 8 ++ [0, 0, 0, 0]

/-- A running queue goes into ERROR (R276): INDEX is latched, and entries at and after it that have not taken effect are not
acted on. -/
def queueFail (s : State) (f q : Nat) (reason : Byte) (idx : Nat) : State :=
  if (s.queue f q).st = .running then
    s.modQueue f q (fun x => { x with
      st := .error, reason := reason, index := idx
      flight := x.flight.takeWhile (fun e => e.idx != idx) ++ (x.flight.dropWhile (fun e => e.idx != idx)).filter (·.effect) })
  else s

/-- The data of user context `c` of die `d` takes bytes at an offset. -/
def ctxDataPut (s : State) (d c off : Nat) (bs : List Byte) : State :=
  stwPut s d true ((userCtx (s.die d).stw.core c).dataBase + off) bs

/-- Changes user context `c` of die `d`. -/
def modCtx (s : State) (d c : Nat) (g : Ctx → Ctx) : State :=
  s.modDie d (fun x => { x with stw := { x.stw with core := { x.stw.core with
    ctxs := tset {} x.stw.core.ctxs (2 + c) (g (userCtx x.stw.core c)) } } })

/-- A steward pair takes a checkpoint (R390). -/
def checkpoint (s : State) (d : Nat) : State :=
  s.modDie d (fun x => { x with stw := { x.stw with
    saved := { x.stw.core with iram := [], dram := [] }, undo := [], since := 0, stores := 0, repeats := 0, privFault := none } })

/-- Writes bytes of a function's mailbox. -/
def mailboxPut (s : State) (f off : Nat) (bs : List Byte) : State :=
  s.modFunc f (fun x => { x with mailbox := (enumL off bs).foldl (fun m e => tset 0 m e.1 e.2) x.mailbox })

/-- An entry of a queue completes: bytes 48–63 are written in one write. A completion write that fails puts the queue into ERROR. -/
def completeQueue (pw : PortWriter) (s : State) (f q idx code gen : Nat) (result : List Byte) : State :=
  let x := s.queue f q
  if !x.flight.any (fun e => e.idx = idx && !e.done) then s
  else
    let (r, s) := memPut pw s (fnParty s f) (x.ring.toNat + 64 * idx + 48) (completionBytes code gen result) .completion true
    let s := s.modQueue f q (fun x => { x with
      flight := x.flight.map (fun e => if e.idx = idx then { e with effect := true, done := true } else e)
      completed := x.completed + 1 })
    let s := if r.isSome then queueFail s f q 0x06 idx else s
    if q = 0 then adminStopped s f else s

/-- User context `c` of die `d` becomes EMPTY (R382): its meters belong to its loader again, its counters stay. -/
def ctxUnload (s : State) (d c : Nat) : State :=
  let x := userCtx (s.die d).stw.core c
  let s := x.meters.foldl (fun s m => s.modMeter m (fun y => { y with owner := if y.owner = 8 then x.loader else y.owner })) s
  modCtx s d c (fun x => { submits := x.submits, cycles := x.cycles, subs := x.subs })

/-- An entry completes (R263, R273, R384): in its queue, in the mailbox with OWN cleared, or in its context's data, where the last
submission ends an UNLOAD that waits for it (R382). -/
def complete (pw : PortWriter) (s : State) (src : EntrySrc) (idx code gen : Nat) (result : List Byte) : State :=
  let bs := completionBytes code gen result
  match src with
  | .queue f q => completeQueue pw s f q idx code gen result
  | .mailbox f =>
    if (s.func f).request.isNone then s
    else
      let s := mailboxPut s f 0x30 (bs.take 14)
      let s := s.modFunc f (fun x => { x with request := none, mailbox := tset 0 x.mailbox 0x3F 0 })
      if (s.func f).mboxNotify then raisePulse s f 128 kindMailbox code else s
  | .policy d c =>
    if !(userCtx (s.die d).stw.core c).subs.any (fun e => e.offset = idx) then s
    else
      let s := ctxDataPut s d c (idx + 48) bs
      let s := modCtx s d c (fun x => { x with subs := x.subs.eraseP (fun e => e.offset = idx) })
      let s := stewardNotice s d 11 c
      let x := userCtx (s.die d).stw.core c
      match x.leaving with
      | some (.queue f q, i) => if x.subs.isEmpty then completeQueue pw (ctxUnload s d c) f q i ccSuccess 0 [0] else s
      | _ => s

/-- Whether an entry that stands and has taken effect is a HALT-PROGRAM for a tag. -/
def isHaltFor (tag : Half) (bytes : List Byte) (effect : Bool) : Bool := effect && eOpcode bytes = 3 && eTag bytes = tag.toNat

/-- The HALT-PROGRAM entries of function `f` that wait for the program of a tag (R136). -/
def haltWaiters (s : State) (f : Nat) (tag : Half) : List (EntrySrc × Nat) :=
  (s.queues.filter (fun e => e.1 / 128 = f)).flatMap (fun e =>
    (e.2.flight.filter (fun x => isHaltFor tag x.bytes x.effect && !x.done)).map (fun x => (EntrySrc.queue f (e.1 % 128), x.idx))) ++
  (match (s.func f).request with
    | some h => if isHaltFor tag h.bytes h.effect then [(EntrySrc.mailbox f, 0)] else []
    | none => []) ++
  (List.range 16).flatMap (fun k =>
    let x := userCtx (s.die (k / 8)).stw.core (k % 8)
    if x.loader = f then (x.subs.filter (fun e => isHaltFor tag e.bytes e.effect)).map (fun e => (EntrySrc.policy (k / 8) (k % 8), e.offset))
    else [])

/-! ### The status block (R115–R121) -/

/-- The 32 bytes of a status block with STATE `code`. -/
def statusBytes (s : State) (x : Slot) (code : Nat) : List Byte :=
  leBytes 2 x.tag.toNat ++ [w8 (code + 16 * x.gen.toNat), x.reason] ++ leBytes 2 x.chan.toNat ++ leBytes 2 x.dev.toNat ++
    leBytes 8 x.last.toNat ++ leBytes 2 x.resid.toNat ++ leBytes 2 x.post.toNat ++ leBytes 4 x.laneRes.toNat ++
    leBytes 8 s.pilot.toNat

/-- The chord's chain keeps running through a reset of its owner (R148). -/
def persistOwner (s : State) : Owner → Bool
  | .chord c => recPersist (s.chord c).record
  | _ => false

/-- The program of a function in reset writes nothing (R147). -/
def silent (s : State) (x : Slot) : Bool := (s.func x.fn).inReset && !persistOwner s x.owner

/-- Writes the status block of a program; a policy program's lies in its context's data when its address is an offset (R384). -/
def statusWrite (pw : PortWriter) (s : State) (p : Party) (x : Slot) (code : Nat) : Option Fail × State :=
  if x.status = 0 then (none, s)
  else match x.owner with
    | .entry (.policy d c) _ =>
      if !onChip x.status.toNat then (none, ctxDataPut s d c x.status.toNat (statusBytes s x code))
      else memPut pw s p x.status.toNat (statusBytes s x code) .status true
    | _ => memPut pw s p x.status.toNat (statusBytes s x code) .status true

/-- Sets a failure in CHANNEL STATUS and REASON: of the other bits only PARTIAL stays (R116). -/
def setFail (x : Slot) (f : Fail) : Slot := { x with chan := (x.chan &&& csPartial) ||| f.1, reason := f.2 }

/-- ARG of a program's black-box records (R418 MARK, PROGRAM_END). -/
def markArg (x : Slot) (reason : Nat) : Nat :=
  x.tag.toNat + 65536 * x.gen.toNat + 2 ^ 20 * x.fn + 2 ^ 23 * b2n (match x.owner with | .chord _ => true | _ => false) + 2 ^ 24 * reason

/-- A tag leaves quarantine when its program has ended, unless its entry still stands in a queue (R141, R384). -/
def quarLeave (s : State) (f : Nat) (tag : Half) : State :=
  s.modFunc f (fun x => { x with quar := x.quar.filter (fun e => !(e.tag = tag && (match e.src with | .queue _ _ => false | _ => true))) })

/-- The final STATE, once its status can be written: status, completions, and the slot goes free (R119–R121, R136, R151).
`refused` says that an earlier status write was refused (R121). A HALT-PROGRAM that waits for a program which a region or unit reset
ends HALTED completes with SUCCESS (DESIGN CHOICE, log 71: R136 gives no code for it). -/
def finishWrite (pw : PortWriter) (s : State) (n : Nat) (refused : Bool) : State :=
  let x := s.slot n
  let halted := x.ended = some true
  let p := partyOf s n
  let s := releaseHolds s (slotUser s n) x.holds
  let s := match x.body with
    | some t => (s.modTile t (fun y => { y with used := false })).modTile ((t + 2048) % 4096 + 4) (fun y => { y with used := false })
    | none => s
  let s := quarLeave s x.fn x.tag
  let free : Slot := { unit := x.unit }
  let ends (s : State) : State := match x.owner with
    | .chord c => chainEnds s c halted x.gen x.reason x.chan x.last
    | _ => s
  let s :=
    if silent s x then
      ends ((bbxRecord s p.die 0x02 (markArg x x.reason.toNat) (leBytes 8 x.last.toNat)).modSlot n (fun _ => free))
    else
      let (f, s) := if refused then (none, s) else statusWrite pw s p x (if halted then 6 else 5)
      let bad := refused || f.isSome
      let x := match f with | some f => setFail x f | none => x
      let s := s.modSlot n (fun _ => free)
      let code := if bad then ccStatusWriteFailed else endCode halted x.chan
      let result := if bad then leBytes 2 x.chan.toNat ++ [x.reason] else []
      let s := match x.owner with
        | .entry src idx => complete pw s src idx code x.gen.toNat result
        | _ => ends s
      let hc := if halted && x.reason != haltCommand then ccSuccess else ccNoProgram
      match x.owner with
      | .entry _ _ => (haltWaiters s x.fn x.tag).foldl (fun s w => complete pw s w.1 w.2 hc 0 []) s
      | _ => s
  schedApplied s (slotCluster n)

/-- The final status must wait for the Arc bridge (R133): in SPLIT alone. One that is due while the bridge is down and SPLIT is not yet
entered fails as a write that cannot leave the port (DESIGN CHOICE, log 71). -/
def finalHeld (s : State) (n : Nat) : Bool :=
  let x := s.slot n
  s.pkg.split && (match x.owner with | .entry _ _ => true | _ => false) && (slotServer s n) / 16 != fnPort x.fn && !arcUp s && !silent s x

/-- The program in slot `n` ends with its present CHANNEL STATUS. -/
def finish (pw : PortWriter) (s : State) (n : Nat) (halted : Bool) (last : DWord) : State :=
  let s := s.modSlot n (fun x => { x with last := last, ended := some halted, exec := none, wait := none, halt := none, buf := [] })
  if finalHeld s n then
    let s := releaseHolds s (slotUser s n) (s.slot n).holds
    { s with heldFinal := if s.heldFinal.contains n then s.heldFinal else s.heldFinal ++ [n] }
  else finishWrite pw s n false

/-- A halt ends the program with a REASON (R135). -/
def haltEnd (pw : PortWriter) (s : State) (n : Nat) (reason : Byte) (last : DWord) : State :=
  finish pw (s.modSlot n (fun x => setFail x (csHalted, reason))) n true last

/-- The halt request that stands as a program comes to its own end, if it is the one that ends it (R138, R147, R149): a reset ends every
program of its HALTED, and a HALT-PROGRAM lets the program's own end stand but for a lane command that a lead segment preempted
(DEDUCED, log 71). -/
def haltWins (s : State) (n : Nat) (f : Option Fail) : Option Byte :=
  match (s.slot n).halt with
  | some r => if r != haltProgramReason || f = some chordPreempt then some r else none
  | none => none

/-- The program comes to its own end, with the CHANNEL STATUS it has. -/
def endsOwn (pw : PortWriter) (s : State) (n : Nat) (last : DWord) : State :=
  match haltWins s n none with
  | some r => haltEnd pw s n r last
  | none => finish pw s n false last

/-- A check ends the program (R116). -/
def checkEnd (pw : PortWriter) (s : State) (n : Nat) (f : Fail) (last : DWord) : State :=
  match haltWins s n (some f) with
  | some r => haltEnd pw s n r last
  | none => finish pw (s.modSlot n (fun x => setFail x f)) n false last

/-- A status write was refused: the program ends at once and none follows (R121). -/
def statusRefused (pw : PortWriter) (s : State) (n : Nat) (f : Fail) (last : DWord) : State :=
  finishWrite pw (s.modSlot n (fun x =>
    { setFail x f with last := last, ended := some false, exec := none, wait := none, halt := none, buf := [] })) n true

/-- An interim status of a program in its slot (R119); the state, and whether the program goes on. One that cannot be written in SPLIT
ends the program with a final status held as R133 says (DESIGN CHOICE, log 71). -/
def interim (pw : PortWriter) (s : State) (n code : Nat) : Bool × State :=
  match statusWrite pw s (partyOf s n) (s.slot n) code with
  | (none, s) => (true, s)
  | (some f, s) =>
    if finalHeld (s.modSlot n (fun x => { x with ended := some false })) n then
      (false, finish pw (s.modSlot n (fun x => setFail x f)) n false (s.slot n).last)
    else (false, statusRefused pw s n f (s.slot n).last)

/-- POST COUNT + 1 and an interim post from the CCW at `last` (R97, R119, R120). -/
def interimPost (pw : PortWriter) (s : State) (n : Nat) (last : DWord) : Bool × State :=
  interim pw (s.modSlot n (fun x => { x with post := x.post + 1, last := last })) n 2

/-! ### The prefetch buffer (R99, R126, R127) -/

/-- The buffer from address `a` on; empty when it does not hold it. -/
def keepFrom (a : DWord) (buf : List Fetched) : List Fetched := buf.dropWhile (fun e => e.addr != a)

/-- What the prefetch reads after a CCW (R126), and whether that is data-chained: nothing after one that failed, PAUSE, HALT or the end of
the chain. Of a data-chained CCW (`dc`) the command is ignored (R94). -/
def afterCcw (dc : Bool) (e : Fetched) : Option (DWord × Bool) :=
  if e.fail.isSome then none
  else
    let c := ccwOf e.bytes
    if pauseOf c.flags || (!dc && c.cmd = 0xFF) then none
    else if !dc && c.cmd = 0x08 then some (w64 c.addr, false)
    else if nextOf c.flags || spanOf c.flags then some (e.addr + 16, spanOf c.flags)
    else none

/-- Where the prefetch of a program begins: the CCW it is to execute, else the one after that executing or waiting, which it does not read
beyond when it carries PAUSE (R126). -/
def prefetchFrom (x : Slot) : Option (DWord × Bool) :=
  let fl := x.flags.toNat
  if x.exec.isNone && x.wait.isNone then some (x.pc, false)
  else if pauseOf fl then none
  else if nextOf fl || spanOf fl then some (x.ccw + 16, spanOf fl)
  else none

/-- The first address ahead, up to `k` CCWs, that the buffer does not hold or holds stale. -/
def readAhead : Nat → Option (DWord × Bool) → List Fetched → Option DWord
  | _, none, _ => none
  | 0, _, _ => none
  | _ + 1, some (a, _), [] => some a
  | k + 1, some (a, dc), e :: es => if e.addr != a || e.stale then some a else readAhead k (afterCcw dc e) es

/-- The address the prefetch reads next, if any: at most four CCWs ahead (R126). -/
def prefetchAt (x : Slot) : Option DWord := readAhead 4 (prefetchFrom x) x.buf

/-- The CCWs of the buffer that still lie ahead. -/
def keepAhead : Option (DWord × Bool) → List Fetched → List Fetched
  | some (a, dc), e :: es => if e.addr != a then [] else if e.stale then e :: es else e :: keepAhead (afterCcw dc e) es
  | _, _ => []

/-- A CCW that was read takes its place in the buffer. -/
def putFetched (e : Fetched) : Option (DWord × Bool) → List Fetched → List Fetched
  | some (a, dc), x :: xs =>
    if x.addr = a && !x.stale then x :: putFetched e (afterCcw dc x) xs
    else e :: (if x.addr = a then keepAhead (afterCcw dc e) xs else [])
  | _, _ => [e]

/-- CCWs that were read join the buffer as far as the prefetch reads them (R126). -/
def pushFetched (s : State) (n : Nat) : List Fetched → State
  | [] => s
  | e :: es =>
    pushFetched (if prefetchAt (s.slot n) = some e.addr then s.modSlot n (fun x => { x with buf := putFetched e (prefetchFrom x) x.buf }) else s) n es

/-- A store of the program makes the CCWs it overlaps stale, those being read included: they are fetched again (R99). -/
def dropOverlap (s : State) (n a len : Nat) : State :=
  let s := s.modSlot n (fun x => { x with
    buf := x.buf.map (fun e => if a < e.addr.toNat + 16 && e.addr.toNat < a + len then { e with stale := true } else e) })
  { s with reads := s.reads.map (fun r => if r.slot = n && a < r.addr.toNat + r.len && r.addr.toNat < a + len then { r with void := true } else r) }

/-! ### Between commands -/

/-- The reads of slot `n` that are under way are needed no more, but for one that reads address `keep`. -/
def readsVoid (s : State) (n : Nat) (keep : Option DWord) : State :=
  { s with reads := s.reads.map (fun r =>
      if r.slot = n && (match keep with | some a => !(r.addr.toNat ≤ a.toNat && a.toNat < r.addr.toNat + r.len) | none => true) then
        { r with void := true } else r) }

/-- The CCW at `last` has ended without a check and the chain continues at `next`, or ends (R93, R97, R135). -/
def ccwEnded (pw : PortWriter) (s : State) (n : Nat) (last : DWord) (note : Bool) (next : Option DWord) : State :=
  let s := s.modSlot n (fun x => { x with last := last, exec := none, wait := none, st := .active })
  match next with
  | none => endsOwn pw s n last
  | some a =>
    let (on, s) := if note then interimPost pw s n last else (true, s)
    if !on then s
    else match (s.slot n).halt with
      | some r => haltEnd pw s n r last
      | none =>
        let s := s.modSlot n (fun x => { x with pc := a, buf := keepFrom a x.buf, honour := true, jumped := none })
        if (s.slot n).buf.isEmpty then readsVoid s n (some a) else s

/-- The chain continues by NEXT (R93). -/
def byNext (flags : Nat) (last : DWord) : Option DWord := if nextOf flags then some (last + 16) else none

/-- A halt request reaches the program in slot `n` (R135): a WAITING or SUSPENDED program is at a boundary, and so is an
ACTIVE one that executes nothing, but a resumed one, which a HALT-PROGRAM halts after its resumed CCW (R138). A program of a lost half
stands still until it is adopted. The first request sets REASON. -/
def haltSlot (pw : PortWriter) (s : State) (n : Nat) (reason : Byte) : State :=
  let x := s.slot n
  if x.st = .free || x.ended.isSome then s
  else
    let first := x.halt.getD reason
    if (x.st = .active && (x.exec.isSome || (!x.honour && reason = haltProgramReason))) || !dieUp s (slotServer s n / 16) then
      s.modSlot n (fun x => { x with halt := some first })
    else haltEnd pw s n first (if x.st = .active then x.last else x.ccw)

/-! ### Taking a slot (R22, R119, R124, R224) -/

/-- The lowest free slot of cluster `c` (R124). -/
def freeSlot (s : State) (c : Nat) : Option Nat :=
  (rangeL (64 * c) 64).find? (fun n => (s.slot n).st = .free && (s.slot n).unit = .inService)

/-- The free slots of cluster `c`. -/
def freeSlots (s : State) (c : Nat) : Nat :=
  ((rangeL (64 * c) 64).filter (fun n => (s.slot n).st = .free && (s.slot n).unit = .inService)).length

/-- A START program takes slot `n`: the ACTIVE status is written (R119). -/
def takeSlot (pw : PortWriter) (s : State) (n : Nat) (g : Prog) (adopted : Bool) : State :=
  let s := s.modSlot n (fun x => {
    unit := x.unit, st := .active, owner := g.owner, fn := g.fn, tag := g.tag, gen := g.gen, pc := g.chain, status := g.status
    body := g.body, enforce := g.enforce, halt := g.halt, adopted := adopted })
  let (on, s) := interim pw s n 2
  if !on then s
  else match (s.slot n).halt with
    | some r => haltEnd pw s n r 0
    | none => s

/-- A follow-on chain takes slot `n` (R224). -/
def takeChain (pw : PortWriter) (s : State) (n : Nat) (e : ChainStart) : State :=
  let c := s.chord e.chord
  let f := recOwner c.record
  let s := s.modSlot n (fun x => {
    unit := x.unit, st := .active, owner := .chord e.chord, fn := f, tag := w16 e.chord, gen := e.gen, pc := e.chain
    laneRes := e.laneRes, lastIn := e.lastIn, enforce := wb (pkgOf s (slotDie n)).enforce f })
  let s := s.modChord e.chord (fun x => { x with chainLive := true })
  match e.halt with
  | some r => haltEnd pw s n r 0
  | none => if c.haltChain then haltEnd pw s n haltProgramReason 0 else s

/-! ### Lane commands and copies across steps -/

/-- Changes a command of `u` wherever it stands: on its lane, waiting there, or in flight to its cluster. -/
def mapCmd (s : State) (lanes : List Nat) (u : LaneUser) (g : LaneCmd → LaneCmd) : State :=
  lanes.foldl (fun s n =>
    let h (c : LaneCmd) : LaneCmd := if c.user = u then g c else c
    let s := s.modLane n (fun l => { l with txn := l.txn.map h, queue := l.queue.map h })
    s.modCluster (laneCluster (servingLane s n)) (fun x => { x with
      inbound := x.inbound.map (fun e => if e.lane = n then { e with cmd := h e.cmd } else e) })) s

/-- The commands of `u` are withdrawn: a running transaction ends at once. -/
def withdraw (s : State) (lanes : List Nat) (u : LaneUser) : State :=
  lanes.foldl (fun s n =>
    let s := match (s.lane n).txn with
      | some c => if c.user = u then laneNext (txnOver s n { c with target := put c.target 14 1 0 } 0 0) n else s
      | none => s
    let s := s.modLane n (fun l => { l with queue := l.queue.filter (fun c => c.user != u) })
    s.modCluster (laneCluster (servingLane s n)) (fun x => { x with inbound := x.inbound.filter (fun e => !(e.lane = n && e.cmd.user = u)) })) s

/-- RESIDUAL of a number of bytes: 16 bits; of more than 65,535 bytes the manual states no value (log 24). -/
def residOf (s : State) (k : Nat) : Half × State :=
  if k < 65536 then (w16 k, s) else let (w, s) := s.freeWord; (BitVec.ofNat 16 w.toNat, s)

/-- Bytes of all parts. -/
def partsCount (ps : List Part) : Nat := (ps.map (·.count)).foldl (· + ·) 0

/-- The bytes a command sends, of the parts known so far. -/
def execSend (e : Exec) : Nat :=
  match e.op with
  | .write => partsCount e.parts
  | .gang => partsCount e.parts
  | .xact => e.wlen
  | _ => 0

/-- The part that holds byte `off` of the data, with the offset within it. -/
def partAt : List Part → Nat → Option (Part × Nat)
  | [], _ => none
  | p :: ps, off => if off < p.count then some (p, off) else partAt ps (off - p.count)

/-- The bytes that set position `pos` has received. -/
def execGot (e : Exec) (pos : Nat) : List Byte := tget [] e.got pos

/-- The set positions of a command. -/
def execPositions (e : Exec) : List Nat := List.range e.members.length

/-- LAST INPUT (R100): the first four bytes received by the lowest position that received any. -/
def firstInput (e : Exec) : Option Word :=
  ((execPositions e).find? (fun p => !(execGot e p).isEmpty)).map (fun p => w32 (leNat (sub (execGot e p) 0 4)))

/-- The bytes of COUNT that a command ended by a check of its own data has moved; in a lane set, those of the member that moved least. -/
def execMoved (e : Exec) : Nat :=
  if e.code = 0x11 then e.moved
  else e.out.length + (match (execPositions e).map (fun p => (execGot e p).length) with
    | [] => 0
    | k :: ks => ks.foldl min k)

/-- LANE RESULT of a command none of whose members succeeded: every position has failed, bit 0 for a single lane (R100). -/
def allLanes (isSet : Bool) (m : Nat) : Word := if isSet then w32 (2 ^ m - 1) else 1

/-- A command is ended by a check of its own data: its lane commands are withdrawn, and the result registers say what was moved (R88,
R94, R100, R111, R144). -/
def cmdFails (pw : PortWriter) (s : State) (n : Nat) (f : Fail) (last : DWord) : State :=
  match (s.slot n).exec with
  | none => s
  | some e =>
    let s := if e.device = 0 then withdraw s e.members (slotUser s n) else s
    let (r, s) := residOf s (partsCount e.parts - execMoved e)
    checkEnd pw (s.modSlot n (fun x => { x with
      dev := 0, resid := r, laneRes := if e.code = 0x11 then 0 else allLanes e.isSet e.members.length
      lastIn := (firstInput e).getD x.lastIn })) n f last

/-- Stores received bytes over the parts of a command from logical byte `off` on, honouring DROP of each part (R94, R95): the failure with
the CCW it lies in, and the bytes moved. -/
def storeParts (pw : PortWriter) (p : Party) (n : Nat) : State → List Part → Nat → List Byte → (Option (Fail × DWord) × Nat) × State
  | s, [], _, _ => ((none, 0), s)
  | s, q :: qs, off, bs =>
    if bs.isEmpty then ((none, 0), s)
    else if q.count ≤ off then storeParts pw p n s qs (off - q.count) bs
    else
      let k := min (q.count - off) bs.length
      if dropOf q.flags.toNat then
        let ((f, m), s) := storeParts pw p n s qs 0 (bs.drop k)
        ((f, k + m), s)
      else
        let ps := cutPieces q.pieces off k
        let ((f, m), s) := putPieces pw p s ps (bs.take k)
        let s := ps.foldl (fun s x => dropOverlap s n x.1 x.2) s
        match f with
        | some f => ((some (f, q.ccw), m), s)
        | none =>
          if m < k then ((some (q.fail.getD listShort, q.ccw), m), s)
          else
            let ((f, m), s) := storeParts pw p n s qs 0 (bs.drop k)
            ((f, k + m), s)

/-- The parts of a command with the data of all its members (R108). -/
def partsOfSet (e : Exec) : List Part :=
  if e.isSet then e.parts.map (fun q => { q with count := q.count * e.members.length }) else e.parts

/-- Where the received bytes of set position `pos` begin in the data (R82, R108). -/
def recvBase (e : Exec) (pos : Nat) : Nat :=
  let w := if e.op = .xact then e.wlen else 0
  w + (if e.isSet then pos * (partsCount e.parts - w) else 0)

/-- Received bytes of set position `pos` of the command in slot `n` leave the lane for memory, after those that went before (R108, R132,
R160, R315): the failure of a store with its CCW, and the bytes moved. -/
def gotBytes (pw : PortWriter) (s : State) (n : Nat) (e : Exec) (pos : Nat) (bs : List Byte) : (Option (Fail × DWord) × Nat) × State :=
  let had := execGot e pos
  let ((f, k), s) := storeParts pw (partyOf s n) n s (partsOfSet e) (recvBase e pos + had.length) bs
  ((f, k), s.modSlot n (fun x => { x with exec := some { e with got := tset [] e.got pos (had ++ bs.take k) } }))

/-- The bytes of the parts whose CRC flag is set, of data that starts at logical byte `off`. -/
def crcBytes : List Part → Nat → List Byte → List Byte
  | [], _, _ => []
  | q :: qs, off, bs =>
    if bs.isEmpty then []
    else if q.count ≤ off then crcBytes qs (off - q.count) bs
    else
      let k := min (q.count - off) bs.length
      (if crcOf q.flags.toNat then bs.take k else []) ++ crcBytes qs 0 (bs.drop k)

/-- The lane of a single command. -/
def execLane (e : Exec) : Nat := e.members.headD 0

/-- The result of a lane command from those of its members (R109, R140): DEVICE STATUS, the largest residual, LANE RESULT,
and the failure. -/
def setResult (isSet : Bool) (rs : List MemberRes) : Half × Nat × Nat × Option Fail :=
  let bad := rs.filter (fun r => r.chan != 0)
  let dev := match bad.head? with | some r => r.dev | none => 0
  let resid := (rs.map (·.resid)).foldl max 0
  let bits := (bad.map (fun r => 2 ^ (if isSet then r.pos else 0))).foldl (· + ·) 0
  let f : Option Fail :=
    if bad.isEmpty then none
    else if !isSet then bad.head?.map (fun r => (r.chan, r.reason))
    else if bad.length < rs.length then some (csPartial, someLanes)
    else if bad.all (fun r => r.chan = csTimeout) then some laneTimeoutFail
    else some (csLane, match bad.find? (fun r => r.chan = csLane && r.reason != 0) with | some r => r.reason | none => 0)
  (dev, resid, bits, f)

/-- The CCW of a data chain in progress at byte `moved` (R118). -/
def partInProgress (ps : List Part) (tail : DWord) (moved : Nat) : DWord :=
  match partAt ps moved with
  | some (p, _) => p.ccw
  | none => tail

/-- The bytes of a command with CRC in the order they cross the lane (R114): the write bytes once, also for a lane set, then the received
bytes in position order; those of MDIO as they cross, the bytes an XACT sends, which carry addressing, in memory order (both DESIGN
CHOICE, log 71). `words` for data that crosses in 16-bit words (R180). -/
def crcFed (e : Exec) (words : Bool) (sent : Nat) : List Byte :=
  let cross (bs : List Byte) : List Byte := if words then swapWords bs.length 2 bs else bs
  let flags := (e.parts.headD ⟨0, 0, 0, [], none⟩).flags.toNat
  crcBytes e.parts 0 (if e.op = .xact then e.out.take sent else cross (e.out.take sent)) ++
    ((execPositions e).map (fun p =>
      let bs := cross (execGot e p)
      if e.isSet then (if crcOf flags then bs else []) else crcBytes e.parts (recvBase e p) bs)).flatten

/-- Every member of the command has ended: the result registers are set, the check accumulator is fed, and the chain goes on or ends
(R93, R98, R100, R109, R114, R134, R140). -/
def lanesEnded (pw : PortWriter) (s : State) (n : Nat) (e : Exec) : State :=
  let x := s.slot n
  let total := partsCount e.parts
  let rs := e.results
  let words := if e.device = 0 then personality (s.lane (execLane e)) = 9 else e.words
  let (dev, resid, bits, f) := setResult e.isSet rs
  let sent := (rs.map (fun r => total - r.resid - (execGot e r.pos).length)).foldl max 0
  let (rw, s) := residOf s resid
  let s := s.modSlot n (fun x => { x with
    dev := dev, resid := rw, laneRes := w32 bits, lastIn := (firstInput e).getD x.lastIn
    acc := if e.op = .sense then x.acc else accFeed x.acc (crcFed e words sent) })
  let tail := e.parts.getLastD ⟨x.ccw, 0, 0, [], none⟩
  let fl := tail.flags.toNat
  match f with
  | none =>
    match (s.slot n).halt with
    | some r => if rs.any (·.cut) then haltEnd pw s n r tail.ccw else ccwEnded pw s n tail.ccw (noteOf fl) (byNext fl tail.ccw)
    | none => ccwEnded pw s n tail.ccw (noteOf fl) (byNext fl tail.ccw)
  | some f =>
    if f = (csPartial, someLanes) then
      let s := s.modSlot n (fun x => setFail x f)
      if ctpOf fl then ccwEnded pw s n tail.ccw (noteOf fl) (byNext fl tail.ccw) else endsOwn pw s n tail.ccw
    else checkEnd pw s n f (partInProgress e.parts tail.ccw (total - resid))

/-- Results are kept in position order. -/
def insertRes (r : MemberRes) : List MemberRes → List MemberRes
  | [] => [r]
  | q :: qs => if r.pos < q.pos then r :: q :: qs else q :: insertRes r qs

/-- The result of one member reaches the program in its slot (R140): the bytes not yet in memory are stored, and a store that fails ends
the command, unless the member failed itself; then they count as not moved (R100, R111). -/
def memberEnds (pw : PortWriter) (s : State) (n : Nat) (r : MemberRes) : State :=
  match (s.slot n).exec with
  | none => s
  | some e =>
    if e.results.any (fun q => q.pos = r.pos) || e.code = 0x11 then s
    else
      let ((f, k), s) := gotBytes pw s n e r.pos r.recv
      let fails := if r.chan = 0 then f else none
      let resid := if f.isSome then r.resid + (r.recv.length - k) else r.resid
      let s := s.modSlot n (fun x => { x with exec := x.exec.map (fun e => { e with results := insertRes { r with resid := resid, recv := [] } e.results }) })
      match fails, (s.slot n).exec with
      | some (f, a), _ => cmdFails pw s n f a
      | none, some e => if e.results.length = e.members.length then lanesEnded pw s n e else s
      | none, none => s

/-- The result of the member at position `pos` is lost with its path: its bytes not yet in memory count as not moved (R132, R140). -/
def memberLost (pw : PortWriter) (s : State) (n pos : Nat) : State :=
  match (s.slot n).exec with
  | none => s
  | some e =>
    memberEnds pw s n {
      pos := pos, dev := 0, chan := pathLost.1, reason := pathLost.2, resid := partsCount e.parts - (execGot e pos).length, recv := [] }

/-- The slot still runs the program that issued a read (R143). -/
def readMatches (s : State) (r : HostRead) : Bool :=
  let x := s.slot r.slot
  x.st != .free && x.fn = r.fn && x.tag = r.tag && x.gen = r.gen && x.ended.isNone

/-- The slot still holds the program that a message names (R143). -/
def slotMatches (s : State) (u : LaneUser) : Bool :=
  let x := s.slot u.slot
  x.st != .free && x.fn = u.fn && x.tag = u.tag && x.gen = u.gen && x.ended.isNone

/-- A lane's result at the lane: applied at once when the lane lies in the home cluster, else sent on (R131, R140). -/
def deliver (pw : PortWriter) (s : State) (n : Nat) (r : Ended) : State :=
  match r with
  | (none, _) => s
  | (some (c, res), _) =>
    if c.discard then s
    else if isRemoteCmd c then sendResult s n c res
    else if laneCluster (servingLane s n) = slotServer s c.user.slot then
      (if slotMatches s c.user then memberEnds pw s c.user.slot res else countStale s (slotServer s c.user.slot))
    else pushResult s n c res

/-- An end at a lane together with what follows it. -/
def laneDone (pw : PortWriter) (r : Ended) (n : Nat) : State := deliver pw r.2 n r

end Sys2Proof.Machine
end

