-- ==== Sys2Proof/Machine/Fabric.lean ====
section
/-! DEFINITION. The vertex fabric: firing and releasing a vertex with everything that watches it (R104, R197, R198, R296,
R441), and the lead segments that a firing launches on lanes (R205–R209, R219–R225). -/

namespace Sys2Proof.Machine

/-! ### Vertices -/

/-- The programs that wait for vertex `v`. -/
def waitingOn (s : State) (v : Nat) : List Nat :=
  (s.slots.filter (fun e => e.2.st = .waiting && (match e.2.wait with | some w => w.vertex = some v | none => false))).map Prod.fst

/-- A WAIT ends because its vertex fired, or was asserted at registration: the chain continues at the CCW after it (R103). -/
def waitFired (pw : PortWriter) (s : State) (n : Nat) : State :=
  let x := s.slot n
  ccwEnded pw s n x.ccw (noteOf x.flags.toNat) (byNext x.flags.toNat x.ccw)

/-- The contexts of a steward that wait for vertex `v` read 1 in SYS.r when they go on (R383). -/
def ctxWaitFired (s : State) (d v : Nat) : State :=
  s.modDie d (fun x => { x with stw := { x.stw with core := { x.stw.core with
    ctxs := x.stw.core.ctxs.map (fun e =>
      if e.2.st = .waiting && (match e.2.wait with | some w => w.vertex = some v | none => false) then (e.1, { e.2 with sysR := some 1 })
      else e) } } })

/-- Every other device with a subscription to vertex `v` is sent its change (R441). -/
def tellSubs (s : State) (v : Nat) (lvl : Bool) : State :=
  (s.pkg.subs.filter (fun e => e.vertex = v)).foldl (fun s e =>
    let c := e.change + 1
    let s := s.modPkg (fun p => { p with
      subs := p.subs.map (fun x => if x.device = e.device && x.index = e.index && x.vertex = v then { x with change := c } else x) })
    sendTo s e.device.toNat (.vertex 0 e.device e.index lvl c s.pkg.sysId)) s

/-- What watches vertex `v` sees it fire or release: chords, sources, subscriptions and WAITs. -/
def vertexSeen (pw : PortWriter) (s : State) (v : Nat) (lvl : Bool) : State :=
  let s := { s with edgesNow := s.edgesNow ++ [(v, lvl)] }
  let s := chordsSee s v lvl
  let s := vertexEdge s v lvl
  let s := tellSubs s v lvl
  if lvl then
    let s := ctxWaitFired (ctxWaitFired s 0 v) 1 v
    (waitingOn s v).foldl (fun s n => waitFired pw s n) s
  else s

/-- Vertex `v` takes an asserted level: it fires or releases (R197). -/
def vertexSet (pw : PortWriter) (s : State) (v : Nat) (lvl : Bool) : State :=
  if s.level v = lvl then s else vertexSeen pw { s with levels := tset false s.levels v lvl } v lvl

/-- A one-tick source occurs: it fires, for one tick, also right after an earlier occurrence; any number of occurrences in one
tick make one firing (R197, R198). -/
def fireOnce (pw : PortWriter) (s : State) (v : Nat) : State :=
  if s.edgesNow.contains (v, true) then s
  else
    let s := vertexSet pw s v true
    { s with ticking := s.ticking.filter (· != v) ++ [v] }

/-- The end of a tick: a one-tick source that did not occur in it, but in the tick before, releases in it (R197). -/
def ticksReleased (pw : PortWriter) (s : State) : State :=
  let gone := s.ticking.filter (fun v => !s.edgesNow.contains (v, true))
  let s := gone.foldl (fun s v => vertexSeen pw s v false) s
  { s with ticking := s.ticking.filter (fun v => !gone.contains v) }

/-- A soft vertex fires with event data (R86, R296, R300). -/
def fireSoft (pw : PortWriter) (s : State) (n : Nat) (data : Word) : State :=
  pendShared (fireOnce pw s (1056 + n)) (256 + n) kindSoft data.toNat

/-- A die fault vertex (R15). -/
def fireFault (pw : PortWriter) (s : State) (d f : Nat) : State := fireOnce pw s (1472 + 8 * d + f)

/-- The inversion of input vertex `v` as it has reached the fabric: that of its register, but for the changes on their way (R200). -/
def inverted (s : State) (v : Nat) (reg : Bool) : Bool := reg != ((s.turned.filter (fun t => t.vertex = v && t.inv)).length % 2 == 1)

/-- The level at an input after its inversion (R198). -/
def pinAsserted (s : State) (v : Nat) : Bool :=
  let n := v / 2
  let raw := if v % 2 = 0 then (s.lane n).levelA else (s.lane n).levelB
  raw != inverted s v (wb (tget 0 s.pinPol (v / 32)) (v % 32))

/-- The level of a fast vertex input after its inversion. -/
def fvAsserted (s : State) (i : Nat) : Bool := tget false s.fvRaw i != inverted s (768 + i) (wb (tget 0 s.fvCfg i) 0)

/-- The window of a sense comparator. -/
def winOfInput (x : Input) (k : Nat) : Window := if k = 0 then x.win0 else x.win1

/-- A change of inversion, a caught pulse's end or a window's new mode reaches the vertex (R199, R200, R231, log 23). -/
def turnVertex (pw : PortWriter) (s : State) (v : Nat) : State :=
  if v < 768 then vertexSet pw s v (pinAsserted s v)
  else if v < 800 then vertexSet pw s v (fvAsserted s (v - 768))
  else
    let i := (v - 800) / 2
    let k := (v - 800) % 2
    if wf (winOfInput (s.input i) k).reg 18 2 = 0 then
      let off (w : Window) : Window := { w with level := false, hold := none }
      let s := s.modInput i (fun x => if k = 0 then { x with win0 := off x.win0 } else { x with win1 := off x.win1 })
      vertexSet pw s v false
    else s

/-! ### Lead segments -/

/-- The lane and pin of a stroke's PIN (R207). -/
def leadPin (n pin : Nat) : Nat × Bool := (n + pin / 2, pin % 2 = 1)

/-- A pin that the personality drives open-drain (R208); the pins of an odd lane and of a strobe lane follow their governor (R12, R167). -/
def openDrain (s : State) (n : Nat) (pinB : Bool) : Bool :=
  let l := s.lane (governor s n)
  let role := pinRole s n pinB
  let p := personality l
  if p = 0xC then wb l.frmCfg 10 && wf l.frmCfg 2 2 = role
  else isI2c p || (p = 5 && role = 1) || (p = 1 && wf l.opt (2 * role) 2 = 2)

/-- A pin takes a state of its own, or its personality's again. -/
def setDrive (s : State) (n : Nat) (pinB : Bool) (d : Option Drive) : State :=
  s.modLane n (fun l => if pinB then { l with driveB := d } else { l with driveA := d })

/-- Driving a pin high or low as its personality does (R208). -/
def driveTo (s : State) (n : Nat) (pinB lvl : Bool) : State :=
  setDrive s n pinB (some (if lvl then (if openDrain s n pinB then .hiz else .high) else .low))

/-- The next stroke of a segment, `t` ticks counted from the end of the one before; past the last the segment is closed. -/
def nextStroke (x : Lead) (t : Nat) : Lead :=
  let i := x.stroke + 1
  if i < strokeCount x.param.toNat then { x with stroke := i, pulse := none, due := t + strokeDelay x.seg i }
  else { x with stroke := i, pulse := none, closed := true }

/-- The lead segment on a lane starts its next stroke (R207). -/
def strokeStarts (s : State) (n : Nat) : State :=
  match (s.lane n).lead with
  | none => s
  | some x =>
    if x.frame || x.closed || x.pulse.isSome || s.edges < x.due || strokeCount x.param.toNat ≤ x.stroke then s
    else
      let (m, pinB) := leadPin n (strokePin x.seg x.stroke)
      let a := strokeAction x.seg x.stroke
      if a < 3 then
        let s := if a = 2 then setDrive s m pinB (some .hiz) else driveTo s m pinB (a = 0)
        s.modLane n (fun l => { l with lead := some (nextStroke x s.edges) })
      else
        let before := pinHeld s m pinB
        let s := driveTo s m pinB (a = 3)
        s.modLane n (fun l => { l with lead := some { x with
          pulse := some { pin := strokePin x.seg x.stroke, before := before, until_ := s.edges + strokeWidth x.seg x.stroke } } })

/-- A pulse ends: the pin returns to its earlier state (R207). -/
def pulseEnds (s : State) (n : Nat) : State :=
  match (s.lane n).lead with
  | none => s
  | some x => match x.pulse with
    | none => s
    | some u =>
      if s.edges < u.until_ then s
      else
        let (m, pinB) := leadPin n u.pin
        let s := setDrive s m pinB u.before
        s.modLane n (fun l => { l with lead := some (nextStroke x s.edges) })

/-- The level of the clock pin and of the data pin, none for released, at tick `t` of a lead frame (R186, R209): each bit lasts
2 × HALF ticks; with CPHA = 0 the leading edge comes HALF ticks into it, with CPHA = 1 at its start; after BITS the data is released, and
after TAIL the clock rests at CPOL. -/
def frameLevels (l : Lane) (x : Lead) (t : Nat) : Bool × Option Bool :=
  let cpol := wb l.frmCfg 7
  let bits := fld x.param.toNat 0 8
  let i := t / (2 * x.half)
  let late := decide (x.half ≤ t % (2 * x.half))
  if bits + fld x.param.toNat 8 4 ≤ i then (cpol, none)
  else (cpol != (late != wb l.frmCfg 8), if bits ≤ i then none else (bytesBits (wb l.frmCfg 9) x.seg)[i]?)

/-- The pins of a lead frame at its tick `t` (R208, R209). -/
def framePins (s : State) (n : Nat) (x : Lead) (t : Nat) : State :=
  let l := s.lane n
  let (cl, cb) := leadPin n (wf l.frmCfg 0 2)
  let (dl, db) := leadPin n (wf l.frmCfg 2 2)
  let (clk, data) := frameLevels l x t
  let s := setDrive s cl cb (some (if clk then .high else .low))
  match data with
  | some b => driveTo s dl db b
  | none => setDrive s dl db (some .hiz)

/-- The first frame tick of a lead frame (R209). -/
def frameFrom (x : Lead) : Nat := x.launch + fld x.param.toNat 12 4

/-- A lead frame starts at the end of its START delay (R209). -/
def frameStarts (s : State) (n : Nat) : State :=
  match (s.lane n).lead with
  | none => s
  | some x =>
    if !x.frame || x.begun || x.closed || s.edges < x.due then s
    else
      (framePins s n x (s.edges - frameFrom x)).modLane n (fun l => { l with lead := some { x with
        begun := true, due := frameFrom x + 2 * x.half * (fld x.param.toNat 0 8 + fld x.param.toNat 8 4) } })

/-- A lead frame that runs has its pins at the level of this tick (R209). -/
def frameRuns (s : State) (n : Nat) : State :=
  match (s.lane n).lead with
  | none => s
  | some x => if x.frame && x.begun && !x.closed then framePins s n x (s.edges - frameFrom x) else s

/-- The bits and the tail of a lead frame are out: the clock rests at CPOL and data is released (R209). -/
def frameEnds (s : State) (n : Nat) : State :=
  match (s.lane n).lead with
  | none => s
  | some x =>
    if !x.frame || !x.begun || x.closed || s.edges < x.due then s
    else (framePins s n x (s.edges - frameFrom x)).modLane n (fun l => { l with lead := some { x with closed := true } })

/-- The lead segment on a lane has ended: its claim result, what its chord does next, and the lane's waiting commands
(R90, R216, R225). -/
def segmentEnds (s : State) (n : Nat) : State :=
  match (s.lane n).lead with
  | none => s
  | some x =>
    if !x.closed then s
    else
      let s := s.modLane n (fun l => if l.unit = .resetting then laneWiped { l with lead := none } else { l with lead := none })
      let s := if (s.lane n).unit = .resetting then s else idleTaken s n
      laneNext (claimEnds s x.chord x.claim x.launch (if x.twin then 5 else 1)) n

/-- A segment that lost the lane to another chord: counted on the lane's die and its chord (R220). -/
def claimLost (s : State) (n c : Nat) : State :=
  (s.modDie (laneDie n) (fun x => { x with conflicts := sat x.conflicts })).modChord c (fun x => { x with claimsLost := sat x.claimsLost })

/-- A claim that cannot run on its lane (R215, R220): LANE_FAULT. -/
def claimFault (s : State) (n kind : Nat) (usesOdd : Bool) : Bool :=
  let l := s.lane n
  let m := servingLane s n
  laneGone s n || (s.cluster (laneCluster m)).bankFault || (s.lane m).isolated || isLost s (laneDie m) || isPartner s n ||
  (strobeOf s n).isSome || isTargetMailbox (personality l) ||
  (if kind = 2 then personality l != 0xC || !laneOn l else usesOdd && !wb l.cfg 4)

/-- A stroke segment uses the odd lane's pins. -/
def usesOddPin (param : Nat) (seg : List Byte) : Bool := (List.range (strokeCount param)).any (fun i => 2 ≤ strokePin seg i)

/-- The pins are taken from a lane command, a held transaction or a recovery (R90, R220). -/
def takePins (pw : PortWriter) (s : State) (n : Nat) (cuts : List LaneCut) : State :=
  let cut := match cuts.find? (fun k => k.lane = n) with | some k => k | none => ⟨n, 0, []⟩
  let s := match (s.lane n).txn with
    | some _ => laneDone pw (laneAborts s n (some chordPreempt) 0 0 cut.sent cut.recv []) n
    | none => s
  match (s.lane n).held with
  | some h => (holdEnds s n).modLane n (fun l => { l with lost := l.lost ++ [(h.user, chordPreempt.2)] })
  | none => s

/-- The segment of claim `k` as it is launched. -/
def leadOf (c k : Nat) (x : Chord) (now : Nat) (twin : Bool) : Lead :=
  let w := recClaim x.record k
  let prm := recParam x.record k
  let seg := recSegment x.record k
  { chord := c, claim := k, rank := recRank x.record, launch := now, frame := claimKind w = 2, half := claimHalf w
    param := w16 prm, seg := seg
    due := now + (if claimKind w = 2 then fld prm 12 4 else strokeDelay seg 0), twin := twin }

/-- A chain on the chord list learns of a claim that was displaced in its launch tick (R220, R224). -/
def markLost (s : State) (c k : Nat) : State :=
  s.modCluster (chordCluster c) (fun x => { x with
    chords := x.chords.map (fun e => if e.chord = c then { e with laneRes := e.laneRes ||| w32 (2 ^ k) } else e) })

/-- The launch of claim `k` of chord `c` reaches its lane (R220): the claim result, 7 while its segment runs. -/
def launchClaim (pw : PortWriter) (s : State) (c k : Nat) (cuts : List LaneCut) : Nat × State :=
  let x := s.chord c
  let w := recClaim x.record k
  let n := claimLane w
  let rank := recRank x.record
  if claimFault s n (claimKind w) (claimKind w = 1 && usesOddPin (recParam x.record k) (recSegment x.record k)) then (4, s)
  else
    let start (s : State) : Nat × State :=
      let s := takePins pw s n cuts
      (7, s.modLane n (fun l => { l with lead := some (leadOf c k (s.chord c) s.edges (servingLane s n != n)), released := none }))
    match (s.lane n).lead with
    | none => start s
    | some y =>
      let wins := y.rank < rank || (y.launch = s.edges && y.rank = rank && c < y.chord)
      if wins then
        let same := y.launch = s.edges
        let s := claimLost s n y.chord
        let s := s.modLane n (fun l => { l with lead := none })
        let s := if same then markLost s y.chord y.claim else s
        start (claimEnds s y.chord y.claim y.launch (if same then 2 else 3))
      else (2, claimLost s n c)

/-- The launches of a chord's claims, in index order. -/
def launchClaims (pw : PortWriter) (c : Nat) (cuts : List LaneCut) : List Nat → State → State
  | [], s => s
  | k :: ks, s =>
    let (r, s) := launchClaim pw s c k cuts
    let s := setClaim s c k r
    let s := if r = 7 then s.modChord c (fun x => { x with running := x.running ++ [k] }) else s
    launchClaims pw c cuts ks s

/-- The claims that were LOST or LANE_FAULT at launch, as LANE RESULT bits (R224). -/
def lostClaims (x : Chord) : Nat :=
  ((List.range 4).map (fun k => if claimResult x k = 2 || claimResult x k = 4 then 2 ^ k else 0)).foldl (· + ·) 0

/-- The launch requests the region, engine and steward clocks for the chord's cluster (R45, R459); a domain that runs is not idle. -/
def askClocks (s : State) (c : Nat) : State :=
  let s := s.modRegion (c / 4) (fun x => if x.power = .run then { x with idleSince := s.edges } else { x with asked := true })
  s.modDie (c / 16) (fun x => if x.stewardClock then { x with idleSince := s.edges } else { x with asked := true })

/-- The launch tick of a chord's match (R45, R219, R223, R225). -/
def chordLaunch (pw : PortWriter) (s : State) (c : Nat) (cuts : List LaneCut) : State :=
  let x := s.chord c
  match x.matched with
  | none => s
  | some m =>
    let v := trigVertex (recTrigger x.record m.trigger)
    let s := s.modChord c (fun x => { x with
      matched := none, launch := s.edges, running := [], firings := x.firings + 1
      fireTime := s.pilot, fireInfo := w32 (v + 4096 * m.trigger), fireEnd := 0 })
    let s := if x.st = .armed then chordTo s c .firing else s
    let s := if hasStandby s c then modPair s c (fun p => { p with kept := none }) else s
    let s := askClocks (launchClaims pw c cuts ((recClaims x.record).map Prod.fst) s) (chordCluster c)
    let y := s.chord c
    let s := bbxRecord s (chordDie c) 0x03 (c + 4096 * y.gen.toNat + 65536 * recOwner y.record) (leBytes 4 y.fireInfo.toNat)
    let s :=
      if recChain y.record = 0 then s
      else
        let s := s.modCluster (chordCluster c) (fun q => { q with chords := q.chords ++ [{
          chord := c, gen := y.gen, chain := w64 (recChain y.record), laneRes := w32 (lostClaims y)
          lastIn := w32 (v + 4096 * m.trigger) }] })
        s.modChord c (fun x => { x with chainLive := true })
    if (s.chord c).running.isEmpty then chordSegmentsDone s c else s

end Sys2Proof.Machine
end

