-- ==== Sys2Proof/Machine/Resets.lean ====
section
/-! DEFINITION. Resets of a chord slot, a function, a port, a region and a unit, and the fresh state of a half (R17–R19,
R29, R47, R48, R134–R151, R218, R264, R279, R287, R310, R409, R466–R469). -/

namespace Sys2Proof.Machine

/-! ### Chords (R18, R218, R409) -/

/-- The slot that runs the follow-on chain of chord `c`, if any. -/
def chainSlot (s : State) (c : Nat) : Option Nat :=
  (s.slots.find? (fun e => e.2.st != .free && e.2.owner = .chord c)).map Prod.fst

/-- A disarm of one chord takes effect (R218): DRAINING until a chain that a match has made or will make has ended, else
DISARMED with a match already made still to launch. `halt` carries the REASON of a halt request for the chain. -/
def disarmSingle (pw : PortWriter) (s : State) (c : Nat) (halt : Option Byte) : State :=
  let x := s.chord c
  if x.st = .disarmed || x.st = .draining then s
  else if x.chainLive || (x.matched.isSome && recChain x.record != 0) then
    let s := s.modChord c (fun x => { x with st := .draining, trigs := [], haltChain := halt = some haltProgramReason })
    match halt, chainSlot s c with
    | some r, some n => haltSlot pw s n r
    | _, _ => s
  else (disarmOne s c).modChord c (fun y => { y with matched := x.matched })

/-- A disarm of a chord and of its twin in a pair, which ends (R218, R408). -/
def disarmAt (pw : PortWriter) (s : State) (c : Nat) (halt : Option Byte) : State :=
  if (pairOf s c).valid then
    let s := modPair s c (fun _ => {})
    disarmSingle pw (disarmSingle pw s c halt) (twinChord c) halt
  else disarmSingle pw s c halt

/-- The standby of chord `c` is promoted (R409): it becomes unpaired and active, with a match of the last 2,500 ticks that
the active chord has not confirmed to launch. A standby that shows FIRING goes on as the active chord's firing stands. -/
def promoteChord (s : State) (c : Nat) : State :=
  if !hasStandby s c then s
  else
    let t := twinChord c
    let kept := match (pairOf s c).kept with
      | some m => if s.edges ≤ m.tick + 2500 then some m else none
      | none => none
    let x := s.chord c
    let s := modPair s c (fun _ => {})
    let s := s.modChord t (fun y => { y with matched := kept, launch := x.launch })
    let s := bbxRecord s (chordDie t) 0x17 (t + 4096 * b2n kept.isSome) []
    if (s.chord t).st != .firing then s
    else if x.chainLive then s.modChord t (fun y => { y with st := .following })
    else chordRest s t

/-- Chord `c` is lost to its die: disarmed, its standby promoted (R18, R29, R397, R409). -/
def chordDropped (pw : PortWriter) (s : State) (c : Nat) : State :=
  if (s.chord c).st = .disarmed then s
  else if isStandby s c then disarmOne (modPair s c (fun _ => {})) c
  else disarmSingle pw (promoteChord s c) c none

/-! ### Programs that hold no slot -/

/-- A queued program as a slot would hold it. -/
def progSlot (g : Prog) : Slot :=
  { st := .active, owner := g.owner, fn := g.fn, tag := g.tag, gen := g.gen, status := g.status, body := g.body, enforce := g.enforce }

/-- The party of a queued program of cluster `c`. -/
def progParty (c : Nat) (g : Prog) : Party :=
  { fn := g.fn, chord := none, body := g.body, enforce := g.enforce, die := c / 16, region := c / 4 }

/-- A QUEUED program of cluster `c` ends HALTED with LAST CCW ADDRESS 0 (R135, R136, R151). -/
def progHalted (pw : PortWriter) (s : State) (c : Nat) (g : Prog) (reason : Byte) : State :=
  let x := setFail (progSlot g) (csHalted, reason)
  let s := match g.body with
    | some t => (s.modTile t (fun y => { y with used := false })).modTile ((t + 2048) % 4096 + 4) (fun y => { y with used := false })
    | none => s
  let s := quarLeave s g.fn g.tag
  if silent s x then bbxRecord s (if dieUp s (c / 16) then c / 16 else 1 - c / 16) 0x02 (markArg x reason.toNat) (zeros 8)
  else
    let (f, s) := statusWrite pw s (progParty c g) x 6
    let x := match f with | some f => setFail x f | none => x
    let s := match g.owner with
      | .entry src idx =>
        complete pw s src idx (if f.isSome then ccStatusWriteFailed else ccProgramHalted) g.gen.toNat
          (if f.isSome then leBytes 2 x.chan.toNat ++ [x.reason] else [])
      | _ => s
    (haltWaiters s g.fn g.tag).foldl (fun s w => complete pw s w.1 w.2 ccSuccess 0 []) s

/-- The queued programs that `which` names leave their lists and end HALTED. -/
def queuedHalted (pw : PortWriter) (s : State) (which : Nat → Prog → Bool) (reason : Byte) : State :=
  (s.clusters.map Prod.fst).foldl (fun s c =>
    let x := s.cluster c
    let gone := x.admits.filter (which c) ++ x.lostAdmit.filter (which c)
    let s := s.modCluster c (fun x => { x with
      admits := x.admits.filter (fun g => !which c g), lostAdmit := x.lostAdmit.filter (fun g => !which c g) })
    gone.foldl (fun s g => progHalted pw s c g reason) s) s

/-! ### Functions and ports -/

/-- A ring ceases to exist (R310): the target's pending sources, notices, counts and timers are cleared, and shared sources
routed to it leave service and lose their pending flags. -/
def ringGone (s : State) (t : Nat) : State :=
  let s := s.modTarget t (fun g => { g with
    live := false, ready := false, msixPending := false, pend := [], notices := [], paces := [], replay := [], unread := [] })
  (s.shared.map Prod.fst).foldl (fun s n =>
    if routeTarget (s.source n) = t then routeApply (s.modSource n (fun x => { x with pend := none, inService := false })) n else s) s

/-- A mailbox request in progress is abandoned: its completion code, and OWN cleared, nothing else (R264). -/
def mailboxAbandoned (s : State) (f : Nat) : State :=
  if (s.func f).request.isNone then s
  else (mailboxPut s f 0x30 (leBytes 2 ccAbandoned)).modFunc f (fun x => { x with
    request := none, mailbox := tset 0 x.mailbox 0x3F (tget 0 x.mailbox 0x3F &&& 0x7F) })

/-- The tiles of function `f` return to the pool; one sealed by its chords does so when the last is DISARMED (R279, R287). -/
def tilesLeave (s : State) (f : Nat) : State :=
  (s.tiles.map Prod.fst).foldl (fun s t =>
    let y := s.tile t
    if y.owner = .fn f && !y.retired then s.modTile t (fun y => { y with owner := .pool })
    else if y.owner = .device && (sealers s t).any (fun c => recOwner (s.chord c).record = f) then
      s.modTile t (fun y => { y with toPool := true })
    else s) s

/-- The follow-on chains of function `f` that wait on a chord list are to end HALTED as they take their slots, but for those of chords
with PERSIST (R147–R149, R224). -/
def chainsHalted (s : State) (f : Nat) (reason : Byte) : State :=
  s.each (s.clusters.map Prod.fst) (fun s c => s.modCluster c (fun x => { x with
    chords := x.chords.map (fun e =>
      let r := (s.chord e.chord).record
      if recOwner r = f && !recPersist r && e.halt.isNone then { e with halt := some reason } else e) }))

/-- A function reset begins (R147, R149, R264, R279, R287, R310, R323). Its chords without PERSIST are disarmed first, so that
none arms again as its chain ends; a status held for the bridge is not written. A tag whose program still runs leaves quarantine as that
program ends, its queue being gone (R141). -/
def functionReset (pw : PortWriter) (s : State) (f : Nat) (reason : Byte) : State :=
  let s := s.modFunc f (fun x => { x with inReset := true, resetAt := s.edges, held := [] })
  let s := stewardNotice s (fnPort f) f 2
  let s := tilesLeave s f
  let s := (s.chords.map Prod.fst).foldl (fun s c =>
    let x := s.chord c
    if x.st != .disarmed && recOwner x.record = f && !recPersist x.record then disarmAt pw s c none else s) s
  let s := queuedHalted pw s (fun _ g => g.fn = f) reason
  let s := chainsHalted s f reason
  let s := (s.slots.map Prod.fst).foldl (fun s n =>
    let x := s.slot n
    if x.fn = f && x.st != .free && !persistOwner s x.owner then
      (if s.heldFinal.contains n then finishWrite pw { s with heldFinal := s.heldFinal.filter (· != n) } n false else haltSlot pw s n reason)
    else s) s
  let s := mailboxAbandoned s f
  let s := { s with queues := s.queues.filter (fun e => e.1 / 128 != f) }
  let s := s.modFunc f (fun x => { x with
    adminCtrl := 0, adminNew := none, adminBase := 0, adminMirror := 0
    quar := (x.quar.filter (fun e => s.slots.any (fun y => y.2.st != .free && y.2.fn = f && y.2.tag = e.tag))).map (fun e => { e with src := .mailbox f }) })
  let s := ringGone s f
  (s.xfrs.map Prod.fst).foldl (fun s ch =>
    if (s.xfr ch).st = .running && xfrOwner (s.xfr ch).cfg = f then xfrFail s ch xfrOwnerReset else s) s

/-- A function reset that arrives while the half of its port reloads its firmware (R469): the hardware stops the function's fetches and
writes at once, and the firmware's part follows when the reload ends. -/
def resetOrWait (pw : PortWriter) (s : State) (f : Nat) (reason : Byte) : State :=
  if s.pkg.reloading = some (fnPort f) then
    s.modFunc f (fun x => { x with inReset := true, resetAt := if x.inReset then x.resetAt else s.edges, held := [], resetWait := some reason })
  else functionReset pw s f reason

/-- The firmware's part of the resets that waited for the reload of half `d` (R469). -/
def resetsFollow (pw : PortWriter) (s : State) (d : Nat) : State :=
  (rangeL (4 * d) 4).foldl (fun s f => match (s.func f).resetWait with
    | some reason =>
      let at_ := (s.func f).resetAt
      (functionReset pw (s.modFunc f (fun x => { x with resetWait := none })) f reason).modFunc f (fun x => { x with resetAt := at_ })
    | none => s) s

/-- A function leaves its reset when none of its programs is left, its port is out of reset and its half is not reloading (R147,
R469, log 11). -/
def functionResetOver (s : State) (f : Nat) : State :=
  let x := s.func f
  let port := if fnPort f = 0 then s.pkg.port0Reset else s.pkg.port1Reset
  if x.inReset && x.resetWait.isNone && !port && dieUp s (fnPort f) && s.pkg.reloading != some (fnPort f) &&
      !s.slots.any (fun e => e.2.st != .free && e.2.fn = f && !persistOwner s e.2.owner) then
    s.modFunc f (fun x => { x with inReset := false })
  else s

/-- A PCIe port reset acts on each of the port's functions (R149). -/
def portReset (pw : PortWriter) (s : State) (p : Nat) : State :=
  (rangeL (4 * p) 4).foldl (fun s f => resetOrWait pw s f portResetReason) s

/-! ### Lane commands whose path is lost (R48, R90, R132) -/

/-- The result of a lane command whose path was lost: every byte that is not home counts as not moved. -/
def lostPath (c : LaneCmd) : MemberRes := plainRes c (some pathLost) []

/-- The home program of a command of lane `n` learns that the path is lost; one on a half that is lost learns when it is adopted. -/
def homeLoses (pw : PortWriter) (s : State) (n : Nat) (c : LaneCmd) : State :=
  if c.discard || isRemoteCmd c then s
  else if !dieUp s (slotServer s c.user.slot / 16) then pushResult s n c (lostPath c)
  else if slotMatches s c.user then memberLost pw s c.user.slot c.pos
  else countStale s (slotServer s c.user.slot)

/-- Commands that `which` names lose their path: running ones go on and their results are discarded when `keep`, else they
and the waiting ones are gone. Those that their senders still hold for a credit (R130) go when `held`. -/
def pathDrop (pw : PortWriter) (s : State) (keep held : Bool) (which : Nat → LaneCmd → Bool) : State :=
  let s := (s.lanes.map Prod.fst).foldl (fun s n =>
    let l := s.lane n
    let run := match l.txn with | some c => if which n c then [c] else [] | none => []
    let wait := l.queue.filter (which n)
    let s := s.modLane n (fun l => { l with
      txn := match l.txn with
        | some c => if which n c then (if keep then some { c with discard := true } else none) else some c
        | none => none
      queue := l.queue.filter (fun c => !which n c) })
    (run ++ wait).foldl (fun s c => homeLoses pw s n c) s) s
  (s.clusters.map Prod.fst).foldl (fun s k =>
    let sent := (s.cluster k).inbound.take (if held then (s.cluster k).inbound.length else 32)
    let gone := sent.filter (fun e => which e.lane e.cmd)
    let s := s.modCluster k (fun x => { x with
      inbound := sent.filter (fun e => !which e.lane e.cmd) ++ x.inbound.drop sent.length })
    gone.foldl (fun s e => homeLoses pw s e.lane e.cmd) s) s

/-! ### Regions (R29, R150, R468) -/

/-- PKG_WIN_INVAL.PENDING clears when no region has a drop to make (R67). -/
def invalSettled (s : State) : State :=
  if (List.range 8).any (fun r => (s.region r).dropPending) then s else s.modPkg (fun p => { p with inval := put p.inval 31 1 0 })

/-- GEN of a tile: its own count and its region's resets (R286). -/
def tileGen (s : State) (t : Nat) : BitVec 4 := (s.tile t).gen + (s.region (t / 512)).gens

/-- The tiles of region `r` after its reset: pool tiles unowned and unsealed, their GEN one higher with the region's count;
reserve and retired tiles as they were. -/
def regionTiles (r : Nat) (s : State) : State :=
  (s.tiles.map Prod.fst).foldl (fun s t =>
    if t / 512 != r then s
    else if t % 512 < 16 then s
    else if (s.tile t).retired || (s.tile t).used then s.modTile t (fun y => { y with gen := y.gen - 1 })
    else s.modTile t (fun y => { y with owner := .pool, toPool := false })) s

/-- A cluster after a reset of its region: VOLTS in force, and the bank in fault where it disagrees with the supply (R24, R25). -/
def clusterReset (x : Cluster) : Cluster :=
  let v := match x.voltsNew with | some v => v | none => x.volts
  { volts := v, measured := x.measured, bankFault := v != x.measured, adopts := x.adopts, adopted := x.adopted
    engine := x.engine, engineUnit := if x.engineUnit = .resetting then .inService else x.engineUnit, rows := x.rows
    lostAdmit := x.lostAdmit }

/-- A lane after a reset of its region: its FIFO, shifter and waiting commands are gone, its configuration stays (R29, R47). -/
def laneCleared (l : Lane) : Lane :=
  { l with txn := none, queue := [], rx := [], ibi := [], held := none, lost := [], paused := false, shadow := [] }

/-- A region reset (R29, R150): its programs end, commands forwarded into it lose their path, its chords are disarmed and
their standbys promoted, its channels, arbiter and window cache return to reset, its SRAM is zeroed. -/
def regionResetAt (pw : PortWriter) (s : State) (r : Nat) : State :=
  let mine (n : Nat) : Bool := laneRegion (servingLane s n) = r
  let s := s.modRegion r (fun x => { x with power := .run, inReset := true, idleSince := s.edges })
  let s := queuedHalted pw s (fun c _ => c / 4 = r) regionResetReason
  let s := (s.slots.map Prod.fst).foldl (fun s n =>
    if slotServer s n / 4 = r && (s.slot n).st != .free && (s.slot n).ended.isNone then
      haltEnd pw (withdraw s (match (s.slot n).exec with | some e => if e.device = 0 then e.members.filter mine else [] | none => []) (slotUser s n)) n
        regionResetReason (s.slot n).begun
    else s) s
  let s := pathDrop pw s false false (fun n _ => mine n)
  let s := (s.lanes.map Prod.fst).foldl (fun s n =>
    if !mine n then s
    else match (s.lane n).held with
      | some h => (holdEnds s n).modLane n (fun l => { l with lost := l.lost ++ [(h.user, holdLost.2)] })
      | none => s) s
  let s := (s.chords.map Prod.fst).foldl (fun s c =>
    if chordRegion c != r then s
    else disarmOne ((chordDropped pw s c).modChord c (fun x => { x with chainLive := false, running := x.running })) c) s
  let s := (s.lanes.map Prod.fst).foldl (fun s n =>
    if mine n then s.modLane n (fun l => { laneCleared l with lost := l.lost }) else s) s
  let s := (rangeL (4 * r) 4).foldl (fun s c =>
    let was := (s.cluster c).bankFault
    let s := s.modCluster c clusterReset
    if !was && (s.cluster c).bankFault then fireFault pw s (c / 16) 7 else s) s
  let s := (s.xfrs.map Prod.fst).foldl (fun s ch =>
    if ch / 16 = r then s.modXfr ch (fun x => { unit := if x.unit = .resetting then .inService else x.unit }) else s) s
  let s := regionTiles r s
  let s := { s with ecc := s.ecc.filter (fun e => !(e.1 = MemKind.regionSram && e.2.1 = r)) }
  invalSettled (s.modRegion r (fun x => { x with arb := {}, cache := [], dropPending := false, sram := [], gens := x.gens + 1 }))

/-- PWR_RESET.REGION_RESET of local region `q` of die `d` (R468): ignored while that region's reset runs. -/
def regionResetWrite (pw : PortWriter) (s : State) (who : Who) (d q : Nat) (v : Word) : State :=
  if (s.region (4 * d + q)).inReset then refuseWrite s d who 0x4004 v else regionResetAt pw s (4 * d + q)

/-! ### Unit resets (R18, R19, R53) -/

/-- A DIE_UNIT_RESET value. -/
def unitWord (utype unit : Nat) : Word := w32 (utype + 256 * unit)

/-- A lane unit's reset (R19, R48): a running command is cut and ends with LANE_RESET, a held transaction is lost; the unit
accepts nothing until its reset is done. Where a lead segment runs the reset takes effect as it ends (R48). -/
def laneUnitReset (pw : PortWriter) (s : State) (n sent : Nat) (recv : List Byte) : State :=
  let s := s.modLane n (fun l => { l with unit := .resetting })
  let s := match (s.lane n).txn with
    | some _ => laneDone pw (laneAborts s n (some laneResetFail) 0 0 sent recv []) n
    | none => s
  let s := holdLost' s n holdLost.2
  s.modLane n (fun l => if l.lead.isSome then l else laneWiped l)

/-- The unit that DIE_UNIT_RESET names is one of die `d` and IN_SERVICE (R19). -/
def unitMay (s : State) (d utype unit : Nat) : Bool :=
  match utype with
  | 1 => decide (unit < 384) && laneDie unit = d && (s.lane unit).unit = .inService
  | 2 =>
    if unit < 32 then unit / 16 = d && (s.cluster unit).engineUnit = .inService
    else decide (unit < 40) && (unit - 32) / 4 = d && (s.region (unit - 32)).spareUnit = .inService && !(s.region (unit - 32)).spareBad
  | 3 => decide (unit < 2048) && slotDie unit = d && (s.slot unit).unit = .inService
  | 4 => decide (unit < 128) && unit / 64 = d && (s.xfr unit).unit = .inService
  | 5 => decide (unit < 128) && unit / 64 = d && (s.meter unit).unit = .inService
  | 6 => decide (unit < 4096) && chordDie unit = d && (s.chord unit).unit = .inService
  | _ => false

/-- Every lane of cluster `c` pauses at a byte boundary, or goes on (R165, R189). -/
def pauseLanes (s : State) (c : Nat) (on : Bool) : State :=
  (rangeL (12 * c) 12).foldl (fun s n => s.modLane n (fun l => { l with paused := on && l.txn.isSome })) s

/-- The reset of a unit starts (R19). -/
def unitResetStart (pw : PortWriter) (s : State) (utype unit sent : Nat) (recv : List Byte) : State :=
  match utype with
  | 1 => laneUnitReset pw s unit sent recv
  | 2 =>
    if unit < 32 then pauseLanes (s.modCluster unit (fun x => { x with engineUnit := .resetting })) unit true
    else
      let r := unit - 32
      let s := s.modRegion r (fun x => { x with spareUnit := .resetting })
      match (s.region r).spareFor with
      | some c => pauseLanes s c true
      | none => s
  | 3 => haltSlot pw (s.modSlot unit (fun x => { x with unit := .resetting })) unit unitResetReason
  | 4 => xfrEnd (s.modXfr unit (fun x => { x with unit := .resetting })) unit
  | 5 => s.modMeter unit (fun x => { x with unit := .resetting, resetPending := true })
  | 6 => (chordDropped pw s unit).modChord unit (fun x => { x with unit := .resetting })
  | _ => s

/-- A write to DIE_UNIT_RESET (R19): by the primary function or by steward firmware. -/
def unitResetWrite (pw : PortWriter) (s : State) (who : Who) (d : Nat) (v : Word) (sent : Nat) (recv : List Byte) : State :=
  if unitMay s d (wf v 0 3) (wf v 8 12) then unitResetStart pw s (wf v 0 3) (wf v 8 12) sent recv else refuseWrite s d who 0x2018 v

/-! ### The fresh state of a half (R466, R467, R472, R482–R484) -/

/-- LANE_PINS after reset (R169, R483). -/
def otpPins (s : State) (n : Nat) : Word := w32 (0x50 + fld (u8 (otpBytes s (laneDie n)) (16 + n / 2)) (4 * (n % 2)) 4)

/-- The OTP TARGET field of a target-capable lane (R483). -/
def otpTarget (s : State) (n : Nat) : Nat :=
  let b := otpBytes s (laneDie n)
  if n = 46 then u16 b 216 else if n = 47 then u16 b 218 else if n = 238 then u16 b 220 else if n = 239 then u16 b 222 else 0

/-- LANE_TGT after reset (R193, R483). -/
def otpTgt (s : State) (n : Nat) : Word :=
  let t := otpTarget s n
  w32 (fld t 0 7 + 256 * fld t 7 3 + 2048 * fld t 10 1)

/-- LANE_CFG after reset: a target lane that OTP gives a personality is on (R193, R483, R484). -/
def otpCfg (s : State) (n : Nat) : Word :=
  match fld (otpTarget s n) 11 2 with
  | 1 => 0x8000000D
  | 2 => 0x8000000E
  | _ => 0

/-- The SAFE_STATE drive of a pin (R467, R483). -/
def safeDrive (s : State) (n : Nat) (pinB : Bool) : Option Drive :=
  let b := otpBytes s (laneDie n)
  match (List.range 16).find? (fun i =>
    let e := u16 b (228 + 2 * i)
    bit e 15 && fld e 0 9 = n && bit e 9 = pinB) with
  | some i => some (if bit (u16 b (228 + 2 * i)) 10 then .high else .low)
  | none => none

/-- A unit after a reset wider than itself: one being reset is in service, failed ones stay failed until a cold reset (R17). -/
def unitKept (u : UnitState) : UnitState := if u = .resetting then .inService else u

/-- Lane `n` after a reset of its half: SAFE_STATE pins are driven from the OTP read of a cold reset on, and after any other once
firmware starts (R467). -/
def laneFresh (s : State) (n : Nat) (cold : Bool) : Lane :=
  let l := s.lane n
  { unit := unitKept l.unit, isolated := l.isolated && l.unit = .spared, levelA := l.levelA, levelB := l.levelB
    pins := otpPins s n, tgt := otpTgt s n, cfg := otpCfg s n, safe := cold
    driveA := if cold then safeDrive s n false else none, driveB := if cold then safeDrive s n true else none }

/-- CLU_BANK.VOLTS after reset: the OTP field, else the voltage nearest the supply (R25, R483, R484). -/
def otpVolts (s : State) (c : Nat) : BitVec 2 :=
  let b := otpBytes s (c / 16)
  if b.isEmpty then (s.cluster c).measured else BitVec.ofNat 2 (fld (u8 b (208 + c / 4)) (2 * (c % 4)) 2)

/-- Cluster `c` after a reset of its half: a die reset brings a VOLTS that waits into force, a package reset restores the OTP value
(R69). -/
def clusterFresh (s : State) (c : Nat) (code : BitVec 2) : Cluster :=
  let x := s.cluster c
  let v := if code = 2 then (match x.voltsNew with | some v => v | none => x.volts) else otpVolts s c
  { volts := v, measured := x.measured, bankFault := v != x.measured, adopted := x.adopted, engine := x.engine
    engineUnit := unitKept x.engineUnit, rows := x.rows }

/-- LNK_CFG after reset (R427, R456, R483). -/
def otpLink (s : State) (p : Nat) : Word := w32 (u8 (otpBytes s (p / 2)) (224 + p) &&& 0xF1)

/-- The levels of the vertices that follow pins, when every polarity is at its reset value. -/
def freshLevels (s : State) : Tab Bool :=
  (s.lanes.foldl (fun t e => tset false (tset false t (2 * e.1) e.2.levelA) (2 * e.1 + 1) e.2.levelB)
    (s.fvRaw.foldl (fun t e => tset false t (768 + e.1) e.2) [])) |> fun t =>
  [(1488, s.die0.thermWarn), (1489, s.die0.thermCrit), (1490, s.die1.thermWarn), (1491, s.die1.thermCrit), (1494, s.pkg.pfail)].foldl
    (fun t e => tset false t e.1 e.2) t

/-- Vertex `v` belongs to half `d` alone. -/
def vertexOf (d v : Nat) : Bool := vertexDie v = some d

/-- A die's own state after a reset of it: the black box, DIE_FATAL, OTP, flash and retirements survive (R414, R466). -/
def dieFresh (x : Die) (code : BitVec 2) : Die :=
  { power := if x.power = .off then .off else .run, lastReset := code, fatal := x.fatal, bbx := x.bbx, otp := x.otp, flash := x.flash, lanesDead := x.lanesDead
    tilesRetired := x.tilesRetired, chordRows := x.chordRows, queueRows := x.queueRows, refLost := x.refLost
    thermWarn := x.thermWarn, thermCrit := x.thermCrit, losses := x.losses, stw := { rows := x.stw.rows }
    isolatesPeer := false, selfStopped := false }

/-- A bank of half `d` whose VOLTS disagrees with its supply fires die fault vertex 7 (R24). -/
def banksJudged (pw : PortWriter) (s : State) (d : Nat) : State :=
  if (rangeL (16 * d) 16).any (fun c => (s.cluster c).bankFault) then fireFault pw s d 7 else s

/-- Every element of half `d` returns to reset, but for what R47 says survives. Slots of a cluster whose programs the other
half has adopted are left to their adopter. -/
def halfFresh (s : State) (d : Nat) (code : BitVec 2) : State :=
  let otp := !(otpBytes s d).isEmpty
  let lanes := if otp then rangeL (192 * d) 192 else (s.lanes.map Prod.fst).filter (fun n => laneDie n = d)
  let s1 := lanes.foldl (fun t n => { t with lanes := tset {} t.lanes n (laneFresh s n (code = 0)) }) s
  let s1 := (rangeL (16 * d) 16).foldl (fun t c => { t with clusters := tset {} t.clusters c (clusterFresh s c code) }) s1
  let s1 := (rangeL (4 * d) 4).foldl (fun t r => t.modRegion r (fun x =>
    { spareFor := x.spareFor, spareUnit := unitKept x.spareUnit, spareBad := x.spareBad, enginesFailed := x.enginesFailed, rows := x.rows
      idleSince := s.edges })) s1
  let s1 := (s1.slots.map Prod.fst).foldl (fun t n =>
    if slotDie n = d && !(t.slot n).adopted then t.modSlot n (fun x => { unit := unitKept x.unit }) else t) s1
  let s1 := (s1.tiles.map Prod.fst).foldl (fun t n =>
    if n / 2048 = d then t.modTile n (fun y => if y.retired then { owner := y.owner, retired := true }
      else { remap := y.remap, used := y.used && 16 ≤ n % 512 })
    else t) s1
  let s1 := (s1.xfrs.map Prod.fst).foldl (fun t ch => if ch / 64 = d then t.modXfr ch (fun x => { unit := unitKept x.unit }) else t) s1
  let s1 := (s1.meters.map Prod.fst).foldl (fun t m => if m / 64 = d then t.modMeter m (fun x => { unit := unitKept x.unit }) else t) s1
  let s1 := { s1 with
    chords := (s1.chords.map Prod.fst).foldl (fun (t : Tab Chord) n =>
      if chordDie n = d then tset {} t n { unit := unitKept (tget ({} : Chord) t n).unit } else t) s1.chords
    inputs := s1.inputs.filter (fun e => e.1 / 32 != d)
    timers := s1.timers.filter (fun e => e.1 / 16 != d)
    fvCfg := s1.fvCfg.filter (fun e => e.1 / 16 != d)
    pinPol := s1.pinPol.filter (fun e => e.1 / 12 != d)
    queues := s1.queues.filter (fun e => e.1 / 512 != d)
    targets := s1.targets.filter (fun e => (if e.1 < 8 then e.1 / 4 else e.1 - 8) != d)
    shared := s1.shared.filter (fun e => sourceDie e.1 != d)
    ecc := s1.ecc.filter (fun (e : MemKind × Nat × Nat) => !((e.1 = MemKind.regionSram && e.2.1 / 4 = d) || (e.1 = MemKind.clusterMem && e.2.1 / 16 = d) ||
      (e.1 != MemKind.regionSram && e.1 != MemKind.clusterMem && e.1 != MemKind.blackBox && e.2.1 = d)))
    levels := (freshLevels s1).foldl (fun (t : Tab Bool) (e : Nat × Bool) => if vertexOf d e.1 then tset false t e.1 e.2 else t)
      (s1.levels.filter (fun e => !vertexOf d e.1))
    ticking := s1.ticking.filter (fun v => !vertexOf d v)
    turned := s1.turned.filter (fun t => !vertexOf d t.vertex)
    reads := s1.reads.filter (fun r => slotDie r.slot != d || (s1.slot r.slot).adopted) }
  let s1 := (rangeL (4 * d) 4).foldl (fun t f => t.modFunc f (fun x =>
    { d0 := x.d0, bme := x.bme, caps := x.caps, bar0 := x.bar0, bar2 := x.bar2, gens := x.gens, stateBad := x.stateBad })) s1
  let s1 := (rangeL (2 * d) 2).foldl (fun t p => { t with ports := tset {} t.ports p {
    cfg := otpLink s p, st := if wb (otpLink s p) 0 && s.pkg.sysId != 31 then .training else .disabled } }) s1
  s1.modDie d (fun x => dieFresh x code)

end Sys2Proof.Machine
end

