-- ==== Sys2Proof/Machine/Polob.lean ====
section
/-! DEFINITION. The Polob links: the tree, reachability, link vertices, blocks and packets received, ports going down, and
pilot time (R426–R457). -/

namespace Sys2Proof.Machine

/-! ### The tree and reachability (R428, R429, R440, R441, R445) -/

/-- This device's system ID as a block carries it. -/
def ownId (s : State) : BitVec 5 := s.pkg.sysId

/-- Port `p` offers an upstream peer (R428, R443): UP, its peer attached to the current root and fewer than three hops from it, and
not itself below this device (log 12). -/
def portOffers (s : State) (p : Nat) : Bool :=
  let x := s.port p
  x.st = .up && x.peerAttached && x.peerRoot = s.pkg.root && x.peerHops != 3 && !x.peerTakes

/-- The order of upstream candidates: HOPS, peer ID, port number. -/
def offerKey (s : State) (p : Nat) : Nat := (s.port p).peerHops.toNat * 128 + (s.port p).peerId.toNat * 4 + p

/-- The upstream port R428 gives, if any: the root, a duplicate and a device in standoff have none. -/
def chooseUpstream (s : State) : Option Nat :=
  if isRoot s || s.pkg.dup || s.pkg.standoff then none
  else ((List.range 4).filter (portOffers s)).foldl (fun b p => match b with
    | none => some p
    | some q => if offerKey s p < offerKey s q then some p else some q) none

/-- The devices of this device's subtree (R433 JOIN). -/
def subtreeIds (s : State) : Nat := (downPorts s).foldl (fun a p => a ||| (s.port p).subtree.toNat) (2 ^ s.pkg.sysId.toNat)

/-- PKG_REACH (R438, R455): this device while a port is enabled, the subtrees below it, and on an attached worker its
upstream peer and the root (log 12). -/
def reachNow (s : State) : Word :=
  let own := if (List.range 4).any (portEnabled s) then 2 ^ s.pkg.sysId.toNat else 0
  let down := (downPorts s).foldl (fun a p => a ||| (s.port p).subtree.toNat) 0
  let up := match upPort s with
    | some p => 2 ^ (s.port p).peerId.toNat ||| 2 ^ s.pkg.root.toNat
    | none => 0
  w32 ((own ||| down ||| up) % 2 ^ 31)

/-- PATH of the apex and this device's own bit of PKG_REACH, as its enabled ports give them (R455). -/
def ownReach (s : State) : State :=
  s.modPkg (fun p => { p with
    path := if p.sysId = 0 then isRoot s && !p.standoff else p.path
    reach := put p.reach p.sysId.toNat 1 (b2n ((List.range 4).any (portEnabled s))) })

/-- Link vertex `k` follows its alias no more: it releases, and the alias leaves LIVE (R441). -/
def aliasLost (pw : PortWriter) (s : State) (k : Nat) : State :=
  let s := s.modPkg (fun p => { p with aliases := tset {} p.aliases k { tget {} p.aliases k with live := false, change := none, later := [] } })
  vertexSet pw s (1312 + k) false

/-- SUBSCRIBE for alias `k` (R440). -/
def subscribe (s : State) (k : Nat) (on : Bool) : State :=
  let a := tget {} s.pkg.aliases k
  sendTo s a.source.toNat (.subscribe s.pkg.sysId a.source (BitVec.ofNat 7 k) a.vertex on)

/-- PKG_REACH takes its present value; what was lost ends, and what is reachable again is subscribed (R132, R440, R441, R445). -/
def reachSync (pw : PortWriter) (s : State) : State :=
  let old := s.pkg.reach
  let new := reachNow s
  let s := s.modPkg (fun p => { p with reach := new })
  let gone (d : Nat) : Bool := wb old d && !wb new d
  let s := (s.slots.map Prod.fst).foldl (fun s n =>
    match (s.slot n).exec with
    | some e => if e.device != 0 && gone e.device then memberLost pw s n 0 else s
    | none => s) s
  let s := s.modPkg (fun p => { p with subs := p.subs.filter (fun e => !gone e.device.toNat) })
  (s.pkg.aliases.map Prod.fst).foldl (fun s k =>
    let a := tget {} s.pkg.aliases k
    if !a.valid then s
    else if gone a.source.toNat then aliasLost pw s k
    else if wb new a.source.toNat && !wb old a.source.toNat then subscribe s k true
    else s) s

/-- The device steps its pilot time forward once when it is behind by more than 64 ticks (R452). -/
def pilotJump (s : State) (time : DWord) : State :=
  if s.pilot.toNat + 64 < time.toNat then meterAnchor (meterAnchor { s with pilot := time } 0) 1 else s

/-- The device attaches through port `p` (R452): it takes the full pilot time of the peer's HELLO, as it stands by now. -/
def attachTime (s : State) (p : Nat) : State :=
  let x := s.port p
  pilotJump s (x.hello + BitVec.ofNat 64 (s.edges - x.helloAt))

/-- The roles of the ports, PATH, HOPS and PKG_REACH follow from what the peers advertise (R428); a new upstream port is
sent JOIN, and aliases beyond it are subscribed again (R443). A subtree other than `old`, the one before, is made known
upstream (R433, R445); `before` was the upstream port. -/
def retreeFrom (pw : PortWriter) (old : Nat) (before : Option Nat) (s : State) : State :=
  let up := chooseUpstream s
  let root := isRoot s && !s.pkg.standoff
  let s := (List.range 4).foldl (fun s p => s.modPort p (fun x => { x with
    role := if x.st != .up then .none else if up = some p then .upstream else if x.peerTakes then .downstream else .alternate })) s
  let s := s.modPkg (fun p => { p with
    path := root || up.isSome, root := if root then p.sysId else p.root
    hops := match up with | some q => (s.port q).peerHops + 1 | none => 0
    synced := if up.isNone then false else p.synced, slew := if up.isNone then 0 else p.slew })
  let moved := up.isSome && up != before
  let s := if moved then s.modPkg (fun p => { p with rootSeqAt := s.edges }) else s
  let s := match up with
    | some q => if before.isNone then attachTime s q else s
    | none => s
  let s := match up with
    | some q => if moved || subtreeIds s != old then portSend s q (.join s.pkg.sysId (w32 (subtreeIds s))) else s
    | none => s
  let s := if before.isSome && moved then
      let far := s.pkg.reach.toNat - (s.pkg.reach.toNat &&& subtreeIds s)
      let s := (s.pkg.aliases.map Prod.fst).foldl (fun s k =>
        let a := tget {} s.pkg.aliases k
        if a.valid && bit far a.source.toNat then aliasLost pw s k else s) s
      s.modPkg (fun p => { p with reach := w32 (p.reach.toNat - far) })
    else s
  reachSync pw s

/-- The tree after a change that has not yet touched this device's subtree and upstream port. -/
def retree (pw : PortWriter) (s : State) : State := retreeFrom pw (subtreeIds s) (upPort s) s

/-! ### Ports (R436, R456) -/

/-- A link port leaves UP: everything that waits on it is gone, and so are its peer's claims on the tree. -/
def portLeaves (pw : PortWriter) (s : State) (p : Nat) (st : PortState) (count : Bool) : State :=
  let was := s
  let old := subtreeIds s
  let before := upPort s
  let s := s.each (List.range 4) (fun s q => s.modPort q (fun x => { x with
    stalled := x.stalled.map (fun e => if e.1 = some p then (none, e.2) else e) }))
  let s := withSourceEdge s (515 + 8 * (p / 2)) (fun s => s.modPort p (fun x => presetApplied { x with
    st := st, role := .none, locked := false, subtree := 0, peerAttached := false, peerTakes := false
    downs := if count then x.downs + 1 else x.downs, downTime := if count then s.pilot else x.downTime, downAt := s.edges
    replay := [], unacked := [], waiting := [], stalled := [], naks := 0, txSeq := 0, rxSeq := 0, bTx := 0, bRx := 0
    credP := 32, credNp := 32 }))
  retreeFrom pw old before (creditsReturn was s)

/-- LNK_CFG.ENABLE of a port (R456). -/
def portEnable (pw : PortWriter) (s : State) (p : Nat) (on : Bool) : State :=
  if on = wb (s.port p).cfg 0 then s
  else
    let s := s.modPort p (fun x => { x with cfg := put x.cfg 0 1 (b2n on) })
    if !on then portLeaves pw s p .disabled false
    else if s.pkg.sysId = 31 then s
    else retree pw (withSourceEdge s (515 + 8 * (p / 2)) (fun s => s.modPort p (fun x => { x with st := .training, locked := false })))

/-- A link port in service is not disabled and its clock is there (R436, R458). -/
def portAlive (s : State) (p : Nat) : Bool := dieUp s (p / 2) && !(s.die (p / 2)).refLost

/-- What HELLO carries of this device (R433). -/
def sendHello (s : State) (p : Nat) : State :=
  s.modPort p (fun x => packetOut x 0 (.hello s.pkg.sysId (deviceRole s) s.pkg.hops s.pkg.epoch s.pilot))

/-! ### EPOCH and pilot time (R446–R452) -/

/-- EPOCH `a` is newer than `b` (R447). -/
def epochNewer (a b : Byte) : Bool := let d := (a - b).toNat; decide (1 ≤ d) && decide (d ≤ 127)

/-- CHANGE `a` is later than `b`, compared as EPOCH is (R434). -/
def changeLater (a b : Half) : Bool := let d := (a - b).toNat; decide (1 ≤ d) && decide (d ≤ 32767)

/-- The device hears of a root (R447, R450): a newer EPOCH is taken at once, and of the same EPOCH the lower root; the apex
that hears a newer one goes into STANDOFF, and an acting apex leaves that office. -/
def hearRoot (s : State) (root : BitVec 5) (epoch : Byte) : State :=
  let newer := epochNewer epoch s.pkg.epoch
  let lower := epoch = s.pkg.epoch && root.toNat < s.pkg.root.toNat
  if !newer && !lower then s
  else if s.pkg.sysId = 0 then
    (if newer then
      (List.range 4).foldl (fun s p => s.modPort p (fun x => if x.st = .up then { x with st := .standoff, role := .none } else x))
        (s.modPkg (fun p => { p with standoff := true, path := false, epoch := epoch, root := root, takeovers := p.takeovers + 1 }))
    else s)
  else s.modPkg (fun p => { p with
    epoch := epoch, root := root, acting := false, takeovers := if newer then p.takeovers + 1 else p.takeovers })

/-- OFFSET from the upstream peer's time, and the slew it asks for (R452). -/
def offsetFrom (s : State) (p : Nat) (time : BitVec 24) : State :=
  let d : Int := ((time.toNat + (s.port p).delay.toNat / 100 + 2 ^ 24 - s.pilot.toNat % 2 ^ 24) % 2 ^ 24 : Nat)
  let d := if 2 ^ 23 ≤ d then d - 2 ^ 24 else d
  s.modPkg (fun q => { q with offset := BitVec.ofInt 16 d, slew := d, synced := decide (-2 ≤ d) && decide (d ≤ 2) })

/-! ### Blocks and packets received (R432–R435) -/

/-- An ACK for the blocks accepted so far on port `p`. -/
def ackBlocks (s : State) (p : Nat) : State := s.modPort p (fun x => emitBlock x (.ackBlock (x.bRx - 1)))

/-- A VERTEX or SIGNAL block arrives with its SEQ: whether it is accepted, and the state after the acknowledgement. -/
def blockIn (s : State) (p : Nat) (bseq : BitVec 3) (crcOk : Bool) : Bool × State :=
  let x := s.port p
  if !crcOk || x.st != .up then (false, s)
  else if bseq = x.bRx then (true, ackBlocks (s.modPort p (fun x => { x with bRx := x.bRx + 1 })) p)
  else if (x.bRx - bseq).toNat ≤ 4 then (false, ackBlocks s p)
  else (false, s)

/-- Port `p` acknowledges the packet of channel `ch` it expects next; its credit goes back at once where the packet leaves the
receive buffer in the cycle it came (R434, R435). -/
def packetTaken (s : State) (p ch : Nat) (back : Bool) : State :=
  s.modPort p (fun x => emitBlock { x with rxSeq := x.rxSeq + 1 }
    (.ackPacket false x.rxSeq (b2n (back && ch = 0)) (b2n (back && ch = 1)) (b2n (back && ch = 2))))

/-- A packet of channel `ch` arrives with its link SEQ: whether it is accepted, and the state after the ACK or NAK. It takes a place
in the receive buffer (R21, R435), which it leaves at once where `back` holds. A packet in STANDOFF is accepted only where `standoff`
allows (R451). -/
def packetIn (s : State) (p : Nat) (h : PktHdr) (ch : Nat) (back standoff : Bool) : Bool × State :=
  let x := s.port p
  if x.st != .up && !(standoff && x.st = .standoff) then (false, s)
  else if !h.crcOk then (false, s.modPort p (fun x => emitBlock x (.ackPacket true x.rxSeq 0 0 0)))
  else if h.seq = x.rxSeq && rxRoom s p ch then (true, packetTaken s p ch back)
  else (false, s)

/-- A packet that came by port `p` and goes on to `dest` waits in the receive buffer: the port it leaves by has no credit for it, or
holds one it may not pass (R339, R435). -/
def relayWaits (s : State) (p dest : Nat) (it : LinkItem) : Bool :=
  match routePort s dest, itemChannel it with
  | some q, some ch => q != p && (s.port q).st = .up && !(packetMay (s.port q) ch && !held (s.port q).stalled ch)
  | _, _ => false

/-- The requester of a remote command, as `LaneUser.device` holds it. -/
def requester (h : PktHdr) : Nat := 32 + h.src.toNat

/-- The bus operation of a command code (R78). -/
def opOf (code : Nat) : LaneOp :=
  match code with
  | 0x02 => .read
  | 0x03 => .xact
  | 0x04 => .control
  | 0x05 => .sense
  | 0x06 => .gang
  | _ => .write

/-- A remote command as it stands at its lane (R437). -/
def remoteCmd (h : PktHdr) (c : RemoteCmd) : LaneCmd :=
  let op := opOf c.code.toNat
  { user := { device := requester h, slot := c.slot, fn := c.fn, tag := c.tag, gen := c.gen }, pos := 0, op := op, count := c.count
    wlen := if op = .xact then wf c.target 0 8 else 0, target := c.target, out := [] }

/-- The device takes remote work (R42): a worker that has lost its path to the apex takes none. -/
def takesRemote (s : State) : Bool := deviceRole s != 2 || s.pkg.path

/-- A LANE_CMD for this device enters its destination cluster (R43, R437), unless it has lost its path to the apex (R42). -/
def remoteArrives (s : State) (h : PktHdr) (c : RemoteCmd) : State :=
  if !takesRemote s then s
  else if 384 ≤ c.lane then sendResult s c.lane (remoteCmd h c) (failRes (remoteCmd h c) noSuchResource)
  else s.modCluster (laneCluster (servingLane s c.lane)) (fun x => { x with
    inbound := x.inbound ++ [{ lane := c.lane, cmd := remoteCmd h c }] })

/-- A piece of data for a remote command of this device's lanes; a CONTROL starts once its parameters are there (R83). -/
def remoteData (s : State) (h : PktHdr) (lane slot : Nat) (data : List Byte) : State :=
  let mine (u : LaneUser) : Bool := u.device = requester h && u.slot = slot
  let g (c : LaneCmd) : LaneCmd :=
    if mine c.user then { c with out := (c.out ++ data).take (if c.op = .control then c.count else sendLen c) } else c
  let s := s.modLane lane (fun l => { l with txn := l.txn.map g, queue := l.queue.map g, memAt := s.edges })
  let s := s.modCluster (laneCluster (servingLane s lane)) (fun x => { x with
    inbound := x.inbound.map (fun e => if e.lane = lane then { e with cmd := g e.cmd } else e) })
  laneNext s lane

/-- A LANE_RESULT for a program of this device (R132, R143, R437): a piece of received data, which is stored, or the result. -/
def remoteResult (pw : PortWriter) (s : State) (h : PktHdr) (slot : Nat) (tag : Half) (gen : BitVec 4) (res : Option RemoteRes)
    (data : List Byte) : State :=
  let x := s.slot slot
  match x.exec with
  | none => countStale s (slotServer s slot)
  | some e =>
    if x.st = .free || x.tag != tag || x.gen != gen || e.device != h.src.toNat || x.ended.isSome then countStale s (slotServer s slot)
    else
      match res with
      | none =>
        match gotBytes pw s slot e 0 data with
        | ((some (f, a), _), s) => cmdFails pw s slot f a
        | ((none, _), s) => s
      | some r =>
        memberEnds pw (s.modSlot slot (fun x => { x with exec := some { e with words := r.words } })) slot
          { pos := 0, dev := r.dev, chan := r.chan, reason := r.reason, resid := r.resid, recv := data }

/-- A VERTEX block for this device (R42, R434, R440, R441): applied when its CHANGE is later than the last accepted, in a tick of its
own: one that finds the link vertex changed in this tick waits for the next. -/
def vertexApplied (pw : PortWriter) (s : State) (index : BitVec 7) (level : Bool) (change : Half) (src : BitVec 5) : State :=
  let k := index.toNat
  let a := tget {} s.pkg.aliases k
  let later := match a.change with | some c => changeLater change c | none => true
  if !a.valid || a.source != src || !later || !takesRemote s then s
  else
    let a := { a with live := true, change := some change }
    if a.changedAt = some s.edges || !a.later.isEmpty then
      s.modPkg (fun p => { p with aliases := tset {} p.aliases k { a with later := a.later ++ [level] } })
    else
      let s := s.modPkg (fun p => { p with aliases := tset {} p.aliases k { a with changedAt := some s.edges } })
      vertexSet pw s (1312 + k) level

/-- A tick begins: link vertex `k` takes the change that has waited longest (R441). -/
def aliasStep (pw : PortWriter) (s : State) (k : Nat) : State :=
  let a := tget {} s.pkg.aliases k
  match a.later with
  | [] => s
  | lvl :: rest =>
    let s := s.modPkg (fun p => { p with aliases := tset {} p.aliases k { a with changedAt := some s.edges, later := rest } })
    vertexSet pw s (1312 + k) lvl

/-- A SUBSCRIBE for a vertex of this device (R440): entered in the table of 512 and answered with the present level; one that
finds it full is not answered. -/
def subscribed (s : State) (src : BitVec 5) (index : BitVec 7) (vertex : Nat) (on : Bool) : State :=
  let old := s.pkg.subs.find? (fun e => e.device = src && e.index = index)
  let rest := s.pkg.subs.filter (fun e => !(e.device = src && e.index = index))
  if !on then s.modPkg (fun p => { p with subs := rest })
  else if 512 ≤ rest.length then s
  else
    let c := match old with | some e => e.change + 1 | none => 1
    let s := s.modPkg (fun p => { p with subs := rest ++ [{ device := src, index := index, vertex := vertex, change := c }] })
    sendTo s src.toNat (.vertex 0 src index (s.level vertex) c s.pkg.sysId)

end Sys2Proof.Machine
end

