-- ==== Sys2Proof/Machine/Halves.lean ====
section
/-! DEFINITION. Failover and the package's two halves: twins, dead lanes, spare engines, bank faults, fatal faults, custody,
the loss of a half, adoption, rejoining, the Arc bridge going down, and the resets of a half and of the package (R24, R28,
R342, R389–R414, R466–R473, R484). -/

namespace Sys2Proof.Machine

/-! ### Lanes (R398–R403, R28) -/

/-- The lanes of the gang that lane `n` belongs to, or the lane alone (R12). -/
def gangOf (s : State) (n : Nat) : List Nat := if wb (s.lane (n / 2 * 2)).cfg 4 then [n / 2 * 2, n / 2 * 2 + 1] else [n]

/-- The functions with a program or a chord that uses one of some lanes (R20). -/
def laneUsers (s : State) (ns : List Nat) : List Nat :=
  (List.range 8).filter (fun f =>
    s.slots.any (fun e => e.2.st != .free && e.2.fn = f &&
      ((match e.2.exec with | some x => x.device = 0 && x.members.any ns.contains | none => false) || e.2.holds.any ns.contains)) ||
    s.chords.any (fun e => e.2.st != .disarmed && recOwner e.2.record = f &&
      (recClaims e.2.record).any (fun k => ns.contains (claimLane k.2))))

/-- The twin of primary `n` stands and can take over (R401). -/
def twinReady (s : State) (n : Nat) : Bool :=
  let t := twinOf s n
  t.valid && !t.shadow && !t.failedOver && (s.lane t.other).unit = .inService && dieUp s (laneDie t.other)

/-- Lane number `n` is served by its twin from now on (R401–R404): L's unit is SPARED and its pins isolated, its command,
hold and lead segment go on, and its vertices follow the twin's inputs. Where its half is lost (cause 2) the ISOLATE record of the
whole half stands for its pins (R404, R418). -/
def twinMoves (pw : PortWriter) (s : State) (n cause : Nat) : State :=
  let t := (twinOf s n).other
  let d := laneDie t
  let marked (p : Pkg) (k : Nat) : Pkg := { p with twins := tset {} p.twins k { tget {} p.twins k with failedOver := true } }
  let s := s.modPkg (fun p => marked (marked p n) t)
  let y := s.lane t
  let s := s.modLane n (fun l => { l with unit := .spared, isolated := true, levelA := y.levelA, levelB := y.levelB })
  let s := bbxRecord s d 0x0B (n + 512 * t + 2 ^ 18 * cause) []
  let s := if cause = 2 then s else bbxRecord s d 0x12 n []
  let s := vertexSet pw (vertexSet pw s (2 * n) (pinAsserted s (2 * n))) (2 * n + 1) (pinAsserted s (2 * n + 1))
  fireFault pw s d 4

/-- A twin takeover of lane `n` and of its gang (R398, R401). -/
def twinTakes (pw : PortWriter) (s : State) (n cause : Nat) : State :=
  ((gangOf s n).filter (twinReady s)).foldl (fun s k => twinMoves pw s k cause) s

/-- The unit of lane `n` is RETIRED: the lane counts as dead on its die (R17, R51). -/
def laneRetired (s : State) (n : Nat) : State :=
  laneStreams ((s.modLane n (fun l => { l with unit := .retired })).modDie (laneDie n)
    (fun x => { x with lanesDead := x.lanesDead + 1 })) n

/-- Lane number `n` goes to LANE_DEAD (R28, R90, R220, R403): its running command ends with LANE_DEAD, its lead segment with
LANE_FAULT, and what waits there ends in turn. -/
def laneDies (pw : PortWriter) (s : State) (n cause sent : Nat) (recv : List Byte) : State :=
  let s := laneRetired s n
  let s := bbxRecord s (laneDieNow s n) 0x0C (n + 2 ^ 18 * cause) []
  let s := match (s.lane n).txn with
    | some _ => laneDone pw (laneAborts s n (some laneDead) 0 0 sent recv []) n
    | none => s
  let s := holdEnds s n
  let s := match (s.lane n).lead with
    | some x => claimEnds (s.modLane n (fun l => { l with lead := none })) x.chord x.claim x.launch 4
    | none => s
  laneNext s n

/-- The unit of lane `n` fails (R389, R401, R403): its twin takes over, or the lane it serves goes to LANE_DEAD. -/
def laneFault (pw : PortWriter) (s : State) (n cause sent : Nat) (recv : List Byte) : State :=
  let t := twinOf s n
  let s := unitError s (laneDie n) 1 n (laneUsers s [n])
  if t.valid && t.shadow && t.failedOver then laneDies pw (laneRetired s n) t.other 3 sent recv
  else if twinReady s n then twinTakes pw s n cause
  else laneDies pw s n cause sent recv

/-! ### Protocol engines (R28, R392) -/

/-- The spare engine of region `q` is free. -/
def spareFree (s : State) (q : Nat) : Bool :=
  (s.region q).spareFor.isNone && !(s.region q).spareBad && (s.region q).spareUnit = .inService

/-- The spare that takes over for an engine of region `r`: its own, then that of region `r` XOR 1 (R28). -/
def spareChoice (s : State) (r : Nat) : Option Nat :=
  if spareFree s r then some r else if spareFree s (r ^^^ 1) then some (r ^^^ 1) else none

/-- The spare that is to serve cluster `c`, if one was chosen. -/
def spareOf (s : State) (c : Nat) : Option Nat := (List.range 8).find? (fun q => (s.region q).spareFor = some c)

/-- The lanes of cluster `c` lose their engine for good: each fails over or goes to LANE_DEAD (R28). -/
def lanesLoseEngine (pw : PortWriter) (s : State) (c : Nat) : State :=
  (rangeL (12 * c) 12).foldl (fun s n =>
    if (s.lane n).unit = .inService || (s.lane n).unit = .resetting then laneFault pw s n 1 0 [] else s) s

/-- The engine that serves cluster `c` fails: its lanes pause until a spare serves them (R28, R392). -/
def engineFails (pw : PortWriter) (s : State) (c : Nat) : State :=
  let x := s.cluster c
  let users := laneUsers s (rangeL (12 * c) 12)
  let s := match x.engine with
    | .own => unitError ((s.modCluster c (fun x => { x with engineUnit := .spared })).modRegion (c / 4)
        (fun x => { x with enginesFailed := x.enginesFailed + 1 })) (c / 16) 2 c users
    | .spare q => unitError (s.modRegion q (fun x => { x with spareFor := none, spareUnit := .retired, spareBad := true })) (c / 16) 2 (32 + q) users
    | _ => s
  match spareChoice s (c / 4) with
  | some q => pauseLanes ((s.modRegion q (fun x => { x with spareFor := some c })).modCluster c (fun x => { x with engine := .failed })) c true
  | none => lanesLoseEngine pw (s.modCluster c (fun x => { x with engine := .none, engineUnit := .retired })) c

/-- A free spare engine fails its self-test (R18, R28): it is no longer free. -/
def spareFails (s : State) (q : Nat) : State :=
  unitError (s.modRegion q (fun x => { x with spareUnit := .retired, spareBad := true })) (q / 4) 2 (32 + q) []

/-- Every lane of cluster `c` takes up what waits. -/
def lanesNext (s : State) (c : Nat) : State := (rangeL (12 * c) 12).foldl (fun s n => laneNext s n) s

/-- The spare of region `q` serves the lanes of cluster `c` (R392). -/
def spareTakes (pw : PortWriter) (s : State) (c q : Nat) : State :=
  let s := pauseLanes (s.modCluster c (fun x => { x with engine := .spare q })) c false
  let s := bbxRecord s (c / 16) 0x07 (c + 256 * q) []
  lanesNext (fireFault pw s (c / 16) 1) c

/-! ### Pins of a half (R24, R36, R38, R404) -/

/-- The unit whose ball a lane record's pins are: drives of lane number `n` appear at the lane that serves it. -/
def ballDrive (s : State) (n : Nat) (pinB : Bool) : Drive :=
  let m := if (twinOf s n).shadow && (twinOf s n).failedOver then (twinOf s n).other else n
  if (s.cluster (laneCluster n)).bankFault || (s.lane n).isolated || (s.lane n).unit = .spared || !dieUp s (laneDie n) then .hiz
  else pinDrive s m pinB

/-- The pull on a pin as a code of LANE_PINS (R38, R169, R399): an isolated pin has its OTP pull; while a twin pair stands, push-pull pins of
both lanes, that is all that are not open-drain (DEDUCED, log 70), have the bus keeper, and open-drain pins the primary's pull on the
primary alone. -/
def pinPull (s : State) (n : Nat) (pinB : Bool) : Nat :=
  let code (w : Word) : Nat := wf w (if pinB then 2 else 0) 2
  let t := twinOf s n
  if (s.lane n).isolated || !dieUp s (laneDie n) then code (otpPins s n)
  else if t.valid then
    if !openDrain s (if t.shadow then t.other else n) pinB then 3 else if t.shadow then 0 else code (s.lane n).pins
  else code (s.lane n).pins

/-- Sentinel `k` is pulled low: either running half asserts it (R36). -/
def sentinelLow (s : State) (k : Nat) : Bool :=
  (dieUp s 0 && wb s.pkg.sentinel0 k) || (dieUp s 1 && wb s.pkg.sentinel1 k)

/-- The bank of cluster `c` disagrees with its supply (R24, R492). -/
def bankFails (pw : PortWriter) (s : State) (c : Nat) : State :=
  fireFault pw (s.modCluster c (fun x => { x with bankFault := true })) (c / 16) 7

/-! ### Custody (R34, R412, R413) -/

/-- The copies of the PKG block as custody passes while they may differ (R57, R58): the new custody half's own is the package's. -/
def pkgSwap (p : Pkg) : Pkg :=
  match p.other with
  | none => p
  | some b => { p with
    windows := b.windows, enforce := b.enforce, inval := b.inval, holdLost := b.holdLost, twins := b.twins, pairs := b.pairs
    other := some (pkgBlock p) }

/-- Custody passes to half `d`; `split` when by SPLIT. Nothing happens when it holds it (R412, R413). -/
def takeCustody (pw : PortWriter) (s : State) (d : Nat) (split : Bool) : State :=
  if s.pkg.custody = d then s
  else
    let s := s.modPkg (fun p => { pkgSwap p with custody := d, changes := p.changes + 1 })
    let s := fireOnce pw s 1492
    [0, 1].foldl (fun s k =>
      if dieUp s k then stewardNotice (bbxRecord s k 0x10 (d + 2 * b2n split) []) k 13 (1 + 256 * b2n (d = k)) else s) s

/-- A half takes a fatal fault (R391, R413). -/
def dieFatalAt (s : State) (d cause : Nat) : State :=
  if !dieUp s d then s
  else
    let s := s.modDie d (fun x => { x with fatal := BitVec.ofNat 4 cause })
    let s := bbxFreezeBox (bbxRecordAt s d 0x14 true cause [] s.pilot) d 1
    s.modDie d (fun x => { x with alive := false, selfStopped := true, stw := { x.stw with pair := 3 }, arc := { x.arc with link := 0 } })

/-! ### The Arc bridge (R341, R342) -/

/-- ARC_STATUS.LINK of die `d` changes: the steward is told (R377). -/
def arcLink (s : State) (d : Nat) (link : BitVec 2) : State :=
  if (s.die d).arc.link = link then s
  else stewardNotice (s.modDie d (fun x => { x with arc := { x.arc with link := link } })) d 12 link.toNat

/-- A lane command of this package that crosses the bridge between its home and its lane. -/
def cmdCrosses (s : State) (n : Nat) (c : LaneCmd) : Bool :=
  !isRemoteCmd c && slotServer s c.user.slot / 16 != laneDieNow s n

/-- A result in flight across the bridge is lost: the bytes that had not reached home count as not moved (R132). -/
def resultLost (s : State) (r : ResultMsg) : ResultMsg :=
  match (s.slot r.slot).exec with
  | none => r
  | some e =>
    match e.members[r.res.pos]? with
    | none => r
    | some n =>
      if laneDieNow s n = slotServer s r.slot / 16 then r
      else { r with res := {
        pos := r.res.pos, dev := 0, chan := pathLost.1, reason := pathLost.2, resid := partsCount e.parts - (execGot e r.res.pos).length, recv := [] } }

/-- Outstanding host reads that `which` names end as failed fetches with PORT_LOST (R133). -/
def readsLost (s : State) (which : HostRead → Bool) : State :=
  let s' := (s.reads.filter which).foldl (fun s r =>
    if r.void || !readMatches s r then s else pushFetched s r.slot [{ addr := r.addr, bytes := [], fail := some portLost }]) s
  { s' with reads := s'.reads.filter (fun r => !which r) }

/-- The running direct channels that cross the bridge end (R323). -/
def channelsCut (s : State) : State :=
  (s.xfrs.map Prod.fst).foldl (fun s ch =>
    let x := s.xfr ch
    let f := xfrOwner x.cfg
    if x.st = .running && ((!xfrStream x.cfg && crossesDown s ch (x.src.toNat + x.done.toNat) f) || crossesDown s ch (x.dst.toNat + x.done.toNat) f)
    then xfrFail s ch xfrPath else s) s

/-- Both dies find the bridge down (R342): what is in flight ends at its sender. -/
def arcDownAt (pw : PortWriter) (s : State) (cause : Nat) : State :=
  let s := [0, 1].foldl (fun s d =>
    if !dieUp s d then s.modDie d (fun x => { x with arc := { x.arc with link := 0 } })
    else
      let s := arcLink (s.modDie d (fun x => { x with arc := { x.arc with
        cause := BitVec.ofNat 3 cause, downs := x.arc.downs + 1, downTime := s.pilot, pBuf := 0, npBuf := 0, cplBuf := 0, bad := 0
        downAt := s.edges, tryAt := s.edges + 1000 } })) d 0
      fireFault pw (bbxRecord s d 0x0D cause []) d 5) s
  let s := s.modPkg (fun p => { p with other := if dieUp s 0 && dieUp s 1 then some (pkgBlock p) else none })
  let s := { s with results := s.results.map (resultLost s) }
  let s := pathDrop pw s true true (cmdCrosses s)
  channelsCut (readsLost s (fun r => slotServer s r.slot / 16 != fnPort r.fn))

/-! ### The loss of a half (R406, R407, R413) -/

/-- The standbys of chords on lost half `d` are promoted, and chords whose standby lay there stand alone (R409, R413). -/
def chordsOutlive (s : State) (d : Nat) : State :=
  (s.chords.map Prod.fst).foldl (fun s c =>
    if chordDie c = d && hasStandby s c then promoteChord s c
    else if chordDie c != d && hasStandby s c then modPair s c (fun _ => {})
    else s) s

/-- The lead segments on lanes of lost half `d` that no twin runs on end with LANE_FAULT (R409). -/
def leadsLost (s : State) (d : Nat) : State :=
  (s.lanes.map Prod.fst).foldl (fun s n =>
    match (s.lane n).lead with
    | some x =>
      if laneDieNow s n = d then claimEnds (s.modLane n (fun l => { l with lead := none })) x.chord x.claim x.launch 4 else s
    | none => s) s

/-- Half `d` is judged lost by the other half (R406, R413). -/
def halfLostAt (pw : PortWriter) (s : State) (d : Nat) : State :=
  let v := 1 - d
  let s := s.modPkg (fun p => if d = 0 then { p with lost0 := true } else { p with lost1 := true })
  let s := s.modDie d (fun x => { x with lostAt := some s.edges, alive := false, arc := { x.arc with link := 0 } })
  let s := s.modDie v (fun x => { x with isolatesPeer := true, losses := x.losses + 1, seen := false })
  let s := arcLink s v 0
  let s := stewardNotice (fireFault pw (bbxRecord s v 0x0F 0 []) v 6) v 13 256
  let s := bbxRecord s v 0x12 512 []
  let s := takeCustody pw s v false
  let s := (if s.pkg.split then vertexSet pw s 1493 false else s).modPkg (fun p => { p with split := false, other := none })
  let s := (rangeL (192 * d) 192).foldl (fun s n =>
    if (twinOf s n).valid && twinReady s n then twinMoves pw s n 2 else s) s
  let s := chordsOutlive s d
  let s := { s with reads := s.reads.filter (fun r => slotServer s r.slot / 16 != d) }
  let s := pathDrop pw s false true (fun n _ => laneDieNow s n = d)
  let s := leadsLost s d
  let s := portReset pw s d
  let s := channelsCut s
  let s := (rangeL (2 * d) 2).foldl (fun s p => if (s.port p).st = .disabled then s else portLeaves pw s p .down true) s
  invalSettled ((rangeL (4 * d) 4).foldl (fun s r => s.modRegion r (fun x => { x with cache := [], dropPending := false })) s)

/-- The command in progress of an adopted program (R407): a COPY starts again, a METER command is executed again, anything
else goes on. -/
def adoptExec (x : Slot) : Slot :=
  match x.exec with
  | none => x
  | some e =>
    if e.code = 0x11 then { x with exec := some { e with moved := 0 } }
    else if e.code = 0x0E then { x with exec := none }
    else x

/-- The reserve tile of the partner region that holds the mirror context of slot `n`, 32 of them to a tile (R405). -/
def mirrorTile (n : Nat) : Nat := 512 * (n / 256 ^^^ 4) + n % 256 / 32

/-- A program is in slot `n`, and its mirror context outlives its half (R396, R405): one whose mirror tile has been retired does not
(log 76). -/
def mirrored (s : State) (n : Nat) : Bool := (s.slot n).st != .free && !(s.tile (mirrorTile n)).retired

/-- The program in slot `n` is adopted: its prefetch is refetched, and a halt request that reached it meanwhile acts (R406). -/
def adoptSlot (pw : PortWriter) (s : State) (n : Nat) : State :=
  if !mirrored s n || (s.slot n).adopted then s
  else
    let s := s.modSlot n (fun x => adoptExec { x with adopted := true, buf := [] })
    let s := (s.meters.map Prod.fst).foldl (fun s m => s.modMeter m (fun y => { y with waiters := y.waiters.filter (· != .slot n) })) s
    let x := s.slot n
    if x.ended.isSome then (if finalHeld s n then s else finishWrite pw { s with heldFinal := s.heldFinal.filter (· != n) } n false)
    else match x.halt with
      | some r => haltSlot pw s n r
      | none => s

/-- Cluster `l` of a lost half is adopted by cluster `l` XOR 16 (R406). -/
def adoptAt (pw : PortWriter) (s : State) (l : Nat) : State :=
  let a := l ^^^ 16
  let x := s.cluster l
  let held := ((rangeL (64 * l) 64).filter (mirrored s)).length
  let s := s.modCluster a (fun y => { y with adopts := some l, lostAdmit := y.lostAdmit ++ x.admits, chords := y.chords ++ x.chords })
  let s := s.modCluster l (fun y => { y with adopted := true, admits := [], chords := [] })
  let s := bbxRecord s (a / 16) 0x13 (l + 32 * (held + x.admits.length)) []
  (rangeL (64 * l) 64).foldl (fun s n => adoptSlot pw s n) s

/-- A die reset of half `d` (R414, R466). -/
def dieResetAt (pw : PortWriter) (s : State) (d : Nat) : State :=
  let s := banksJudged pw (halfFresh s d 2) d
  let s := ownReach ((s.modDie d (fun x => { x with arc := {} })).modPkg (fun p => if d = 0 then { p with sentinel0 := 0 } else { p with sentinel1 := 0 }))
  if dieUp s (1 - d) then arcLink (s.modDie (1 - d) (fun x => { x with arc := { x.arc with cause := 3 } })) (1 - d) 0 else s

/-- A reset half rejoins (R414): isolation of the whole half ends, and new STARTs go to its clusters again. -/
def rejoinAt (s : State) (d : Nat) : State :=
  let v := 1 - d
  let s := s.modPkg (fun p => if d = 0 then { p with lost0 := false } else { p with lost1 := false })
  let s := s.modDie v (fun x => { x with isolatesPeer := false, seen := true })
  let s := bbxRecord s v 0x12 (512 + 1024) []
  (rangeL (16 * d) 16).foldl (fun s c => s.modCluster c (fun x => { x with adopted := false })) s

/-! ### Twin pairs (R37, R398, R483) -/

/-- What R398 refuses of pairing primary `l` with twin `t`. -/
def twinBad (s : State) (l t : Nat) : Bool :=
  let x := s.lane l
  let gang := wb x.cfg 4
  let ls := if gang then [l, l + 1] else [l]
  let ts := if gang then [t, t + 1] else [t]
  (ls ++ ts).any (fun n => (twinOf s n).valid) || ts.any (fun n => personality (s.lane n) != 0) ||
  (s.cluster (laneCluster l)).volts != (s.cluster (laneCluster t)).volts || isTargetMailbox (personality x) || isPartner s l ||
  (strobeOf s l).isSome || (gang && t % 2 = 1) ||
  (personality x = 7 && (
    let w := twinOf s (12 * laneCluster l + wf x.cfg 8 4)
    !w.valid || laneCluster w.other != laneCluster t)) || x.unit = .spared

/-- The entries of a pair are written, with those of the odd lanes of a gang. -/
def twinSet (s : State) (l t : Nat) : State :=
  let put2 (p : Pkg) (a b : Nat) : Pkg :=
    { p with twins := tset {} (tset {} p.twins a { other := b, shadow := false, failedOver := false, valid := true }) b
                                                 { other := a, shadow := true, failedOver := false, valid := true } }
  s.modPkg (fun p => if wb (s.lane l).cfg 4 then put2 (put2 p l t) (l + 1) (t + 1) else put2 p l t)

/-- The TWIN entries of the OTP generation in force are applied under the checks of R398; one that fails them is logged. -/
def otpTwins (s : State) : State :=
  (List.range 12).foldl (fun s i =>
    let e := u32 (otpBytes s 0) (260 + 4 * i)
    let l := fld e 0 9
    let t := fld e 9 9
    if !bit e 31 then s
    else if 384 ≤ l || 384 ≤ t || laneDie l = laneDie t || (s.lane l).unit = .retired || (s.lane t).unit = .retired || twinBad s l t then
      violate s (laneDie (l % 384)) vRequest (.steward (laneDie (l % 384))) 0x5000 e 0
    else twinSet s l t) s

/-! ### Package resets (R466–R473, R484) -/

/-- A package warm reset begins (R466): no queue is fetched any more, and programs end as at a function reset. -/
def warmBegin (pw : PortWriter) (s : State) : State :=
  if s.pkg.warmAt.isSome then s
  else
    let s := s.modPkg (fun p => { p with warmAt := some s.edges, warmDue := false })
    s.each (List.range 8) (fun s f => functionReset pw s f functionResetReason)

/-- Lane transactions and black-box saves have ended, so the warm reset may take effect (R466). -/
def warmMay (s : State) : Bool :=
  s.pkg.warmAt.isSome && !s.lanes.any (fun e => e.2.txn.isSome) && !s.die0.bbx.saving && !s.die1.bbx.saving

/-- The sentinels that a half asserts after reset (R467, R483). -/
def otpSentinels (s : State) (d : Nat) : Half := w16 (u16 (otpBytes s d) 12)

/-- The package elements after a package warm reset. -/
def pkgWarm (s : State) : Pkg :=
  let p := s.pkg
  { custody := p.custody, tiebreak := p.tiebreak, changes := p.changes, standby := p.standby, sysId := p.sysId, pfail := p.pfail
    twins := p.twins.filter (fun e => e.2.failedOver), port0Up := p.port0Up, port1Up := p.port1Up
    port0Reset := p.port0Reset, port1Reset := p.port1Reset }

/-- The function capabilities after a reset of every function (R259). -/
def freshCaps (s : State) : State :=
  s.each (List.range 8) (fun s f => s.modFunc f (fun x => { x with caps := if f = 0 then 0x1F else 0, gens := [] }))

/-- A package warm reset takes effect on both dies (R47, R466, R467). -/
def warmEffect (pw : PortWriter) (s : State) : State :=
  let s := { s with slots := s.slots.map (fun e => (e.1, { e.2 with adopted := false })) }
  let s := halfFresh (halfFresh s 0 1) 1 1
  let s := { s with pkg := pkgWarm s, heldFinal := [], results := [], reads := [], ticking := [], turned := [], hostFail := []
                    levels := freshLevels s }
  otpTwins (banksJudged pw (banksJudged pw (ownReach (freshCaps s)) 0) 1)

/-- The generation in force after a cold reset: the highest that is committed with a valid CRC (R484). -/
def otpChosen (o : Otp) : Nat :=
  (List.range 4).foldl (fun b g => if (tget {} o.gens (g + 1)).committed then g + 1 else b) 0

/-- The OTP as a cold reset reads it. -/
def otpCold (o : Otp) (skip : Bool) : Otp := { o with inForce := otpChosen o, skipped := skip }

/-- What a cold reset leaves of a die: OTP, flash, and the black-box copy that lies in flash (R47, R420). -/
def dieCold (x : Die) (skip : Bool) : Die :=
  { otp := otpCold x.otp skip, flash := x.flash, bbx := { copy := x.bbx.copy, savedRecords := x.bbx.savedRecords }
    refLost := x.refLost, thermWarn := x.thermWarn, thermCrit := x.thermCrit }

/-- A unit that fails the self-test of a cold reset (R17, R18): a lane is LANE_DEAD, an engine fails, any other unit is RETIRED. -/
def selfTestFails (pw : PortWriter) (s : State) (u : Nat × Nat) : State :=
  match u.1 with
  | 1 => if u.2 < 384 then laneFault pw s u.2 0 0 [] else s
  | 2 => if u.2 < 32 then engineFails pw s u.2 else if u.2 < 40 then spareFails s (u.2 - 32) else s
  | 3 => if u.2 < 2048 then s.modSlot u.2 (fun x => { x with unit := .retired }) else s
  | 4 => if u.2 < 128 then s.modXfr u.2 (fun x => { x with unit := .retired }) else s
  | 5 => if u.2 < 128 then s.modMeter u.2 (fun x => { x with unit := .retired }) else s
  | 6 => if u.2 < 4096 then s.modChord u.2 (fun x => { x with unit := .retired }) else s
  | _ => s

/-- PORST_N: everything is reset, every unit is tested, the straps are sampled, and the OTP read sets what depends on it (R17, R466,
R472, R473). -/
def coldAt (pw : PortWriter) (s : State) (k : Straps) (failed : List (Nat × Nat)) : State :=
  let p : Pkg := { tiebreak := k.tiebreak, standby := k.standby, sysId := k.devid, pfail := s.pkg.pfail }
  let b : State := { State.reset with
    pending := s.pending, free := s.free, edges := s.edges, hostMem := s.hostMem, posted := s.posted, pkg := p
    die0 := dieCold s.die0 k.otpSkip, die1 := dieCold s.die1 k.otpSkip, fvRaw := s.fvRaw
    lanes := s.lanes.foldl (fun t e => tset {} t e.1 { levelA := e.2.levelA, levelB := e.2.levelB }) []
    clusters := s.clusters.foldl (fun t e => tset {} t e.1 { measured := e.2.measured }) [] }
  let b := halfFresh (halfFresh b 0 0) 1 0
  let b := { b with levels := freshLevels b, pkg := { b.pkg with sentinel0 := otpSentinels b 0, sentinel1 := otpSentinels b 1 } }
  otpTwins (failed.foldl (selfTestFails pw) (banksJudged pw (banksJudged pw (ownReach b) 0) 1))

end Sys2Proof.Machine
end

