-- ==== Sys2Proof/WellFormed.lean ====
section
/-! DEFINITION. Which commands are well-formed: every element a command names is one the device has (R10, R11). A
command that names none of the device's elements changes nothing. -/

namespace Sys2Proof

/-- The accessor exists: one of eight functions (R252), of two stewards (R348), a lane (R194). -/
def Who.ok : Who → Bool
  | .fn f => decide (f < 8)
  | .steward d => decide (d < 2)
  | .oob n => decide (n < 384)

/-- The place of an entry exists: queues 0–127 of a function (R261), its mailbox (R263), a user context (R350). -/
def EntrySrc.ok : EntrySrc → Bool
  | .queue f q => decide (f < 8) && decide (q < 128)
  | .mailbox f => decide (f < 8)
  | .policy d c => decide (d < 2) && decide (c < 8)

/-- The block exists. -/
def IdleBlock.ok : IdleBlock → Bool
  | .lane n => decide (n < 384)
  | .cluster c => decide (c < 32)
  | .adminQueue f => decide (f < 8)
  | .channel n => decide (n < 128)
  | .route n => decide (256 ≤ n) && decide (n < 768)
  | .linkPort p => decide (p < 4)

/-- The domain exists. -/
def WakeTarget.ok : WakeTarget → Bool
  | .region r => decide (r < 8)
  | .die d => decide (d < 2)

/-- A memory of R393 and one of its instances: regions, clusters, or dies. -/
def memOk : MemKind → Nat → Bool
  | .regionSram, n => decide (n < 8)
  | .clusterMem, n => decide (n < 32)
  | _, n => decide (n < 2)

/-- Every element the command names exists. -/
def Instr.wf : Instr → Bool
  | .nop n | .write n | .read n | .xact n | .laneReset n | .busRecover n | .release n | .rxFlush n | .uartBreak n
  | .tachRestart n | .pwmForce n | .sense n | .gangWrite n | .jump n | .test n | .wait n | .delay n | .signal n
  | .post n | .meterCcwRead n | .meterCcwLoad n | .meterCcwClear n | .mark n | .copy n | .halt n | .ccwFetch n
  | .forwardedResult n | .waitTimeout n | .delayElapsed n => decide (n < 2048)
  | .pathPiece n p bs => decide (n < 2048) && decide (p < 32) && decide (bs.length ≤ 256)
  | .hostReadCompletion _ a bs _ => decide (a.toNat + bs.length ≤ 2 ^ 63)
  | .completionTimeout _ a n => decide (a.toNat + n ≤ 2 ^ 63)
  | .programAdmit c _ | .forwardedCommand c | .bankFault c _ _ | .engineFault c | .spareTakeover c | .adoption c =>
    decide (c < 32)
  | .laneTransactionEnd n _ | .laneTimeout n _ | .laneStallTimeout n _ _ | .holdTimeout n | .transactionCut n _ _
  | .lanePinChange n _ _ _ _ | .leadStroke n | .pulseEnd n | .leadFrameStart n | .leadFrameEnd n | .smbusHostNotify n _ _
  | .inBandInterrupt n _ _ | .uartRxByte n _ _ _ | .tachEdge n _ | .tachStall n | .targetMailboxTransfer n _
  | .laneUnitFault n _ _ | .pwmPeriodStart n => decide (n < 384)
  | .start e | .resume e | .haltProgram e | .armChord e | .disarmChord e | .signalWorkOrder e | .meterSet e | .meterRead e
  | .bufferAlloc e | .bufferFree e | .laneConfigRegisters e | .laneConfigLaneSet e | .nopWorkOrder e | .identify e
  | .createQueue e | .destroyQueue e | .setChordReserve e | .setSleepPolicy e | .warmReset e | .setMailboxNotify e
  | .getFeature e | .createEventRing e | .destroyEventRing e | .firmwareStage e | .firmwareActivate e | .liveActivation e
  | .otpCommit e _ _ | .blackboxRead e | .policyLoad e | .policyStart e | .policyStop e | .policyUnload e
  | .policyStatus e | .grantCapability e | .linkStatus e | .linkPorts e | .linkAlias e | .linkHandback e | .twinConfig e
  | .untwin e => e.ok
  | .halfReloadDone d _ | .bbxFreeze d | .bbxUnfreeze d | .calibrationStart d | .calibrationDone d _
  | .thermalCrossing d _ | .lockstepMismatch d | .rollbackComplete d | .fastClockFailure d | .dieWatchdogExpiry d
  | .supplyOutOfRange d | .aliveSilence d | .lostHalfReset d | .halfRejoin d | .arcFlitReceive d _ _ _
  | .bootImageLoad d _ _ | .bootRetry d | .firmwareReady d | .peerEdgeTimeout d | .refclkLost d | .refclkRelock d
  | .blackboxSaveDone d | .dieDozeEntry d | .dieRestEntry d | .lspLoadArrival d | .strStreamEnd d | .sysWaitEnd d _
  | .stewardBundle d | .eventContextEntry d | .userSliceEnd d | .aliveRegained d | .vddAonLoss d => decide (d < 2)
  | .mailboxRequest w f _ => w.ok && decide (f < 8)
  | .doorbell f q _ | .headPublish f q => decide (f < 8) && decide (q < 128)
  | .entryFetch f | .adminEnable f _ | .adminDisable f _ | .busMasterChange f _ _ _ _ | .msixUnmask f
  | .functionLevelReset f => decide (f < 8)
  | .registerWrite w _ off _ high _ => w.ok && decide (off < 2 ^ 25) && decide (off % (if high.isSome then 8 else 4) = 0)
  | .idlePointApply b => b.ok
  | .lowDwordRead w _ off => w.ok && decide (off < 2 ^ 25) && decide (off % 4 = 0)
  | .snapshotLatchRead m | .mtrClear m | .meterSlot m => decide (m < 128)
  | .windowEntryWrite w d e first bs =>
    w.ok && decide (d < 2) && decide (e < 256) && decide (0 < bs.length) && decide (first + bs.length ≤ 16)
  | .windowInvalidate w d _ | .regionReset w d _ | .unitResetLane w d _ _ _ | .unitResetEngine w d _
  | .unitResetSlot w d _ | .unitResetChannel w d _ | .unitResetMeter w d _ | .unitResetChord w d _ =>
    w.ok && decide (d < 2)
  | .laneCfgWrite w n _ => w.ok && decide (n < 384)
  | .snsWinWrite w i k _ => w.ok && decide (i < 64) && decide (k < 2)
  | .mtrSetWrite w m k _ => w.ok && decide (m < 128) && decide (k < 8)
  | .chdRearm w c => w.ok && decide (c < 4096)
  | .chdClear c | .chordFire c _ | .chordHoldoffEnd c => decide (c < 4096)
  | .timerRun w t _ => w.ok && decide (t < 32)
  | .timerStop t _ | .vertexTimerExpiry t => decide (t < 32)
  | .xfrStart w ch => w.ok && decide (ch < 128)
  | .xfrStop ch | .xfrRunPiece ch | .xfrCountEnd ch => decide (ch < 128)
  | .arbClear r | .arbPhase r _ _ | .regionDozeEntry r | .regionGateEntry r | .regionResetDone r
  | .windowCacheDrop r => decide (r < 8)
  | .resetLost w => w.ok
  | .evcHeadWrite t _ | .evcAck t _ | .eventRecordWrite t => decide (t < 10)
  | .evcRouteWrite w d n _ => w.ok && decide (d < 2) && decide (256 ≤ n) && decide (n < 768)
  | .moderationWrite w t g _ => w.ok && decide (t < 10) && decide (g < 48)
  | .moderationTimer t g => decide (t < 10) && decide (g < 48)
  | .fastVertexChange v _ _ _ => decide (v < 32)
  | .comparatorCrossing i k _ _ | .comparatorHoldEnd i k _ => decide (i < 64) && decide (k < 2)
  | .adcConversion i _ _ _ => decide (i < 64)
  | .scrubRead k n _ _ => memOk k n
  | .splitEntry | .arcDown _ | .arcRetrain _ | .coldReset _ _ | .packageWarmReset | .pfailAsserted _ | .pathLoss | .apexLoss
  | .pfailReleased _ => true
  | .pciePortReset p | .pcieLinkDown p | .pcieLinkUp p => decide (p < 2)
  | .wakeComplete t _ _ => t.ok
  | .heartbeatSend p | .heartbeatReceive p _ _ _ _ _ _ _ _ | .delayBlock p _ _ _ _ | .ackBlock p _ _ _ _ _ _ _ _
  | .vertexBlock p _ _ _ _ _ _ _ | .signalBlock p _ _ _ _ _ | .blockResend p | .helloPacket p _ _ _ _ _ _ _
  | .joinPacket p _ _ | .laneCmdPacket p _ _ | .laneDataPacket p _ _ _ _ | .laneResultPacket p _ _ _ _ _ _
  | .subscribePacket p _ _ _ _ | .handbackPacket p _ | .linkPortDown p _ | .linkTrainingRetry p | .blockLock p =>
    decide (p < 4)
  | .unitResetDone _ _ _ => true

end Sys2Proof
end

