-- ==== Sys2Proof/Machine/PortWrite.lean ====
section
/-! DEFINITION. Writes whose effect reaches beyond their register's block, writes through BAR0, the register mailbox and
the doorbells (R19, R54, R55, R72, R262, R263, R270, R414, R456, R468). -/

namespace Sys2Proof.Machine

/-- What no command but a cold reset changes: the straps (R473) and the OTP generation in force (R484). The queue of waiting
commands and the tick are the step's own (log 1). -/
def settle (s t : State) : State :=
  { t with
    pending := s.pending, edges := s.edges
    pkg := { t.pkg with sysId := s.pkg.sysId, standby := s.pkg.standby, tiebreak := s.pkg.tiebreak }
    die0 := { t.die0 with otp := { t.die0.otp with inForce := s.die0.otp.inForce, skipped := s.die0.otp.skipped } }
    die1 := { t.die1 with otp := { t.die1.otp with inForce := s.die1.otp.inForce, skipped := s.die1.otp.skipped } } }

/-- The run of every command: one that names an element the device does not have changes nothing (log 2). -/
def run (i : Instr) (s : State) (f : State → State) : Host.Outcome State Fault Refusal :=
  .next (if i.wf then settle s (f s) else s)

/-- `n` bytes that the manual leaves open. -/
def freeBytes (s : State) : Nat → List Byte × State
  | 0 => ([], s)
  | n + 1 =>
    let (w, s) := s.freeWord
    let (bs, s) := freeBytes s n
    (BitVec.ofNat 8 w.toNat :: bs, s)

/-- How far the command on lane `n` had come when a register write alone cuts it: the manual gives no number (log 25). -/
def freeCut (s : State) (n : Nat) : (Nat × List Byte) × State :=
  match (s.lane n).txn with
  | none => ((0, []), s)
  | some c =>
    let (a, s) := s.freeWord
    let (b, s) := s.freeWord
    let (bs, s) := freeBytes s (b.toNat % (recvLen c + 1))
    ((a.toNat % (sendLen c + 1), bs), s)

/-- DIE_UNIT_RESET as a register (R19, R53). -/
def unitResetReg (s : State) (who : Who) (d : Nat) (v : Word) : State :=
  let unit := wf v 8 12
  let (cut, s) := if wf v 0 3 = 1 then freeCut s unit else ((0, []), s)
  unitResetWrite programBlockWrite s who d v cut.1 cut.2

/-- PKG_LOST_CTRL.RESET_LOST (R414, R422): a lost half gets its die reset now. -/
def resetLostNow (s : State) : State :=
  let s := if s.pkg.lost0 then dieResetAt programBlockWrite s 0 else s
  if s.pkg.lost1 then dieResetAt programBlockWrite s 1 else s

/-- A write of a whole dword at port-space offset `off` of die `d`. -/
def portWrite (s : State) (who : Who) (d off : Nat) (v : Word) : State :=
  if off = 0x2018 then unitResetReg s who d v
  else if off = 0x4004 then (if wb v 2 then regionResetWrite programBlockWrite s who d (wf v 0 2) v else s)
  else if off = 0x104 then
    let s' := pkgWrite s who d off v
    if wb v 1 && !(s.pkg.split && s.pkg.custody != d) then resetLostNow s' else s'
  else if off = 0x40000 || off = 0x48000 then
    let p := 2 * d + (off - 0x40000) / 0x8000
    let s' := blockWrite s who d off v
    if 9 < wf v 4 4 then s' else portEnable programBlockWrite s' p (wb v 0)
  else blockWrite s who d off v

/-- A program of the primary function writes port space (R61). -/
def portPw : PortWriter := fun s d off v => portWrite s (.fn 0) d off v

/-! ### BAR0 -/

/-- The 64 bytes of a function's mailbox. -/
def mailboxBytes (s : State) (f : Nat) : List Byte := (List.range 64).map (fun i => tget 0 (s.func f).mailbox i)

/-- A mailbox request in the form of an entry (R262): ARGUMENT in place of INLINE bytes 32–39. -/
def mailboxEntry (b : List Byte) : List Byte := sub b 0 8 ++ zeros 24 ++ sub b 8 8 ++ zeros 24

/-- OWN of the mailbox. -/
def mailboxOwned (s : State) (f : Nat) : Bool := (s.func f).request.isSome

/-- The dword at `4 * i` of the mailbox is written (R262, R263): the write of the dword at 0x3C with OWN set issues the
request; while it stands writes are ignored and logged. -/
def mailboxWrite (s : State) (who : Who) (f i : Nat) (bs : List Byte) : State :=
  if mailboxOwned s f then violate s (fnPort f) vRequest who (0x2000 + 4 * i) (leNat (bs.take 4)) 0
  else
    let s := mailboxPut s f (4 * i) (sub bs 0 4)
    if i = 15 && bit (u8 bs 3) 7 then
      let s := s.modFunc f (fun x => { x with request := some { bytes := mailboxEntry (mailboxBytes s f), effect := false } })
      stewardNotice s (fnPort f) f 1
    else s

/-- A doorbell write (R270). -/
def doorbellWrite (s : State) (f q : Nat) (v : Word) : State :=
  let x := s.queue f q
  let n := 2 ^ x.sizeLog2
  let t := wf v 0 16
  match x.st with
  | .absent | .destroying => violate s (fnPort f) vRequest (.fn f) (0x1000 + 8 * q) v.toNat 0
  | .error => s
  | .running =>
    let s := stewardNotice s (fnPort f) f 0
    let u0 := (x.tail + n - x.head) % n
    let u1 := (t + n - x.head) % n
    if n ≤ t || u1 < u0 then queueFail s f q 0x04 x.tail
    else s.modQueue f q (fun x => { x with tail := t })

/-- The MSI-X table (R252, R304): one vector; clearing the mask sends a message that is pending if INT is still 1. -/
def msixWrite (s : State) (f o : Nat) (v : Word) : State :=
  if o = 0 then s.modTarget f (fun g => { g with msgAddr := put g.msgAddr 0 32 v.toNat })
  else if o = 4 then s.modTarget f (fun g => { g with msgAddr := put g.msgAddr 32 32 v.toNat })
  else if o = 8 then s.modTarget f (fun g => { g with msgData := v })
  else if o = 12 then
    let g := s.target f
    let s := s.modTarget f (fun g => { g with masked := wb v 0 })
    if g.masked && !wb v 0 && g.msixPending then
      (if intOf g then messageDue s f else s.modTarget f (fun g => { g with msixPending := false }))
    else s
  else s

/-- A write of a whole dword through BAR0 of function `f` (R54). The ADDRESS of a violation at an offset that has no port-space offset is
the BAR0 offset (DESIGN CHOICE, log 70). -/
def bar0Write (s : State) (f off : Nat) (v : Word) : State :=
  let who : Who := .fn f
  if off < 0x1000 then fnWrite s who f off v
  else if off < 0x1400 then (if off % 8 = 0 then doorbellWrite s f ((off - 0x1000) / 8) v else s)
  else if 0x2000 ≤ off && off < 0x2040 then mailboxWrite s who f ((off - 0x2000) / 4) (leBytes 4 v.toNat)
  else if 0x3000 ≤ off && off < 0x4000 then bankWrite s who f (off - 0x3000) off v
  else if 0x8000 ≤ off && off < 0x9000 then msixWrite s f (off - 0x8000) v
  else if 0x9000 ≤ off && off < 0x9010 then s
  else violate s (fnPort f) vUnmapped who off v.toNat 0

/-- The accessor reaches the port space of die `d` (R54, R57, R342): function 0 through BAR2, over the bridge where it lies
between; a steward its own die. -/
def portReach (s : State) (who : Who) (d : Nat) : Bool :=
  dieUp s d && (match who with
  | .fn f => f = 0 && dieUp s 0 && (d = 0 || arcUp s)
  | .steward e => e = d
  | .oob _ => false)

/-- A host or steward read with its effect (R8, R54, R55, R59): of a function through BAR0, of function 0 through BAR2, of a steward in
its own die's port space. -/
def accessRead (s : State) (who : Who) (bar2 : Bool) (off : Nat) : State :=
  match who with
  | .fn f =>
    if !bar2 then (if 0x10000 ≤ off || !dieUp s (fnPort f) || !fnPresent s f then s else bar0ReadEffect s f off)
    else if portReach s who (off / 0x1000000) then portReadEffect s (off / 0x1000000) (off % 0x1000000) else s
  | .steward d => if portReach s who d then portReadEffect s d (off % 0x1000000) else s
  | .oob _ => s

/-- In SPLIT a write to the PKG range of the half without custody is ignored and logged (R57); where the bridge that is down lies
between, on the die that the access enters by (DEDUCED, log 70). -/
def splitIgnored (s : State) (who : Who) (d off : Nat) (v : Word) : State :=
  match who with
  | .fn f => if f = 0 && s.pkg.split && s.pkg.custody != d && off < 0x2000 && dieUp s 0 then violate s 0 vSplitWrite who off v.toNat 0 else s
  | _ => s

/-- A host or steward write (R54, R55, R72): of a function through BAR0, of function 0 through BAR2, of a steward to its own
die's port space. A target lane reaches the mailbox alone (R194). Partial byte enables to an address that is unmapped
or private meet two kinds of R72: PARTIAL_WRITE alone is logged, once for a 64-bit access (DESIGN CHOICE, log 70). -/
def accessWrite (s : State) (who : Who) (bar2 : Bool) (off : Nat) (v : Word) (full : Bool) : State :=
  match who with
  | .fn f =>
    if !bar2 then
      (if 0x10000 ≤ off || !dieUp s (fnPort f) || !fnPresent s f then s
       else if full then bar0Write s f off v else violate s (fnPort f) vPartialWrite who (bar0Port f off) v.toNat 0)
    else
      let d := off / 0x1000000
      if !portReach s who d then splitIgnored s who d (off % 0x1000000) v
      else if full then portWrite s who d (off % 0x1000000) v else violate s d vPartialWrite who (off % 0x1000000) v.toNat 0
  | .steward d => if full && portReach s who d then portWrite s who d (off % 0x1000000) v else s
  | .oob _ => s

/-- What stands at an offset that a write names: a register, or nothing (R54, R56). -/
def accessReg (s : State) (who : Who) (bar2 : Bool) (off : Nat) : Option Reg :=
  match who with
  | .fn f =>
    if bar2 then portReg s (off / 0x1000000) (off % 0x1000000)
    else if off < 0x1000 then fnReg s f off
    else if 0x3000 ≤ off && off < 0x4000 then evcBank s f (off - 0x3000)
    else if off < 0x1400 || (0x2000 ≤ off && off < 0x2040) || (0x8000 ≤ off && off < 0x9010) then some (.w 0)
    else none
  | _ => portReg s (off % 0x2000000 / 0x1000000) (off % 0x1000000)

/-- The two dwords of a 64-bit access at `off` are one register, or both name nothing, so that a violation is one (R59, R72). -/
def oneAccess (s : State) (who : Who) (bar2 : Bool) (off : Nat) : Bool :=
  match accessReg s who bar2 off with
  | some (.wide _) => true
  | some (.w _) => false
  | none => (accessReg s who bar2 (off + 4)).isNone

/-- A violation has been logged since `s` (R73). -/
def violatedSince (s t : State) : Bool := t.die0.violNext != s.die0.violNext || t.die1.violNext != s.die1.violNext

/-- A 32-bit or 64-bit access (R55, R59): the dwords of a 64-bit one in ascending order, refused as one where they are one register. -/
def accessWrites (s : State) (who : Who) (bar2 : Bool) (off : Nat) (v : Word) (high : Option Word) (full : Bool) : State :=
  let t := accessWrite s who bar2 off v full
  match high with
  | none => t
  | some h => if !full || (violatedSince s t && oneAccess s who bar2 off) then t else accessWrite t who bar2 (off + 4) h true

end Sys2Proof.Machine
end

