-- ==== Sys2Proof/Machine/Ccws.lean ====
section
/-! DEFINITION. Channel command words: the fetch, the dispatch with its checks in order, lane commands and data chains, and
the commands that run on no lane (R40, R76–R114, R125–R127, R144, R438, R439). -/

namespace Sys2Proof.Machine

/-! ### The LANE field (R40, R76) -/

/-- The function holds a capability (R257, R259). -/
def hasCap (s : State) (f k : Nat) : Bool := wb (s.func f).caps k

/-- A device ID names this device (R40): 0, and on a worker its own. -/
def localDevice (s : State) (dev : Nat) : Bool := dev = 0 || (s.pkg.sysId != 31 && dev = s.pkg.sysId.toNat)

/-- What a LANE field names (R76, R106): the device (0 for this one), whether it is a set, the members in order. -/
structure LaneField where
  device : Nat
  isSet : Bool
  lanes : List Nat
  deriving DecidableEq, Repr

/-- The LANE field of a CCW of function `f`, by the table of R76 in its order; a set that holds an odd or a strobe lane by now names it as
much as a lane number does (R12, R167). -/
def laneField (s : State) (f v : Nat) : Fail ⊕ LaneField :=
  let dev := fld v 10 5
  let set := bit v 15
  let n := fld v 0 9
  if bit v 9 || (set && bit v 8) then .inl badField
  else if set then
    (if dev != 0 then .inl badField
     else match (tget {} s.pkg.sets (fld v 0 8)).members with
       | [] => .inl noSuchResource
       | ls => if ls.any (fun n => isPartner s n || (strobeOf s n).isSome) then .inl gangedOdd else .inr ⟨0, true, ls⟩)
  else if 384 ≤ n || (localDevice s dev && laneGone s n) then .inl noSuchResource
  else if localDevice s dev then
    (if isPartner s n || (strobeOf s n).isSome then .inl gangedOdd else .inr ⟨0, false, [n]⟩)
  else if dev = 31 || !isRoot s || !hasCap s f 2 then .inl remoteNotAllowed
  else .inr ⟨dev, false, [n]⟩

/-! ### Dispatch (R77, R96, R125) -/

/-- The slot is ready (R125) and its cluster's sequencer runs (R30): the CCW at the front of its buffer. -/
def readyCcw (s : State) (n : Nat) : Option Fetched :=
  let x := s.slot n
  let c := slotServer s n
  let r := s.region (c / 4)
  if x.st != .active || x.exec.isSome || x.ended.isSome || r.power != .run || r.inReset || !dieUp s (c / 16) then none
  else match x.buf.head? with
    | some e => if e.addr = x.pc && !e.stale then some e else none
    | none => none

/-! The rounds of R125 -/

/-- The number of slot `n` within cluster `c`, which serves it: 64 and up for an adopted slot (R152). -/
def localSlot (c n : Nat) : Nat := if n / 64 = c then n % 64 else 64 + n % 64

/-- The slot runs a follow-on chain. -/
def runsChain (s : State) (n : Nat) : Bool := match (s.slot n).owner with | .chord _ => true | _ => false

/-- The first of some slots by a number. -/
def firstBy (f : Nat → Nat) : List Nat → Option Nat
  | [] => none
  | n :: ns => match firstBy f ns with
    | none => some n
    | some m => some (if f m < f n then m else n)

/-- How many turns after the START slot that the round before served last a START slot's turn comes. -/
def startTurn (x : Cluster) (k : Nat) : Nat := (k + 127 - x.rrFrom) % 128

/-- The slot that a round of cluster `c` takes next: follow-on chains in ascending order, then STARTs from the one after the slot served
last (R125). -/
def roundPick (s : State) (c : Nat) (x : Cluster) (ready : List Nat) : Option Nat :=
  match firstBy (localSlot c) (ready.filter (fun n => runsChain s n && decide (x.chainAt ≤ localSlot c n))) with
  | some n => some n
  | none => firstBy (fun n => startTurn x (localSlot c n)) (ready.filter (fun n => !runsChain s n && decide (x.rrSeen ≤ startTurn x (localSlot c n))))

/-- A round begins. -/
def newRound (x : Cluster) : Cluster := { x with chainAt := 0, rrFrom := x.rr, rrSeen := 0 }

/-- The ready slots of cluster `c`. -/
def readySlots (s : State) (c : Nat) : List Nat :=
  (s.slots.map Prod.fst).filter (fun n => slotServer s n = c && (readyCcw s n).isSome)

/-- The slot whose turn it is in cluster `c`, and the round it belongs to (R125). -/
def turnOf (s : State) (c : Nat) : Option (Nat × Cluster) :=
  let x := s.cluster c
  match roundPick s c x (readySlots s c) with
  | some n => some (n, x)
  | none => (roundPick s c (newRound x) (readySlots s c)).map (fun n => (n, newRound x))

/-- The round after slot `n` has been served. -/
def turnTaken (s : State) (c n : Nat) (x : Cluster) : Cluster :=
  let k := localSlot c n
  if runsChain s n then { x with chainAt := k + 1 }
  else { x with chainAt := 128, rr := k, rrSeen := startTurn x k + 1 }

/-- The sequencer takes slot `n`, if it is its turn: the state after, or none. -/
def takesTurn (s : State) (n : Nat) : Option State :=
  let c := slotServer s n
  match turnOf s c with
  | some (m, x) =>
    if m = n then
      let y := turnTaken s c n x
      some (s.modCluster c (fun x => { x with rr := y.rr, rrFrom := y.rrFrom, rrSeen := y.rrSeen, chainAt := y.chainAt }))
    else none
  | none => none

/-- LAST CCW ADDRESS of a fetch that failed (R118): the failed address for FETCH_FAILED and for a chain's first CCW, else the
CCW that led there. -/
def fetchLast (x : Slot) (a : DWord) (f : Fail) : DWord := if f = fetchFailed || x.last = 0 then a else x.last

/-- PAUSE is reached (R96, R119). -/
def suspend (s : State) (n : Nat) (a : DWord) : State :=
  let s := readsVoid s n none
  let s := s.modSlot n (fun x => { setFail x (csSuspended, suspendPoint) with st := .suspended, last := a, ccw := a, buf := [] })
  (interim portPw s n 4).2

/-- The checks 1 to 3 of R77. -/
def ccwForm (c : Ccw) : Option Fail :=
  if !ccwListed c.cmd then some badCommand else if !flagsOk c then some badFlags else if !unusedOk c then some badField else none

/-- The CCW `e` of slot `n` is dispatched, with `act` its execution after the checks 1 to 3 of R77. -/
def dispatched (s : State) (n : Nat) (e : Fetched) (act : State → Ccw → DWord → State) : State :=
  let x := s.slot n
  let c := ccwOf e.bytes
  if c.cmd = 0x08 && x.jumped.isSome then checkEnd portPw s n jumpToJump (x.jumped.getD 0)
  else if pauseOf c.flags && x.honour then suspend s n e.addr
  else
    let s := s.modSlot n (fun x => { x with ccw := e.addr, begun := e.addr, flags := w8 c.flags, buf := x.buf.tail, jumped := none })
    match ccwForm c with
    | some f => checkEnd portPw s n f e.addr
    | none => act s c e.addr

/-- Dispatches the CCW at the front of slot `n` when it is that slot's turn (R125) and `mine` names the CCW. A CMD value that no command
has is dispatched by any of them. -/
def dispatch (s : State) (n : Nat) (mine : Ccw → Bool) (act : State → Ccw → DWord → State) : State :=
  match readyCcw s n, takesTurn s n with
  | some e, some t =>
    match e.fail with
    | some f => checkEnd portPw t n f (fetchLast (s.slot n) e.addr f)
    | none =>
      let c := ccwOf e.bytes
      if ccwListed c.cmd && !mine c then s else dispatched t n e act
  | _, _ => s

/-- A CCW that executes no lane command ends well (R93, R97). -/
def ccwDone (s : State) (n : Nat) (c : Ccw) (a : DWord) : State := ccwEnded portPw s n a (noteOf c.flags) (byNext c.flags a)

/-- A CCW ends its program with a check of its own. -/
def ccwFails (s : State) (n : Nat) (a : DWord) (f : Fail) : State := checkEnd portPw s n f a

/-! ### Lane commands (R78–R83, R90, R94, R106–R111, R131, R437, R438) -/

/-- The bytes a lane command with `m` members sends, and the bytes it stores. -/
def sendBytes (op : LaneOp) (count wlen : Nat) : Nat := match op with
  | .write | .gang | .control => count
  | .xact => wlen
  | _ => 0
def storeBytes (op : LaneOp) (count wlen m : Nat) : Nat := match op with
  | .read | .sense => m * count
  | .xact => m * (count - wlen)
  | _ => 0

/-- The data pieces of a part and the check made of a direct range before it moves (R110, R144): `from_` is where the stored
bytes begin. With DROP the receiving part makes no access (R95). -/
def partData (s : State) (p : Party) (list : Bool) (addr send store : Nat) : Walk × Option Fail × State :=
  if list then
    let (w, s) := piecesOf s p true addr (send + store)
    (w, if w.pieces.isEmpty && send + store != 0 then w.fail else none, s)
  else
    let (f, s) := accessFail s p addr send rightRead
    match f with
    | some f => (⟨[], none, false⟩, some f, s)
    | none =>
      let (f, s) := accessFail s p (addr + send) store rightWrite
      (⟨if send + store = 0 then [] else [(addr, send + store)], none, false⟩, f, s)

/-- A rule of the command's own that one of the lanes has (order 5 of R77). -/
def formFails (s : State) (op : LaneOp) (count target : Nat) (chained : Bool) : List Nat → Option Fail
  | [] => none
  | n :: ns =>
    match laneCheck (s.lane n) op count target chained with
    | some f => if f.1 = csProgram then some f else formFails s op count target chained ns
    | none => formFails s op count target chained ns

/-- The lane command of member `pos`. -/
def memberCmd (s : State) (n : Nat) (e : Exec) (count : Nat) (chained : Bool) (pos : Nat) : LaneCmd :=
  { user := slotUser s n, pos := pos, op := e.op, count := count, wlen := e.wlen, target := e.target, out := e.out, open_ := chained }

/-- Member `pos` of a command begins on lane `l` (R90, R107, R109, R131); one forwarded to another cluster waits for its credit there
(R130). -/
def memberBegins (s : State) (n : Nat) (c : LaneCmd) (l : Nat) : State :=
  let k := slotServer s n
  let d := k / 16
  if laneGone s l then memberEnds portPw s n (failRes c laneDead)
  else if !laneReach s d l then memberEnds portPw s n (lostPath c)
  else if laneCluster (servingLane s l) = k then laneDone portPw (laneArrive s l c) l
  else s.modCluster (laneCluster (servingLane s l)) (fun x => { x with inbound := x.inbound ++ [{ lane := l, cmd := c }] })

/-- The members begin, in position order. -/
def membersBegin (n : Nat) (e : Exec) (count : Nat) (chained : Bool) : State → List (Nat × Nat) → State
  | s, [] => s
  | s, (pos, l) :: ls => membersBegin n e count chained (memberBegins s n (memberCmd s n e count chained pos) l) ls

/-- A command to another device leaves once its data chain is complete, the parameters of a CONTROL behind it (R83, R437). -/
def remoteBegins (s : State) (n : Nat) (e : Exec) (count : Nat) : State :=
  let u := slotUser s n
  let s := sendTo s e.device (.laneCmd s.pkg.sysId (BitVec.ofNat 5 e.device)
    { lane := execLane e, code := e.code, count := count, target := e.target, slot := n, fn := u.fn, tag := u.tag, gen := u.gen })
  if e.op = .control && !e.out.isEmpty then sendTo s e.device (.laneData s.pkg.sysId (BitVec.ofNat 5 e.device) (execLane e) n e.out) else s

/-- A lane command that is refused before any of it moves: the result registers are set (R100), in a set every position having failed. -/
def laneStartFails (s : State) (n : Nat) (c : Ccw) (a : DWord) (set : Bool) (m : Nat) (f : Fail) : State :=
  checkEnd portPw (s.modSlot n (fun x => { x with dev := 0, resid := w16 c.count, laneRes := allLanes set m })) n f a

/-- The parameters of a CONTROL are read as it begins (R83): its bytes, or the failure. -/
def controlData (s : State) (p : Party) (op : LaneOp) (ps : List Piece) : (List Byte × Option Fail) × State :=
  if op = .control then getPieces p s ps [] else (([], none), s)

/-- The first rule on its data that a lane of the command breaks (R80, R181, R182). -/
def dataFails (s : State) (op : LaneOp) (target : Nat) (out : List Byte) (ls : List Nat) : Option Fail :=
  (ls.findSome? (fun l => laneData (s.lane l) op target out))

/-- A lane command begins (R77–R83, R106–R111, R144). -/
def laneBegins (s : State) (n : Nat) (c : Ccw) (a : DWord) (lf : LaneField) : State :=
  let op := opOf c.cmd
  let p := partyOf s n
  let wlen := if op = .xact then fld c.target 0 8 else 0
  let drop := dropOf c.flags
  let chained := spanOf c.flags
  let m := lf.lanes.length
  let gone := lf.lanes.filter (fun l => !laneGone s l)
  let own : Option Fail :=
    if (op = .write && lf.isSet) || (op = .gang && !lf.isSet) then some badField
    else if op = .control && 16 < c.count then some badCount
    else if op = .read && drop && c.addr != 0 then some badField
    else if lf.device != 0 then (if op = .xact && c.count < wlen then some badCount else none)
    else formFails s op c.count c.target chained gone
  let fails (s : State) (f : Fail) : State := laneStartFails s n c a lf.isSet m f
  match own with
  | some f => fails s f
  | none =>
    if lf.device != 0 && !reachable s lf.device then fails s pathLost
    else
      let (w, f, s) := partData s p (listOf c.flags) c.addr (sendBytes op c.count wlen) (if drop then 0 else storeBytes op c.count wlen m)
      match f with
      | some f => fails s f
      | none =>
        let ((out, cf), s) := controlData s p op w.pieces
        match (match cf with | some f => some f | none => if op = .control then dataFails s op c.target out gone else none) with
        | some f => fails s f
        | none =>
          let e : Exec := {
            code := w8 c.cmd, op := op, parts := [⟨a, w8 c.flags, c.count, w.pieces, w.fail⟩], wlen := wlen, target := w16 c.target
            device := lf.device, isSet := lf.isSet, members := lf.lanes, out := out }
          let s := s.modSlot n (fun x => { x with exec := some e })
          if lf.device != 0 then (if chained then s else remoteBegins s n e c.count)
          else membersBegin n e c.count chained s (enumL 0 lf.lanes)

/-- The execution of a lane command: the LANE field by R76, then the command. -/
def laneCommand (n : Nat) (s : State) (c : Ccw) (a : DWord) : State :=
  match laneField s (s.slot n).fn c.lane with
  | .inl f => laneStartFails s n c a (bit c.lane 15) 1 f
  | .inr lf => laneBegins s n c a lf

/-- A lane refuses the data of a command before it acts on any of it: no byte of COUNT was moved (R80, R100). -/
def dataRefused (s : State) (n : Nat) (f : Fail) (last : DWord) : State :=
  cmdFails portPw (s.modSlot n (fun x => { x with exec := x.exec.map (fun e => { e with out := [] }) })) n f last

/-! ### Data chains and the transfer path (R94, R132, R315) -/

/-- The data-chained CCW at the front of the buffer joins the command in slot `n` (R94): the CCW before it has ended, with the interim post
of its NOTE (R97), and this one is executing. -/
def chainJoin (s : State) (n : Nat) (e : Exec) : State :=
  let t := s
  let x := s.slot n
  let p := partyOf s n
  let tail := e.parts.getLastD ⟨x.ccw, 0, 0, [], none⟩
  match x.buf.head? with
  | none => s
  | some b =>
    if b.addr != tail.ccw + 16 || b.stale then s
    else match b.fail with
      | some f => cmdFails portPw s n f (if f = fetchFailed then b.addr else tail.ccw)
      | none =>
        let (on, s) := if noteOf tail.flags.toNat then interimPost portPw s n tail.ccw else (true, s)
        if !on then (if e.device = 0 then withdraw s e.members (slotUser t n) else s)
        else
        let s := s.modSlot n (fun x => { x with ccw := b.addr, begun := b.addr })
        let c := ccwOf b.bytes
        let allowed := flagsAllowed e.code.toNat e.isSet - (if bit (flagsAllowed e.code.toNat e.isSet) 5 then 32 else 0)
        if (c.flags &&& (255 - allowed)) != 0 then cmdFails portPw s n badFlags b.addr
        else if e.op = .read && dropOf c.flags && c.addr != 0 then cmdFails portPw s n badField b.addr
        else
          let send := sendBytes e.op c.count 0
          let store := if dropOf c.flags then 0 else storeBytes e.op c.count 0 1
          let (w, f, s) := partData s p (listOf c.flags) c.addr send store
          match f with
          | some f => cmdFails portPw s n f b.addr
          | none =>
            let open_ := spanOf c.flags
            let e := { e with parts := e.parts ++ [⟨b.addr, w8 c.flags, c.count, w.pieces, w.fail⟩] }
            let total := partsCount e.parts
            match (if e.device = 0 then formFails s e.op total e.target.toNat open_ (e.members.filter (fun l => !laneGone s l)) else none) with
            | some f => cmdFails portPw s n f b.addr
            | none =>
              let s := s.modSlot n (fun x => { x with exec := some e, flags := w8 c.flags, buf := x.buf.tail })
              if e.device = 0 then
                match (if !open_ && e.out.length = execSend e then dataFails s e.op e.target.toNat e.out e.members else none) with
                | some f => dataRefused s n f b.addr
                | none => mapCmd s e.members (slotUser s n) (fun k => { k with count := total, open_ := open_ })
              else if open_ then s
              else remoteBegins s n e total

/-- The memory side of some lanes moves a piece (R189). -/
def memMoved (s : State) (ls : List Nat) : State := s.each ls (fun s l => s.modLane l (fun x => { x with memAt := s.edges }))

/-- A piece of the data to send moves to the lanes (R132, R315): up to 256 bytes of the part it lies in; one that crosses the bridge waits
for credit (R337). -/
def sendPiece (s : State) (n : Nat) (e : Exec) : State :=
  let total := execSend e
  let have_ := e.out.length
  match partAt e.parts have_ with
  | none => s
  | some (q, off) =>
    let k := min (min 256 (q.count - off)) (total - have_)
    let d := slotServer s n / 16
    if e.device = 0 && e.members.any (fun l => laneDieNow s l != d) && !pCredit s d k then s
    else
    let ps := cutPieces q.pieces off k
    let got := (ps.map Prod.snd).foldl (· + ·) 0
    let ((bs, f), s) := getPieces (partyOf s n) s ps []
    let e := { e with out := e.out ++ bs }
    let s := s.modSlot n (fun x => { x with exec := some e })
    let s := if e.device = 0 then memMoved (mapCmd s e.members (slotUser s n) (fun c => { c with out := c.out ++ bs })) e.members
      else sendTo s e.device (.laneData s.pkg.sysId (BitVec.ofNat 5 e.device) (execLane e) n bs)
    match f with
    | some f => cmdFails portPw s n f q.ccw
    | none =>
      if got < k then cmdFails portPw s n (match q.fail with | some f => f | none => listShort) q.ccw
      else if e.device = 0 && e.out.length = total && !spanOf (e.parts.getLastD q).flags.toNat then
        match dataFails s e.op e.target.toNat e.out e.members with
        | some f => dataRefused s n f q.ccw
        | none => s
      else s

/-- A piece of a COPY (R88, R315): up to 256 bytes; at COUNT the CCW ends. Where the piece wrote a register that ended its own program
nothing follows. -/
def copyPiece (s : State) (n : Nat) (e : Exec) : State :=
  let p := partyOf s n
  let total := partsCount e.parts
  let k := min 256 (total - e.moved)
  let (src, dst) := (e.copySrc.toNat + e.moved, e.copyDst.toNat + e.moved)
  let x := s.slot n
  match rawRead s p src k with
  | (.bad f, s) => cmdFails portPw s n f x.ccw
  | (.ok bs, s) =>
    match rawWrite portPw s p dst bs .data false with
    | (some f, s) => cmdFails portPw s n f x.ccw
    | (none, s) =>
      if (s.slot n).exec != some e then s else
      let s := dropOverlap s n dst k
      let s := s.modSlot n (fun x => { x with
        exec := some { e with moved := e.moved + k }, acc := if crcOf x.flags.toNat then accFeed x.acc bs else x.acc })
      if e.moved + k < total then s
      else
        let s := s.modSlot n (fun x => { x with dev := 0, resid := 0, laneRes := 0 })
        ccwEnded portPw s n x.ccw (noteOf x.flags.toNat) (byNext x.flags.toNat x.ccw)

/-- The last byte that bytes `off` to `off + k` of the received data reach ends a 64-bit word of memory, or its part of the data (R160). -/
def wordFilled : List Part → Nat → Nat → Bool
  | [], _, _ => true
  | q :: qs, off, k =>
    if q.count < off + k then wordFilled qs (off - q.count) (k - (q.count - off))
    else off + k = q.count || dropOf q.flags.toNat || (match (cutPieces q.pieces off k).getLast? with
      | some x => (x.1 + x.2) % 8 = 0
      | none => true)

/-- A piece of received data leaves the lane of set position `pos` for memory (R132, R160, R315): what its transaction has received since
the piece before, up to the last 64-bit word that it fills. A UART's characters are those its FIFO holds. -/
def recvPiece (s : State) (n pos : Nat) (e : Exec) (recv : List Byte) : State :=
  match e.members[pos]? with
  | none => s
  | some l =>
    let x := s.lane l
    match x.txn with
    | none => s
    | some c =>
      if c.user != slotUser s n || c.pos != pos || c.discard || !laneServed s l || !laneReach s (slotServer s n / 16) l ||
        c.out.length < sendLen c then s
      else
        let (bs, x) := laneGives x c recv
        if bs.isEmpty || !wordFilled (partsOfSet e) (recvBase e pos + c.got) bs.length then s
        else
          let s := s.modLane l (fun _ => { x with memAt := s.edges, txn := some { c with seen := c.seen ++ bs } })
          match gotBytes portPw s n e pos bs with
          | ((some (f, a), _), s) => cmdFails portPw s n f a
          | ((none, _), s) => s

/-- The lane of set position `pos` is a UART whose READ is to take characters that its FIFO holds (R179). -/
def takesHeld (s : State) (e : Exec) (pos : Nat) : Bool :=
  match e.members[pos]? with
  | some l => personality (s.lane l) = 8 && !(s.lane l).rx.isEmpty && (match (s.lane l).txn with
    | some c => c.op = .read && decide (c.got < c.count)
    | none => false)
  | none => false

/-- One piece of the data of the command in slot `n` (R315): received data, data to send, then the next CCW of a data chain, which joins
when the COUNT before it is exhausted (R94). -/
def pathPieceOf (s : State) (n pos : Nat) (recv : List Byte) : State :=
  let r := s.region (slotServer s n / 4)
  match (s.slot n).exec with
  | none => s
  | some e =>
    let tail := e.parts.getLastD ⟨0, 0, 0, [], none⟩
    if r.power != .run || r.inReset || !dieUp s (slotServer s n / 16) || (pathChannel s (slotServer s n / 4)).isNone then s
    else if !recv.isEmpty || (e.op = .read && e.device = 0 && takesHeld s e pos) then (if e.device = 0 then recvPiece s n pos e recv else s)
    else if e.code = 0x11 then copyPiece s n e
    else if e.code = 0x0E || e.op = .control || e.op = .sense then s
    else if e.device != 0 && spanOf tail.flags.toNat then chainJoin s n e
    else if e.out.length < execSend e then sendPiece s n e
    else if spanOf tail.flags.toNat && (e.op != .read || (execGot e 0).length = partsCount e.parts) then chainJoin s n e
    else s

/-! ### The commands that run on no lane (R84–R89, R93, R101–R105, R114) -/

/-- NOP with CRC (R114): the accumulator it sets, or none. -/
def nopAcc (c : Ccw) : Option Acc :=
  let alg := BitVec.ofNat 2 (fld c.target 0 2)
  if fld c.target 2 13 != 0 then none
  else if bit c.target 15 then (if c.addr / 2 ^ accWidth alg = 0 then some (accSeed alg c.addr) else none)
  else if c.addr = 0 then some (accInit alg)
  else none

def nopAct (n : Nat) (s : State) (c : Ccw) (a : DWord) : State :=
  if crcOf c.flags then
    match nopAcc c with
    | none => ccwFails s n a badField
    | some k => ccwDone (s.modSlot n (fun x => { x with acc := k })) n c a
  else ccwDone s n c a

/-- JUMP (R93): the chain continues at ADDRESS. -/
def jumpAct (n : Nat) (s : State) (c : Ccw) (a : DWord) : State :=
  let s := ccwEnded portPw s n a false (some (w64 c.addr))
  s.modSlot n (fun x => if x.st = .active && x.ended.isNone && x.pc = w64 c.addr then { x with jumped := some a } else x)

/-- The value a test descriptor names for a program of die `d`, but for a word in memory (R101); a meter's VALUE is that present on the
program's die (R249). -/
def testValue (s : State) (d : Nat) (x : Slot) (src sel : Nat) : Word :=
  match src with
  | 2 => x.lastIn
  | 3 => w32 x.dev.toNat
  | 4 => w32 x.resid.toNat
  | 5 => accResult x.acc
  | 6 => iw32 (meterSeen s d sel (tickTo s))
  | 7 => w32 (b2n (s.level sel))
  | _ => x.laneRes

/-- The comparison of a test (R101). -/
def testTrue (op : Nat) (v o : Word) : Bool :=
  match op with
  | 0 => v = o
  | 1 => v != o
  | 2 => decide (v.toNat < o.toNat)
  | 3 => decide (o.toNat ≤ v.toNat)
  | 4 => decide (v.toInt < o.toInt)
  | 5 => decide (o.toInt ≤ v.toInt)
  | 6 => v != 0
  | _ => v = 0

/-- A fault of a test descriptor (R101). -/
def testFault (s : State) (b : List Byte) : Option Fail :=
  let src := u8 b 0
  let sel := u16 b 2
  if src = 0 || 8 < src || 7 < u8 b 1 || !allZero b 12 4 || !allZero b 24 8 || (sel != 0 && src != 6 && src != 7) ||
    (u64 b 16 != 0 && src != 1) || (src = 7 && 2047 < sel) then some badField
  else if (src = 6 && (127 < sel || (s.meter sel).unit = .retired)) || (src = 7 && !vertexExists sel) then some noSuchResource
  else if src = 1 && u64 b 16 % 4 != 0 then some dataAlign
  else none

/-- TEST (R101, R102). -/
def testAct (n : Nat) (s : State) (c : Ccw) (a : DWord) : State :=
  let p := partyOf s n
  if c.addr % 8 != 0 then ccwFails s n a tableAlign
  else match tableGet s p c.addr 32 with
    | (.bad f, s) => ccwFails s n a f
    | (.ok b, s) =>
      match testFault s b with
      | some f => ccwFails s n a f
      | none =>
        let (v, s) := if u8 b 0 = 1 then memGet s p (u64 b 16) 4
          else (.ok (leBytes 4 (testValue s (slotServer s n / 16) (s.slot n) (u8 b 0) (u16 b 2)).toNat), s)
        match v with
        | .bad f => ccwFails s n a f
        | .ok bs =>
          let t := testTrue (u8 b 1) (w32 (leNat bs) &&& w32 (u32 b 4)) (w32 (u32 b 8))
          ccwEnded portPw s n a (noteOf c.flags) (some (if t then a + 32 else a + 16))

/-- The program waits (R103, R105). -/
def waitFor (s : State) (n : Nat) (v : Option Nat) (ticks : Nat) (toContinue : Bool) : State :=
  let s := s.modSlot n (fun x => { x with
    st := .waiting
    wait := some { vertex := v, regTick := s.edges, deadline := if ticks = 0 then none else some (s.edges + ticks), toContinue := toContinue } })
  match (s.slot n).halt with
  | some r => haltEnd portPw s n r (s.slot n).ccw
  | none => s

/-- WAIT (R103, R104): a firing in the registration tick satisfies it. -/
def waitAct (n : Nat) (s : State) (c : Ccw) (a : DWord) : State :=
  let v := fld c.target 0 11
  if fld c.target 11 3 != 0 || 2 ^ 48 ≤ c.addr then ccwFails s n a badField
  else if !vertexExists v then ccwFails s n a noSuchResource
  else if (bit c.target 15 && s.level v) || s.edgesNow.contains (v, true) then ccwDone s n c a
  else waitFor s n (some v) c.addr (bit c.target 14)

/-- DELAY (R105). -/
def delayAct (n : Nat) (s : State) (c : Ccw) (a : DWord) : State :=
  if 2 ^ 48 ≤ c.addr then ccwFails s n a badField
  else if c.addr = 0 then ccwDone s n c a
  else waitFor s n none c.addr false

/-- SIGNAL fires soft vertex `v` of device `dev` with event data (R86, R438, R439). -/
def signalTo (s : State) (dev v : Nat) (data : Word) : State :=
  if localDevice s dev then fireSoft portPw s v data
  else if dev = 31 then sendSignal (fireSoft portPw s v data) allDevices v data
  else sendSignal s dev v data

/-- SIGNAL (R40, R86, R257, R438). -/
def signalAct (n : Nat) (s : State) (c : Ccw) (a : DWord) : State :=
  let dev := fld c.target 8 5
  if fld c.target 13 3 != 0 || 2 ^ 32 ≤ c.addr then ccwFails s n a badField
  else if !localDevice s dev && (!isRoot s || !hasCap s (s.slot n).fn 2) then ccwFails s n a remoteNotAllowed
  else if dev != 0 && dev != 31 && !localDevice s dev && !reachable s dev then ccwFails s n a noSuchResource
  else ccwDone (signalTo s dev (fld c.target 0 8) (w32 c.addr)) n c a

/-- POST (R87, R120). -/
def postAct (n : Nat) (s : State) (c : Ccw) (a : DWord) : State :=
  let x := s.slot n
  let (f, s) := if crcOf c.flags then memPut portPw s (partyOf s n) c.addr (leBytes 4 (accResult x.acc).toNat) .data false else (none, s)
  let s := if crcOf c.flags && f.isNone then dropOverlap s n c.addr 4 else s
  match f with
  | some f => ccwFails s n a f
  | none =>
    let (on, s) := interimPost portPw s n a
    if on then ccwEnded portPw s n a false (byNext c.flags a) else s

/-- MARK (R85, R418). -/
def markAct (n : Nat) (s : State) (c : Ccw) (a : DWord) : State :=
  ccwDone (bbxRecord s (partyOf s n).die 0x01 (markArg (s.slot n) 0) (leBytes 2 c.target ++ zeros 6 ++ leBytes 8 c.addr)) n c a

/-- A COPY that moves nothing: the result registers are set (R88, R100). -/
def copyFails (s : State) (n : Nat) (c : Ccw) (a : DWord) (f : Fail) : State :=
  checkEnd portPw (s.modSlot n (fun x => { x with dev := 0, resid := w16 c.count, laneRes := 0 })) n f a

/-- COPY begins (R88): the descriptor, then every check on both ranges before any data moves. -/
def copyAct (n : Nat) (s : State) (c : Ccw) (a : DWord) : State :=
  let p := partyOf s n
  if c.addr % 16 != 0 then copyFails s n c a tableAlign
  else match tableGet s p c.addr 16 with
    | (.bad f, s) => copyFails s n c a f
    | (.ok b, s) =>
      let src := u64 b 0
      let dst := u64 b 8
      if src % 8 != 0 || dst % 8 != 0 || c.count = 0 || c.count % 8 != 0 then copyFails s n c a dataAlign
      else if src < dst + c.count && dst < src + c.count then copyFails s n c a badAddress
      else match accessFail s p src c.count rightRead with
        | (some f, s) => copyFails s n c a f
        | (none, s) => match accessFail s p dst c.count rightWrite with
          | (some f, s) => copyFails s n c a f
          | (none, s) => s.modSlot n (fun x => { x with exec := some {
              code := 0x11, op := .write, parts := [⟨a, w8 c.flags, c.count, [], none⟩], copySrc := w64 src, copyDst := w64 dst } })

/-- HALT (R89). -/
def haltAct (n : Nat) (s : State) (c : Ccw) (a : DWord) : State :=
  haltEnd portPw (s.modSlot n (fun x => { x with dev := w16 c.target })) n haltCommand a

/-! ### METER (R84, R246–R249) -/

/-- The program may LOAD or CLEAR the meter (R247). -/
def meterRights (s : State) (f m : Nat) : Bool := f = 0 || (s.meter m).owner = f

/-- The meter's die can be reached from the program's (R342). -/
def meterReach (s : State) (d m : Nat) : Bool := m / 64 = d || (arcUp s && dieUp s (m / 64))

/-- The program waits for the meter's slot (R248). -/
def meterAwait (s : State) (n m : Nat) (c : Ccw) (a : DWord) : State :=
  (s.modSlot n (fun x => { x with exec := some { code := 0x0E, op := .write, target := w16 m, parts := [⟨a, w8 c.flags, c.count, [], none⟩] } })).modMeter m
    (fun x => { x with waiters := x.waiters ++ [.slot n] })

/-- METER (R84). -/
def meterAct (n : Nat) (s : State) (c : Ccw) (a : DWord) : State :=
  let m := fld c.target 0 7
  let op := fld c.target 12 4
  let p := partyOf s n
  if fld c.target 7 5 != 0 || 2 < op then ccwFails s n a badField
  else if c.count != (if op = 2 then 0 else 32) then ccwFails s n a badCount
  else if op = 2 && c.addr != 0 then ccwFails s n a badField
  else if (s.meter m).unit = .retired then ccwFails s n a noSuchResource
  else if op != 0 && !meterRights s p.fn m then ccwFails s n a blockRights
  else if !meterReach s p.die m then ccwFails s n a hostError
  else if op = 0 then
    match memPut portPw s p c.addr (snapRead s m) .data false with
    | (some f, s) => ccwFails s n a f
    | (none, s) => ccwDone (dropOverlap s n c.addr 32) n c a
  else if op = 2 then meterAwait (meterClearRequest s m) n m c a
  else match memGet s p c.addr 32 with
    | (.bad f, s) => ccwFails s n a f
    | (.ok b, s) =>
      if !settingsOk (m / 64) b then ccwFails s n a badField
      else if (s.die (m / 64)).meterRun then meterAwait (meterCommit s m b) n m c a
      else ccwDone (meterCommit s m b) n c a

/-! ### Fetching (R75, R99, R126, R127, R133, R144) -/

/-- The bytes of consecutive CCWs from address `a`. -/
def ccwsFrom : Nat → DWord → List Byte → List Fetched
  | 0, _, _ => []
  | k + 1, a, bs => if bs.length < 16 then [] else { addr := a, bytes := bs.take 16, fail := none } :: ccwsFrom k (a + 16) (bs.drop 16)

/-- The bytes one fetch from host memory reads (R127): to the next 64-byte boundary, or to the fourth CCW ahead. -/
def fetchLen (x : Slot) (a : Nat) : Nat := min (64 - a % 64) (16 * (4 - x.buf.length))

/-- The sequencer issues the next prefetch read of slot `n` (R126, R127): a host read, or one CCW from on-chip memory. -/
def fetchCcw (s : State) (n : Nat) : State :=
  let x := s.slot n
  let c := slotServer s n
  let r := s.region (c / 4)
  if (x.st != .active && x.st != .waiting) || x.ended.isSome || r.power != .run || r.inReset || !dieUp s (c / 16) ||
    s.reads.any (fun q => q.slot = n && readMatches s q && !q.void) then s
  else match prefetchAt x with
    | none => s
    | some a =>
      let p := partyOf s n
      let fails (s : State) (f : Fail) : State := pushFetched s n [{ addr := a, bytes := [], fail := some f }]
      if a.toNat % 16 != 0 then fails s tableAlign
      else
        let len := if onChip a.toNat then 16 else fetchLen x a.toNat
        match accessFail s p a.toNat len rightFetch with
        | (some f, s) => fails s f
        | (none, s) =>
          if onChip a.toNat then
            match rawRead s p a.toNat 16 with
            | (.ok bs, s) => pushFetched s n [{ addr := a, bytes := bs, fail := none }]
            | (.bad f, s) => fails s (if f = tileRetired then f else fetchFailed)
          else if !hostOpen s p then fails s portLost
          else if fnPort x.fn != c / 16 && !npFree s (c / 16) then s
          else { s with
            reads := s.reads ++ [{ id := s.nextRead, kind := .fetch, slot := n, fn := x.fn, tag := x.tag, gen := x.gen, addr := a, len := len }]
            nextRead := s.nextRead + 1 }

/-- The outstanding read a completion names. -/
def readOf (s : State) (id : Nat) (a : DWord) (len : Nat) : Option HostRead :=
  s.reads.find? (fun r => r.id = id && r.addr = a && r.len = len)

/-- The read has ended. -/
def readGone (s : State) (r : HostRead) : State := { s with reads := s.reads.filter (fun q => q.id != r.id) }

/-- A read fails (R99, R144): an outstanding fetch ends the program if the CCW would execute; any other range fails the next
read made of it. One of a program that has ended is counted stale (R143). -/
def readFailed (s : State) (id : Nat) (a : DWord) (len : Nat) : State :=
  match readOf s id a len with
  | some r =>
    let s := readGone s r
    if readMatches s r then (if r.void then s else pushFetched s r.slot [{ addr := a, bytes := [], fail := some fetchFailed }])
    else countStale s (slotServer s r.slot)
  | none => { s with hostFail := s.hostFail ++ [(a.toNat, len)] }

/-- A read succeeds (R144): what host memory holds there is known, and an outstanding fetch fills the buffer. -/
def readDone (s : State) (id : Nat) (a : DWord) (data : List Byte) : State :=
  let s := { s with
    hostMem := memWrite s.hostMem a.toNat data
    hostFail := s.hostFail.filter (fun r => !(r.1 < a.toNat + data.length && a.toNat < r.1 + r.2)) }
  match readOf s id a data.length with
  | some r =>
    let s := readGone s r
    if readMatches s r then (if r.void then s else pushFetched s r.slot (ccwsFrom 4 a data)) else countStale s (slotServer s r.slot)
  | none => s

end Sys2Proof.Machine
end

