-- ==== Sys2Proof/Machine/CcwCmds.lean ====
section
/-! DEFINITION. The meanings of the program and lane-command rows of the table: every channel command word, fetches and host
reads, admission, and the ends and timeouts of lane commands (R78–R155). -/

namespace Sys2Proof.Machine

/-- The CCW is command `code`. -/
def isCmd (code : Nat) (c : Ccw) : Bool := c.cmd = code
/-- The CCW is CONTROL with control code `code`, or with one that no row has. -/
def isControl (code : Nat) (c : Ccw) : Bool := c.cmd = 0x04 && (c.target = code || (controlBytes c.target).isNone)
/-- The CCW is METER with operation `op`, or with one that no row has. -/
def isMeter (op : Nat) (c : Ccw) : Bool := c.cmd = 0x0E && (fld c.target 12 4 = op || 2 < fld c.target 12 4)

/-- A lane command (R78). -/
def dispatchLane (s : State) (n : Nat) (mine : Ccw → Bool) : State := dispatch s n mine (laneCommand n)

def execNop (n : Nat) (s : State) : Host.Outcome State Fault Refusal :=
  run (.nop n) s (fun s => dispatch s n (isCmd 0x00) (nopAct n))
def execWrite (n : Nat) (s : State) : Host.Outcome State Fault Refusal :=
  run (.write n) s (fun s => dispatchLane s n (isCmd 0x01))
def execRead (n : Nat) (s : State) : Host.Outcome State Fault Refusal :=
  run (.read n) s (fun s => dispatchLane s n (isCmd 0x02))
def execXact (n : Nat) (s : State) : Host.Outcome State Fault Refusal :=
  run (.xact n) s (fun s => dispatchLane s n (isCmd 0x03))
def execLaneReset (n : Nat) (s : State) : Host.Outcome State Fault Refusal :=
  run (.laneReset n) s (fun s => dispatchLane s n (isControl 0x0000))
def execBusRecover (n : Nat) (s : State) : Host.Outcome State Fault Refusal :=
  run (.busRecover n) s (fun s => dispatchLane s n (isControl 0x0001))
def execRelease (n : Nat) (s : State) : Host.Outcome State Fault Refusal :=
  run (.release n) s (fun s => dispatchLane s n (isControl 0x0002))
def execRxFlush (n : Nat) (s : State) : Host.Outcome State Fault Refusal :=
  run (.rxFlush n) s (fun s => dispatchLane s n (isControl 0x0100))
def execUartBreak (n : Nat) (s : State) : Host.Outcome State Fault Refusal :=
  run (.uartBreak n) s (fun s => dispatchLane s n (isControl 0x0110))
def execTachRestart (n : Nat) (s : State) : Host.Outcome State Fault Refusal :=
  run (.tachRestart n) s (fun s => dispatchLane s n (isControl 0x0120))
def execPwmForce (n : Nat) (s : State) : Host.Outcome State Fault Refusal :=
  run (.pwmForce n) s (fun s => dispatchLane s n (isControl 0x0130))
def execSense (n : Nat) (s : State) : Host.Outcome State Fault Refusal :=
  run (.sense n) s (fun s => dispatchLane s n (isCmd 0x05))
def execGangWrite (n : Nat) (s : State) : Host.Outcome State Fault Refusal :=
  run (.gangWrite n) s (fun s => dispatchLane s n (isCmd 0x06))
def execJump (n : Nat) (s : State) : Host.Outcome State Fault Refusal :=
  run (.jump n) s (fun s => dispatch s n (isCmd 0x08) (jumpAct n))
def execTest (n : Nat) (s : State) : Host.Outcome State Fault Refusal :=
  run (.test n) s (fun s => dispatch s n (isCmd 0x09) (testAct n))
def execWait (n : Nat) (s : State) : Host.Outcome State Fault Refusal :=
  run (.wait n) s (fun s => dispatch s n (isCmd 0x0A) (waitAct n))
def execDelay (n : Nat) (s : State) : Host.Outcome State Fault Refusal :=
  run (.delay n) s (fun s => dispatch s n (isCmd 0x0B) (delayAct n))
def execSignal (n : Nat) (s : State) : Host.Outcome State Fault Refusal :=
  run (.signal n) s (fun s => dispatch s n (isCmd 0x0C) (signalAct n))
def execPost (n : Nat) (s : State) : Host.Outcome State Fault Refusal :=
  run (.post n) s (fun s => dispatch s n (isCmd 0x0D) (postAct n))
def execMeterCcwRead (n : Nat) (s : State) : Host.Outcome State Fault Refusal :=
  run (.meterCcwRead n) s (fun s => dispatch s n (isMeter 0) (meterAct n))
def execMeterCcwLoad (n : Nat) (s : State) : Host.Outcome State Fault Refusal :=
  run (.meterCcwLoad n) s (fun s => dispatch s n (isMeter 1) (meterAct n))
def execMeterCcwClear (n : Nat) (s : State) : Host.Outcome State Fault Refusal :=
  run (.meterCcwClear n) s (fun s => dispatch s n (isMeter 2) (meterAct n))
def execMark (n : Nat) (s : State) : Host.Outcome State Fault Refusal :=
  run (.mark n) s (fun s => dispatch s n (isCmd 0x0F) (markAct n))
def execCopy (n : Nat) (s : State) : Host.Outcome State Fault Refusal :=
  run (.copy n) s (fun s => dispatch s n (isCmd 0x11) (copyAct n))
def execHalt (n : Nat) (s : State) : Host.Outcome State Fault Refusal :=
  run (.halt n) s (fun s => dispatch s n (isCmd 0xFF) (haltAct n))
def execCcwFetch (n : Nat) (s : State) : Host.Outcome State Fault Refusal := run (.ccwFetch n) s (fun s => fetchCcw s n)

def execHostReadCompletion (id : Nat) (addr : DWord) (data : List Byte) (st : CplStatus) (s : State) :
    Host.Outcome State Fault Refusal :=
  run (.hostReadCompletion id addr data st) s (fun s =>
    match st with
    | .success => readDone s id addr data
    | .completerAbort | .unsupported | .poisoned => readFailed s id addr data.length)

def execCompletionTimeout (id : Nat) (addr : DWord) (len : Nat) (s : State) : Host.Outcome State Fault Refusal :=
  run (.completionTimeout id addr len) s (fun s => readFailed s id addr len)

/-! ### Admission (R22, R124, R406) -/

/-- The sequencer of cluster `c` runs. -/
def clusterRuns (s : State) (c : Nat) : Bool :=
  (s.region (c / 4)).power = .run && !(s.region (c / 4)).inReset && dieUp s (c / 16)

/-- Programs hold back from the last CHORD_RESERVE free slots (R124). -/
def reserveOf (s : State) (c : Nat) : Nat := wf (s.cluster c).sched 0 6

/-- The next program of cluster `c`'s own lists takes a slot: a follow-on chain first (R124). -/
def admitOwn (s : State) (c : Nat) : State :=
  match (s.cluster c).chords with
  | e :: es =>
    match freeSlot s c with
    | some n => takeChain portPw (s.modCluster c (fun x => { x with chords := es })) n e
    | none => s
  | [] =>
    match (s.cluster c).admits, freeSlot s c with
    | g :: gs, some n =>
      if reserveOf s c < freeSlots s c then takeSlot portPw (s.modCluster c (fun x => { x with admits := gs })) n g false else s
    | _, _ => s

/-- The next program of the list that cluster `c` adopted takes an adopted slot (R406). -/
def admitAdopted (s : State) (c : Nat) : State :=
  match (s.cluster c).adopts with
  | none => s
  | some l =>
    match (s.cluster c).lostAdmit, freeSlot s l with
    | g :: gs, some n =>
      if reserveOf s c < freeSlots s l then takeSlot portPw (s.modCluster c (fun x => { x with lostAdmit := gs })) n g true else s
    | _, _ => s

def execProgramAdmit (c : Nat) (adopted : Bool) (s : State) : Host.Outcome State Fault Refusal :=
  run (.programAdmit c adopted) s (fun s => if !clusterRuns s c then s else if adopted then admitAdopted s c else admitOwn s c)

/-! ### Lane commands that end (R109, R132–R134, R140, R188–R191) -/

def execLaneTransactionEnd (n : Nat) (res : BusResult) (s : State) : Host.Outcome State Fault Refusal :=
  run (.laneTransactionEnd n res) s (fun s => laneDone portPw (laneEnds s n res) n)

/-- The oldest command in flight to cluster `c` is taken in (R43, R163); one from the other die needs NP credit and completion space
(R338). -/
def takeForwarded (s : State) (c : Nat) : State :=
  match (s.cluster c).inbound with
  | [] => s
  | e :: es =>
    let d := slotServer s e.cmd.user.slot / 16
    if npCmd s d e.lane e.cmd && !npFree s d then s
    else if laneServed s e.lane then laneDone portPw (laneArrive (s.modCluster c (fun x => { x with inbound := es })) e.lane e.cmd) e.lane else s

def execForwardedCommand (c : Nat) (s : State) : Host.Outcome State Fault Refusal :=
  run (.forwardedCommand c) s (fun s => takeForwarded s c)

/-- The oldest result in flight to slot `n` arrives: it is counted stale when the slot holds another program (R140, R143). -/
def takeResult (s : State) (n : Nat) : State :=
  match s.results.find? (fun r => r.slot = n) with
  | none => s
  | some r =>
    if !dieUp s (slotServer s n / 16) then s
    else
      let s := { s with results := s.results.erase r }
      if slotMatches s { device := 0, slot := n, fn := r.fn, tag := r.tag, gen := r.gen } then memberEnds portPw s n r.res
      else countStale s (slotServer s n)

def execForwardedResult (n : Nat) (s : State) : Host.Outcome State Fault Refusal :=
  run (.forwardedResult n) s (fun s => takeResult s n)

def execPathPiece (n pos : Nat) (recv : List Byte) (s : State) : Host.Outcome State Fault Refusal :=
  run (.pathPiece n pos recv) s (fun s => pathPieceOf s n pos recv)

/-- A WAIT times out, after the last tick in which a firing would satisfy it (R103, R104): with TO_CONTINUE the chain continues at
WAIT + 32 whatever NEXT is, as in the sequencer model of Running, Suspending and Ending Programs (DEDUCED, log 69). -/
def waitExpires (s : State) (n : Nat) : State :=
  let x := s.slot n
  match x.wait with
  | some w =>
    match w.vertex, w.deadline with
    | some _, some t =>
      if x.st != .waiting || s.edges ≤ t || !dieUp s (slotServer s n / 16) then s
      else if w.toContinue then ccwEnded portPw s n x.ccw (noteOf x.flags.toNat) (some (x.ccw + 32))
      else checkEnd portPw s n waitTimeoutFail x.ccw
    | _, _ => s
  | none => s

def execWaitTimeout (n : Nat) (s : State) : Host.Outcome State Fault Refusal := run (.waitTimeout n) s (fun s => waitExpires s n)

/-- A DELAY has elapsed (R105). -/
def delayEnds (s : State) (n : Nat) : State :=
  let x := s.slot n
  match x.wait with
  | some w =>
    match w.vertex, w.deadline with
    | none, some t =>
      if x.st != .waiting || s.edges < t || !dieUp s (slotServer s n / 16) then s
      else ccwEnded portPw s n x.ccw (noteOf x.flags.toNat) (byNext x.flags.toNat x.ccw)
    | _, _ => s
  | none => s

def execDelayElapsed (n : Nat) (s : State) : Host.Outcome State Fault Refusal := run (.delayElapsed n) s (fun s => delayEnds s n)

/-- A command ends at lane `n` and the commands that wait there follow; `tail` is how the lane leaves its bus. -/
def endThenNext (s : State) (n : Nat) (f : Option Fail) (dev : Half) (errs sent : Nat) (recv : List Byte) (tail : List Wire) : State :=
  laneNext (laneDone portPw (laneAborts s n f dev errs sent recv tail) n) n

/-- DEVICE STATUS of a lane timeout, at the index reached (R117, R188). -/
def timeoutDev (l : Lane) (c : LaneCmd) (sent : Nat) (recv : List Byte) : Half :=
  devStatus 8 (BitVec.ofNat 12 (cutSent l c sent + c.got + (endBytes l c recv).1.length))

/-- A wait of the lane runs out, whatever the sleep state (R187, R188, R190). -/
def laneTimesOut (s : State) (n : Nat) (w : LaneWait) : State :=
  let l := s.lane n
  match l.txn with
  | none => s
  | some c =>
    if !waitOver s.edges l c w.lostAt || !dieUp s (laneDieNow s n) then s
    else if readEnds l c w.recv then endThenNext s n none 0 0 0 w.recv []
    else
      let errs := 0x20 + (if hasRecovery (personality l) then (if w.recovered then 0x100 else 0x04) else 0)
      endThenNext s n (some laneTimeoutFail) (timeoutDev l c w.sent w.recv) errs w.sent w.recv (recoveryWire l w.pulses w.recovered)

def execLaneTimeout (n : Nat) (w : LaneWait) (s : State) : Host.Outcome State Fault Refusal :=
  run (.laneTimeout n w) s (fun s => laneTimesOut s n w)

/-- The lane pauses for the memory side (R189): bytes to send have not arrived, its data chain is open, bytes received fill its FIFO, or its
engine has stopped it. -/
def laneStalled (l : Lane) (c : LaneCmd) (recv : List Byte) : Bool :=
  l.paused || c.open_ || decide (c.out.length < sendLen c) || (recvLen c != 0 && decide (fifoBytes l.fifo ≤ recv.length))

/-- A pause of 10 ms on SMBus and PMBus ends the command (R189). -/
def laneStallsOut (s : State) (n sent : Nat) (recv : List Byte) : State :=
  let l := s.lane n
  match l.txn with
  | some c =>
    if !(personality l = 3 || personality l = 4) || !laneStalled l c recv || s.edges < l.memAt + 1000000 then s
    else endThenNext s n (some laneTimeoutFail) (timeoutDev l c sent recv) 0x20 sent recv (closingWire l)
  | none => s

def execLaneStallTimeout (n : Nat) (sent : Nat) (recv : List Byte) (s : State) : Host.Outcome State Fault Refusal :=
  run (.laneStallTimeout n sent recv) s (fun s => laneStallsOut s n sent recv)

/-- The hold timeout expires, whatever the sleep state (R81, R187, R191). -/
def holdExpires (s : State) (n : Nat) : State :=
  let l := s.lane n
  match l.held with
  | some h => if l.txn.isSome || s.edges < h.since + holdLimit l || !dieUp s (laneDieNow s n) then s else holdLost' s n holdLost.2
  | none => s

def execHoldTimeout (n : Nat) (s : State) : Host.Outcome State Fault Refusal := run (.holdTimeout n) s (fun s => holdExpires s n)

/-- The personalities whose commands a halt request stops at the end of a byte or action (R134). -/
def byteStream (p : Nat) : Bool := p = 6 || p = 7 || p = 8 || isInner p

/-- A transaction is cut (R134): 35 ms after a function, port or warm reset began, with LANE_ERR.TIMEOUT, but for a chain that runs on
through it (R148); on a byte-stream
personality, at the end of a byte once a halt request has reached its program. -/
def laneCut (s : State) (n sent : Nat) (recv : List Byte) : State :=
  let l := s.lane n
  match l.txn with
  | none => s
  | some c =>
    let f := s.func c.user.fn
    let persist := slotMatches s c.user && persistOwner s (s.slot c.user.slot).owner
    let late := (!isRemoteCmd c && !persist && f.inReset && f.resetAt + 3500000 ≤ s.edges) ||
      (match s.pkg.warmAt with | some t => decide (t + 3500000 ≤ s.edges) | none => false)
    let halted := !isRemoteCmd c && slotMatches s c.user && (s.slot c.user.slot).halt.isSome
    let s' := s.modLane n (fun l => { l with txn := some { c with cut := true } })
    if byteStream (personality l) && halted then endThenNext s' n none 0 0 sent recv (closingWire l)
    else if late then endThenNext s' n none 0 0x20 sent recv (closingWire l)
    else s

def execTransactionCut (n sent : Nat) (recv : List Byte) (s : State) : Host.Outcome State Fault Refusal :=
  run (.transactionCut n sent recv) s (fun s => laneCut s n sent recv)

end Sys2Proof.Machine
end

