-- ==== Sys2Proof/Machine/RegCmds.lean ====
section
/-! DEFINITION. The meanings of the register rows of the table: writes with and without behaviour of their own, reads with
an effect, idle points, unit and region resets, timers, calibration, transfer channels and bus arbitration (R19, R59, R65–R72,
R172, R201, R227–R251, R302–R335, R414, R419, R466, R468). -/

namespace Sys2Proof.Machine

/-! ### Writes and reads (R59, R65–R72, R251) -/

def execRegisterWrite (who : Who) (bar2 : Bool) (offset : Nat) (value : Word) (high : Option Word) (full : Bool) (s : State) :
    Host.Outcome State Fault Refusal :=
  run (.registerWrite who bar2 offset value high full) s (fun s => accessWrites s who bar2 offset value high full)

/-- The idle point of lane `n` (R70): its waiting registers come into force, and a stream it no longer suits ends. -/
def laneIdlePoint (s : State) (n : Nat) : State := laneStreams (idleTaken s n) n

/-- A block that is at its idle point copies its shadow registers into force (R69, R70). -/
def idleApply (s : State) (b : IdleBlock) : State :=
  match b with
  | .lane n => laneIdlePoint s n
  | .cluster c => schedApplied s c
  | .adminQueue f => adminStopped s f
  | .channel n => s.modXfr n xfrIdleApply
  | .route n => routeApply s n
  | .linkPort p => s.modPort p presetApplied

def execIdlePointApply (b : IdleBlock) (s : State) : Host.Outcome State Fault Refusal :=
  run (.idlePointApply b) s (fun s => idleApply s b)

def execLowDwordRead (who : Who) (bar2 : Bool) (offset : Nat) (s : State) : Host.Outcome State Fault Refusal :=
  run (.lowDwordRead who bar2 offset) s (fun s => accessRead s who bar2 offset)

/-- The port-space offset of register `o` of meter `m` (R56). -/
def meterOff (m o : Nat) : Nat := 0x30000 + 256 * (m % 64) + o

def execSnapshotLatchRead (meter : Nat) (s : State) : Host.Outcome State Fault Refusal :=
  run (.snapshotLatchRead meter) s (fun s => if dieUp s (meter / 64) then portReadEffect s (meter / 64) (meterOff meter 0x20) else s)

/-- A write through the accessor's own path to die `d`: one that cannot be made changes nothing. -/
def reachWrite (s : State) (who : Who) (d : Nat) (f : State → State) : State := if portReach s who d then f s else s

/-- Bytes written to a window entry through die `d`'s range (R57, R65). -/
def windowWrite (s : State) (who : Who) (d entry first : Nat) (bs : List Byte) : State :=
  if s.pkg.split && s.pkg.custody != d then violate s d vSplitWrite who (0x1000 + 16 * entry + first) (leNat (bs.take 4)) 0
  else winWrite s who d entry first bs

def execWindowEntryWrite (who : Who) (d entry first : Nat) (bytes : List Byte) (s : State) : Host.Outcome State Fault Refusal :=
  run (.windowEntryWrite who d entry first bytes) s (fun s =>
    if portReach s who d then windowWrite s who d entry first bytes
    else splitIgnored s who d (0x1000 + 16 * entry + first) (w32 (leNat (bytes.take 4))))

def execWindowInvalidate (who : Who) (d : Nat) (value : Word) (s : State) : Host.Outcome State Fault Refusal :=
  run (.windowInvalidate who d value) s (fun s =>
    if portReach s who d then pkgWrite s who d 0x44 value else splitIgnored s who d 0x44 value)

/-- A region that runs drops what PKG_WIN_INVAL named (R67). -/
def windowDrop (s : State) (r : Nat) : State :=
  if !(s.region r).dropPending || (r / 4 != s.pkg.custody && !arcUp s) then s
  else invalSettled (s.modRegion r (cacheDropped s.pkg.inval))

def execWindowCacheDrop (region : Nat) (s : State) : Host.Outcome State Fault Refusal :=
  run (.windowCacheDrop region) s (fun s => windowDrop s region)

def execLaneCfgWrite (who : Who) (lane : Nat) (value : Word) (s : State) : Host.Outcome State Fault Refusal :=
  run (.laneCfgWrite who lane value) s
    (fun s => reachWrite s who (laneDie lane) (fun s => (laneRegWrite s who lane 0 (laneOff lane 0) value).2))

def execSnsWinWrite (who : Who) (input w : Nat) (value : Word) (s : State) : Host.Outcome State Fault Refusal :=
  run (.snsWinWrite who input w value) s
    (fun s => reachWrite s who (input / 32) (fun s => snsWinSet s who input w (0x34008 + 256 * (input % 32) + 4 * w) value))

def execMtrSetWrite (who : Who) (meter w : Nat) (value : Word) (s : State) : Host.Outcome State Fault Refusal :=
  run (.mtrSetWrite who meter w value) s
    (fun s => reachWrite s who (meter / 64) (fun s => meterSetWrite s who meter w (meterOff meter (4 * w)) value))

def execMtrClear (meter : Nat) (s : State) : Host.Outcome State Fault Refusal :=
  run (.mtrClear meter) s (fun s => if dieUp s (meter / 64) then meterClearRequest s meter else s)

/-- The port-space offset of register `o` of chord `c` (R56). -/
def chordOff (c o : Nat) : Nat := 0x100000 + 0x100000 * (c / 512 % 4) + 0x40000 * (c / 128 % 4) + 0x20000 + 256 * (c % 128) + o

def execChdRearm (who : Who) (chord : Nat) (s : State) : Host.Outcome State Fault Refusal :=
  run (.chdRearm who chord) s (fun s => reachWrite s who (chordDie chord) (fun s => chordRearm s who chord (chordOff chord 4) 1))
def execChdClear (chord : Nat) (s : State) : Host.Outcome State Fault Refusal :=
  run (.chdClear chord) s (fun s => if dieUp s (chordDie chord) then chordCleared s chord else s)

/-! ### Unit and region resets (R18, R19, R29, R53, R466, R468) -/

/-- A write to DIE_UNIT_RESET that can be made. -/
def unitWrite (s : State) (who : Who) (d utype unit sent : Nat) (recv : List Byte) : State :=
  reachWrite s who d (fun s => unitResetWrite portPw s who d (unitWord utype unit) sent recv)

def execUnitResetLane (who : Who) (d unit sent : Nat) (recv : List Byte) (s : State) : Host.Outcome State Fault Refusal :=
  run (.unitResetLane who d unit sent recv) s (fun s => unitWrite s who d 1 unit sent recv)
def execUnitResetEngine (who : Who) (d unit : Nat) (s : State) : Host.Outcome State Fault Refusal :=
  run (.unitResetEngine who d unit) s (fun s => unitWrite s who d 2 unit 0 [])
def execUnitResetSlot (who : Who) (d unit : Nat) (s : State) : Host.Outcome State Fault Refusal :=
  run (.unitResetSlot who d unit) s (fun s => unitWrite s who d 3 unit 0 [])
def execUnitResetChannel (who : Who) (d unit : Nat) (s : State) : Host.Outcome State Fault Refusal :=
  run (.unitResetChannel who d unit) s (fun s => unitWrite s who d 4 unit 0 [])
def execUnitResetMeter (who : Who) (d unit : Nat) (s : State) : Host.Outcome State Fault Refusal :=
  run (.unitResetMeter who d unit) s (fun s => unitWrite s who d 5 unit 0 [])
def execUnitResetChord (who : Who) (d unit : Nat) (s : State) : Host.Outcome State Fault Refusal :=
  run (.unitResetChord who d unit) s (fun s => unitWrite s who d 6 unit 0 [])

/-- The state a unit's self-test leaves it in (R18). -/
def unitTested (pass : Bool) : UnitState := if pass then .inService else .retired

/-- The engine's reset ends (R19, R28): its lanes resume, or it is failed. -/
def engineTested (s : State) (c : Nat) (pass : Bool) : State :=
  let s := s.modCluster c (fun x => { x with engineUnit := .inService })
  if !pass then engineFails portPw s c
  else if (s.cluster c).engine = .own then lanesNext (pauseLanes s c false) c else s

/-- The spare engine's reset ends. -/
def spareTested (s : State) (r : Nat) (pass : Bool) : State :=
  let s := s.modRegion r (fun x => { x with spareUnit := .inService })
  match pass, (s.region r).spareFor with
  | true, some c => if (s.cluster c).engine = .spare r then lanesNext (pauseLanes s c false) c else s
  | true, none => s
  | false, some c =>
    if (s.cluster c).engine = .spare r then engineFails portPw s c else spareFails (s.modRegion r (fun x => { x with spareFor := none })) r
  | false, none => spareFails s r

/-- A failed unit is reported to the functions that use it (R20). -/
def testReport (s : State) (d utype unit : Nat) (fs : List Nat) (pass : Bool) : State := if pass then s else unitError s d utype unit fs

/-- A unit's reset is done (R18, R19): back in service, or RETIRED where its self-test fails. A lane unit waits for a running
lead segment, a slot for its program, a meter for its slot. -/
def unitTestedAt (s : State) (utype unit : Nat) (pass : Bool) : State :=
  match utype with
  | 1 =>
    let l := s.lane unit
    if 384 ≤ unit || l.unit != .resetting || l.lead.isSome then s
    else
      let s := s.modLane unit (fun l => { l with unit := .inService })
      if pass then laneNext s unit else laneFault portPw s unit 0 0 []
  | 2 =>
    if unit < 32 then (if (s.cluster unit).engineUnit = .resetting then engineTested s unit pass else s)
    else if unit < 40 && (s.region (unit - 32)).spareUnit = .resetting then spareTested s (unit - 32) pass
    else s
  | 3 =>
    if 2048 ≤ unit || (s.slot unit).unit != .resetting || (s.slot unit).st != .free then s
    else testReport (s.modSlot unit (fun x => { x with unit := unitTested pass })) (slotDie unit) 3 unit [] pass
  | 4 =>
    if 128 ≤ unit || (s.xfr unit).unit != .resetting then s
    else testReport (s.modXfr unit (fun x => { x with unit := unitTested pass })) (unit / 64) 4 unit
      (if xfrOwner (s.xfr unit).cfg < 8 then [xfrOwner (s.xfr unit).cfg] else []) pass
  | 6 =>
    if 4096 ≤ unit || (s.chord unit).unit != .resetting then s
    else testReport (s.modChord unit (fun x => { x with unit := unitTested pass })) (chordDie unit) 6 unit [] pass
  | 5 =>
    if 128 ≤ unit || (s.meter unit).unit != .resetting || (s.meter unit).resetPending then s
    else testReport (s.modMeter unit (fun x => { x with unit := unitTested pass })) (unit / 64) 5 unit
      (if (s.meter unit).owner < 8 then [(s.meter unit).owner] else []) pass
  | _ => s

def execUnitResetDone (utype unit : Nat) (pass : Bool) (s : State) : Host.Outcome State Fault Refusal :=
  run (.unitResetDone utype unit pass) s (fun s => unitTestedAt s utype unit pass)

def execRegionReset (who : Who) (d q : Nat) (s : State) : Host.Outcome State Fault Refusal :=
  run (.regionReset who d q) s (fun s => reachWrite s who d (fun s => regionResetWrite portPw s who d (q % 4) (w32 (q % 4 + 4))))

def execRegionResetDone (region : Nat) (s : State) : Host.Outcome State Fault Refusal :=
  run (.regionResetDone region) s (fun s => s.modRegion region (fun x => { x with inReset := false }))

/-- PKG_LOST_CTRL.RESET_LOST through the accessor's range of the PKG block (R57, R414). -/
def lostReset (s : State) (who : Who) : State :=
  let d := match who with | .steward d => d | _ => s.pkg.custody
  reachWrite s who d (fun s => portWrite s who d 0x104 (w32 (2 + b2n s.pkg.holdLost)))

def execResetLost (who : Who) (s : State) : Host.Outcome State Fault Refusal :=
  run (.resetLost who) s (fun s => lostReset s who)

/-! ### Timers and calibration (R201, R203, R232) -/

/-- The port-space offset of VTX_TMR_CTRL of timer `t` (R56, R202). -/
def timerOff (t : Nat) : Nat := 0x10200 + 16 * (t % 16)

def execTimerRun (who : Who) (timer : Nat) (periodic : Bool) (s : State) : Host.Outcome State Fault Refusal :=
  run (.timerRun who timer periodic) s
    (fun s => reachWrite s who (timer / 16) (fun s => timerCtrl s who timer (timerOff timer) (w32 (1 + 2 * b2n periodic))))
def execTimerStop (timer : Nat) (periodic : Bool) (s : State) : Host.Outcome State Fault Refusal :=
  run (.timerStop timer periodic) s
    (fun s => if dieUp s (timer / 16) then timerCtrl s (.fn 0) timer (timerOff timer) (w32 (2 * b2n periodic)) else s)

/-- A timer whose count has reached 0 fires its vertex (R201): a periodic one reloads, a one-shot one stops. -/
def timerExpires (s : State) (t : Nat) : State :=
  let x := s.timer t
  if !x.run || x.left != 0 then s
  else fireOnce portPw (s.modTimer t (fun x => if x.periodic then { x with left := x.loaded } else { x with run := false })) (1440 + t)

def execVertexTimerExpiry (timer : Nat) (s : State) : Host.Outcome State Fault Refusal :=
  run (.vertexTimerExpiry timer) s (fun s => timerExpires s timer)

def execCalibrationStart (d : Nat) (s : State) : Host.Outcome State Fault Refusal :=
  run (.calibrationStart d) s (fun s => if dieUp s d then calStart s d else s)

/-- Calibration ends (R232): SNS_ADC_CAL records the codes measured by the die's four converters. -/
def calDone (s : State) (d : Nat) (codes : List (Code × Code)) : State :=
  if !(s.die d).calBusy || s.edges < (s.die d).calEnd || codes.length != 4 then s
  else s.modDie d (fun x => { x with
    calBusy := false
    adcRef := (enumL 0 codes).foldl (fun t e => tset 0 t e.1 (w32 (e.2.1.toNat + 4096 * e.2.2.toNat))) x.adcRef })

def execCalibrationDone (d : Nat) (codes : List (Code × Code)) (s : State) : Host.Outcome State Fault Refusal :=
  run (.calibrationDone d codes) s (fun s => calDone s d codes)

/-! ### Transfer channels (R321–R323) -/

/-- The port-space offset of register `o` of channel `ch` (R56). -/
def xfrOff (ch o : Nat) : Nat := 0x100000 + 0x100000 * (ch / 16 % 4) + 0x32000 + 256 * (ch % 16) + o

/-- The region of a channel has its clock running and is out of reset, and its die serves (R30). -/
def regionRuns (s : State) (r : Nat) : Bool := (s.region r).power = .run && !(s.region r).inReset && dieUp s (r / 4)

def execXfrStart (who : Who) (ch : Nat) (s : State) : Host.Outcome State Fault Refusal :=
  run (.xfrStart who ch) s (fun s => reachWrite s who (ch / 64) (fun s => xfrBegin s who ch (xfrOff ch 0x18) 1))
def execXfrStop (ch : Nat) (s : State) : Host.Outcome State Fault Refusal :=
  run (.xfrStop ch) s (fun s => if dieUp s (ch / 64) then xfrEnd s ch else s)
def execXfrRunPiece (ch : Nat) (s : State) : Host.Outcome State Fault Refusal :=
  run (.xfrRunPiece ch) s (fun s => if regionRuns s (ch / 16) then xfrPiece portPw s ch else s)
def execXfrCountEnd (ch : Nat) (s : State) : Host.Outcome State Fault Refusal :=
  run (.xfrCountEnd ch) s (fun s => if regionRuns s (ch / 16) then xfrCounted portPw s ch else s)

/-! ### The region bus (R328–R335) -/

def execArbClear (region : Nat) (s : State) : Host.Outcome State Fault Refusal :=
  run (.arbClear region) s (fun s => if dieUp s (region / 4) then arbCleared s region else s)

/-- A request of the preempt class (R331). -/
def arbPreempt (a : Arb) (r : BusReq) : Bool := (r.q = 20 || (r.q = 21 && r.urgent)) && wb (arbPrio a r.q) 3

/-- The wait of requester `q` in the present cycle (R333). -/
def arbWait (a : Arb) (q : Nat) : Nat := a.cycle - tget a.cycle a.waits q

/-- A tenure's first beat: the requester's counters are updated with its wait (R333). -/
def arbBegins (a : Arb) (r : BusReq) : Arb :=
  let w := arbWait a r.q
  { a with
    grants := tset 0 a.grants r.q (tget 0 a.grants r.q + 1)
    waitCycles := tset 0 a.waitCycles r.q ((tget 0 a.waitCycles r.q + w) % 2 ^ 40)
    maxWait := tset 0 a.maxWait r.q (min 0xFFFFF (max w (tget 0 a.maxWait r.q)))
    waits := tdel r.q a.waits
    tenure := some { q := r.q, beats := r.beats, done := 1, preempt := arbPreempt a r } }

/-- Whether `q` comes before `p` in the ascending order after the last winner, wrapping from 23 to 0 (R331). -/
def arbBefore (last q p : Nat) : Bool := decide ((q + 23 - last) % 24 < (p + 23 - last) % 24)

/-- The better of two requests under a rule. -/
def arbBest (better : BusReq → BusReq → Bool) : List BusReq → Option BusReq
  | [] => none
  | r :: rs => some (rs.foldl (fun x y => if better y x then y else x) r)

/-- The phase's choice (R331): preempt-class requests, aged ones, then priorities; true when it is chosen by priority. -/
def arbChoice (a : Arb) (rs : List BusReq) : Option (BusReq × Bool) :=
  let age := wf a.cfg 0 10
  match arbBest (fun x y => decide (x.q < y.q)) (rs.filter (arbPreempt a)) with
  | some r => some (r, false)
  | none =>
    let older (x y : BusReq) : Bool :=
      let (u, v) := (arbWait a x.q, arbWait a y.q)
      decide (v < u) || (u = v && decide (x.q < y.q))
    match arbBest older (rs.filter (fun r => age != 0 && decide (age ≤ arbWait a r.q))) with
    | some r => some (r, false)
    | none =>
      let prio (r : BusReq) : Nat := wf (arbPrio a r.q) 0 3
      let higher (x y : BusReq) : Bool :=
        decide (prio y < prio x) || (prio x = prio y && arbBefore (tget 23 a.lastWin (prio x)) x.q y.q)
      (arbBest higher rs).map (fun r => (r, true))

/-- The beat of the present cycle (R329, R330, R332): the first beat of the requester chosen before, unless it withdraws; the
next beat of the tenure; or the parked owner's, when it alone presents a request. -/
def arbBeat (a : Arb) (reqs : List BusReq) (withdraw : Bool) : Arb :=
  match a.chosen with
  | some r =>
    if withdraw then { a with chosen := none, dead := a.dead + 1, waits := tdel r.q a.waits }
    else arbBegins { a with chosen := none } r
  | none => match a.tenure with
    | some t => { a with tenure := some { t with done := t.done + 1 } }
    | none => match reqs with
      | [r] => if a.parked = some r.q then arbBegins a r else a
      | _ => a

/-- One cycle of the bus with its phase (R329–R333). -/
def arbCycle (a : Arb) (reqs : List BusReq) (withdraw : Bool) : Arb :=
  let a := arbBeat a reqs withdraw
  let holder := a.tenure.map (·.q)
  let rs := reqs.filter (fun r => some r.q != holder)
  let stand := a.waits.filter (fun e => rs.any (fun r => r.q = e.1))
  let a := { a with waits := rs.foldl (fun w r => if w.any (fun e => e.1 = r.q) then w else tput r.q a.cycle w) stand }
  let last := match a.tenure with | some t => decide (t.beats ≤ t.done) | none => true
  let choice := arbChoice a rs
  let a := match a.tenure with
    | some t =>
      if last then { a with parked := some t.q, tenure := none }
      else match choice with
        | some (r, _) =>
          if arbPreempt a r && !t.preempt then
            { a with parked := some t.q, tenure := none, preempts := a.preempts + 1, waits := tput t.q (a.cycle + 1) a.waits }
          else a
        | none => a
    | none => a
  let a := match a.tenure, choice with
    | none, some (r, byPrio) =>
      let a := { a with chosen := some r }
      if byPrio then { a with lastWin := tput (wf (arbPrio a r.q) 0 3) r.q a.lastWin } else a
    | _, _ => a
  { a with cycle := a.cycle + 1 }

/-- The requests of a phase are requests: requesters 0–23, each once, of 1 to 8 beats (R26, R328). -/
def arbOk (reqs : List BusReq) : Bool :=
  reqs.all (fun r => decide (r.q < 24) && decide (0 < r.beats) && decide (r.beats ≤ 8)) && decide ((reqs.map (·.q)).Nodup)

def execArbPhase (region : Nat) (reqs : List BusReq) (withdraw : Bool) (s : State) : Host.Outcome State Fault Refusal :=
  run (.arbPhase region reqs withdraw) s (fun s =>
    if regionRuns s region && arbOk reqs then s.modRegion region (fun x => { x with arb := arbCycle x.arb reqs withdraw }) else s)

/-! ### The black box and the event controller's registers (R302–R309, R419) -/

def execBbxFreeze (d : Nat) (s : State) : Host.Outcome State Fault Refusal :=
  run (.bbxFreeze d) s (fun s => if dieUp s d then bbxFreezeBox s d 4 else s)
def execBbxUnfreeze (d : Nat) (s : State) : Host.Outcome State Fault Refusal :=
  run (.bbxUnfreeze d) s (fun s => if dieUp s d then bbxResume s d else s)

/-- The accessor of a target's own bank, and the offset of its register `o` (R54, R56, R312). -/
def bankWho (t : Nat) : Who := if t < 8 then .fn t else .steward (t - 8)
def bankOff (t o : Nat) : Nat := if t < 8 then 0x3000 + o else 0x21000 + o

def execEvcHeadWrite (target : Nat) (value : Word) (s : State) : Host.Outcome State Fault Refusal :=
  run (.evcHeadWrite target value) s
    (fun s => if dieUp s (targetDie target) then headWrite s (bankWho target) target (bankOff target 0x10) value else s)
def execEvcAck (target : Nat) (value : Word) (s : State) : Host.Outcome State Fault Refusal :=
  run (.evcAck target value) s
    (fun s => if dieUp s (targetDie target) then ackWrite s (bankWho target) target (bankOff target 0x18) value else s)
def execEvcRouteWrite (who : Who) (d source : Nat) (value : Word) (s : State) : Host.Outcome State Fault Refusal :=
  run (.evcRouteWrite who d source value) s
    (fun s => reachWrite s who d (fun s => routeWrite s who d source (0x20000 + 4 * (source - 256)) value))

/-- A write of a moderation register (R306): of a target's own group through its bank, of a shared group through the
accessor's die. -/
def moderate (s : State) (who : Who) (t g : Nat) (v : Word) : State :=
  if g < 16 then
    let own := match who with | .fn f => f = t | _ => false
    if (own && dieUp s (targetDie t)) || (8 ≤ t && portReach s who (t - 8)) then modWrite s who t g (bankOff t (0x40 + 4 * g)) v else s
  else
    let d := match who with | .steward d => d | _ => 0
    reachWrite s who d (fun s => smodWrite s who d g (0x20800 + 4 * (g - 16)) v)

def execModerationWrite (who : Who) (target group : Nat) (value : Word) (s : State) : Host.Outcome State Fault Refusal :=
  run (.moderationWrite who target group value) s (fun s => moderate s who target group value)

def execMsixUnmask (f : Nat) (s : State) : Host.Outcome State Fault Refusal :=
  run (.msixUnmask f) s (fun s => if dieUp s (fnPort f) then msixWrite s f 12 0 else s)

end Sys2Proof.Machine
end

