-- ==== Sys2Proof/Machine/EventCmds.lean ====
section
/-! DEFINITION. The ring writer and the moderation timers (R297–R306, R310, R311). -/

namespace Sys2Proof.Machine

/-- The shared sources pending for target `t`. -/
def sharedPending (s : State) (t : Nat) : List Nat :=
  (s.shared.filter (fun e => e.2.pend.isSome && routeTarget e.2 = t)).map Prod.fst

/-- The sources of target `t` that have a record to write, in ascending order (R303). -/
def sourcesPending (s : State) (t : Nat) : List Nat :=
  let g := s.target t
  let private_ := (List.range 256).filter (fun n => (tget none g.pend n).isSome ||
    (let q := tget {} g.notices n; !q.q.isEmpty || q.lost != 0))
  private_ ++ sharedPending s t

/-- The source whose record is written next (R303): the lowest-numbered, those replayed after a wake from Rest first (R311). -/
def nextSource (s : State) (t : Nat) : Option Nat :=
  let ps := sourcesPending s t
  match (ps.filter (fun n => (s.target t).replay.contains n)).head? with
  | some n => some n
  | none => ps.head?

/-- The ring of target `t` is full (R302). -/
def ringFull (g : Target) : Bool := (g.tail + 1) % 2 ^ g.sizeLog2 = g.head

/-- The writer of target `t` runs (R303, R310, R311): its die serves with its clock, and no activation stands in the way of a
steward's ring. -/
def writerRuns (s : State) (t : Nat) : Bool :=
  let d := targetDie t
  dieUp s d && (s.die d).power = .run && (t < 8 || (s.pkg.reloading != some d && (s.die d).stw.pair != 1))

/-- The record of source `n` as it is taken: KIND, DATA and TIME, and the state with the occurrence gone (R297, R298, R308). A LOST
record carries the time of its writing (log 26). -/
def takeOcc (s : State) (t n : Nat) : Option (Occ × State) :=
  let gone (s : State) : State := s.modTarget t (fun g => { g with replay := g.replay.filter (· != n) })
  if 256 ≤ n then
    match (s.source n).pend with
    | none => none
    | some o =>
      let lvl := sourceLevel s n
      let o' := if o.kind = kindLevel then { o with data := o.data + w32 (65536 * b2n lvl) } else o
      some (o', gone (routeApply (s.modSource n (fun x => { x with pend := none, inService := o.kind = kindLevel })) n))
  else
    match tget none (s.target t).pend n with
    | some o => some (o, gone (s.modTarget t (fun g => { g with pend := tset none g.pend n none })))
    | none =>
      let q := tget {} (s.target t).notices n
      let put (q : Notices) : State := gone (s.modTarget t (fun g => { g with notices := tset {} g.notices n q }))
      match q.q with
      | (v, at_) :: rest => some ({ kind := kindNotice, data := v, time := at_ }, put { q with q := rest })
      | [] => if q.lost = 0 then none
        else some ({ kind := kindLost, data := w32 (min q.lost 0xFFFFFFFF), time := s.pilot }, put { q with lost := 0 })

/-- The 16 bytes of a record (R300). -/
def recordBytes (g : Target) (n : Nat) (o : Occ) : List Byte :=
  leBytes 2 (32768 * b2n g.phase + 1024 * o.kind.toNat + n) ++ leBytes 2 g.seq.toNat ++ leBytes 4 o.data.toNat ++ leBytes 8 o.time.toNat

/-- A record lands in its ring: a function's in host memory, a steward's in its data SRAM (R293). -/
def ringWrite (s : State) (t : Nat) (bs : List Byte) : State :=
  let g := s.target t
  let a := g.base.toNat + 16 * g.tail
  if t < 8 then (memPut portPw s (fnParty s t) a bs .event true).2
  else stwPut s (t - 8) true a bs

/-- The ring writer writes one record, at most one in 4 ticks (R302–R304): the index advances, the group's count rises and its timer
starts. The release that may follow comes at the end of the tick. -/
def recordWrite (s : State) (t : Nat) : State :=
  let g := s.target t
  if !g.live || ringFull g || !writerRuns s t || (match g.wroteAt with | some a => decide (s.edges < a + 4) | none => false) then s
  else match nextSource s t with
    | none => s
    | some n => match takeOcc s t n with
      | none => s
      | some (o, s) =>
        let s := ringWrite s t (recordBytes g n o)
        let tail := (g.tail + 1) % 2 ^ g.sizeLog2
        let k := n / 16
        s.modTarget t (fun g => { g with
          tail := tail, phase := if tail = 0 then !g.phase else g.phase, seq := g.seq + 1
          unread := g.unread ++ [k], wroteAt := some s.edges
          paces := tset {} g.paces k
            { tget {} g.paces k with
              count := (tget {} g.paces k).count + 1
              since := match (tget {} g.paces k).since with | some b => some b | none => some s.edges } })

def execEventRecordWrite (target : Nat) (s : State) : Host.Outcome State Fault Refusal :=
  run (.eventRecordWrite target) s (fun s => recordWrite s target)
def execModerationTimer (target group : Nat) (s : State) : Host.Outcome State Fault Refusal :=
  run (.moderationTimer target group) s (fun s => judgePair s target group)

end Sys2Proof.Machine
end

