-- ==== Sys2Proof/Machine/Requests.lean ====
section
/-! DEFINITION. How a work order, an admin command or a mailbox command is taken up (R263–R273, R384): the request that stands
first at its source, its fields, the memory it names, its input stream and its completion. -/

namespace Sys2Proof.Machine

/-- A request that is to take effect: where it stands, its function, its 64 bytes, its body in variable mode, and the mailbox's
DATA. -/
structure Req where
  src : EntrySrc
  idx : Nat
  fn : Nat
  bytes : List Byte
  body : List Byte
  variable_ : Bool
  data : List Byte
  deriving DecidableEq, Repr

/-- Firmware of die `d` serves the submissions of its policy contexts (R291, R384). -/
def policyServes (s : State) (d : Nat) : Bool :=
  dieUp s d && (s.die d).stewardClock && (s.func (4 * d)).ready && s.pkg.reloading != some d && (s.die d).stw.pair != 1

/-- An entry may be acted on (R276, R278, R468): its queue runs, or it precedes the INDEX of the queue's ERROR. -/
def entryMay (x : Queue) (e : Flight) : Bool :=
  !x.stopping && (match x.st with
  | .running => true
  | .error | .destroying => (x.flight.takeWhile (fun y => y.idx != x.index)).any (fun y => y.idx = e.idx)
  | .absent => false)

/-- The request that takes effect next at a source (R272): the first that has not. -/
def nextReq (s : State) (src : EntrySrc) : Option Req :=
  match src with
  | .queue f q =>
    let x := s.queue f q
    if !serves s f || (s.func f).inReset then none
    else match x.flight.find? (fun e => !e.effect) with
      | some e => if entryMay x e then some ⟨src, e.idx, f, e.bytes, e.body, x.variable_, []⟩ else none
      | none => none
  | .mailbox f =>
    if !serves s f then none
    else match (s.func f).request with
      | some h => if h.effect then none else some ⟨src, 0, f, h.bytes, [], false, sub (mailboxBytes s f) 0x10 32⟩
      | none => none
  | .policy d c =>
    let x := userCtx (s.die d).stw.core c
    if !policyServes s d then none
    else match x.subs.find? (fun e => !e.effect) with
      | some e => some ⟨src, e.offset, x.loader, e.bytes, [], false, []⟩
      | none => none

/-- The oldest submission at an offset that has not taken effect takes it. -/
def subTaken (off : Nat) : List Submission → List Submission
  | [] => []
  | e :: l => if e.offset = off && !e.effect then { e with effect := true } :: l else e :: subTaken off l

/-- The request has taken effect (R272). -/
def tookEffect (s : State) (r : Req) : State :=
  match r.src with
  | .queue f q => s.modQueue f q (fun x => { x with flight := x.flight.map (fun e => if e.idx = r.idx then { e with effect := true } else e) })
  | .mailbox f => s.modFunc f (fun x => { x with request := x.request.map (fun h => { h with effect := true }) })
  | .policy d c => modCtx s d c (fun x => { x with subs := subTaken r.idx x.subs })

/-- The request completes with a code, a GEN byte and RESULT. -/
def replyWith (s : State) (r : Req) (code gen : Nat) (result : List Byte) : State := complete portPw s r.src r.idx code gen result
/-- The request completes with a code alone. -/
def reply (s : State) (r : Req) (code : Nat) : State := replyWith s r code 0 []

/-! ### Opcodes (R263, R265, R280, R283, R384) -/

/-- The opcodes that R280 and R283 list. -/
def opListed (op : Nat) : Bool := (1 ≤ op && op ≤ 0x0C) || (0x81 ≤ op && op ≤ 0x8F)

/-- The opcodes a source accepts. -/
def opAccepted (src : EntrySrc) (op : Nat) : Bool :=
  match src with
  | .queue _ 0 => op = 0x0C || (0x81 ≤ op && op ≤ 0x8F)
  | .queue _ _ => 1 ≤ op && op ≤ 0x0C
  | .mailbox _ => [0x0C, 0x03, 0x05, 0x85, 0x84, 0x06, 0x07, 0x08, 0x81, 0x8A].contains op
  | .policy _ _ => (1 ≤ op && op ≤ 8) || op = 0x0C

/-- Serves the request at a source if it is one of the row's, with `act` its action. An opcode that no row has is completed by any
of them; one that the source does not take completes with the source's code. -/
def serve (s : State) (src : EntrySrc) (mine : Req → Bool) (act : State → Req → State) : State :=
  match nextReq s src with
  | none => s
  | some r =>
    let op := eOpcode r.bytes
    if opListed op && !mine r then s
    else if !opAccepted src op then
      reply s r (match src with | .mailbox _ => ccNotInMailbox | _ => ccUnknownOpcode)
    else act s r

/-- The request has opcode `op`. -/
def isOp (op : Nat) (r : Req) : Bool := eOpcode r.bytes = op

/-- Every bit and field the opcode does not use is 0 (R267): the PARAMS bits outside `pmask`, A, B and the stream's address where
not used, INLINE outside bytes `lo` to `hi - 1`, and LEN in fixed mode. -/
def fieldsOk (r : Req) (pmask : Nat) (a b stream : Bool) (lo hi : Nat) : Bool :=
  let e := r.bytes
  (r.variable_ || eLen e = 0) && (eParams e &&& pmask) = eParams e && (a || eA e = 0) && (b || eB e = 0) &&
  ((stream && !r.variable_) || eTable e = 0) && allZero e 32 (lo - 32) && allZero e hi (48 - hi)

/-- The field `P[hi:lo]` as R280 writes it. -/
def par (r : Req) (lo len : Nat) : Nat := fld (eParams r.bytes) lo len

/-! ### What a request reaches -/

/-- The die whose firmware serves the request. -/
def reqDie (r : Req) : Nat := match r.src with | .policy d _ => d | _ => fnPort r.fn

/-- The request as a party: its function, on its die (R266, R384). -/
def reqParty (s : State) (r : Req) : Party := { fnParty s r.fn with die := reqDie r, region := 4 * reqDie r }

/-- An action needs die `d` while the bridge to it is down: the entry waits (R412, log 27). -/
def mustWait (s : State) (r : Req) (d : Nat) : Bool := d != reqDie r && !arcUp s && !isLost s d

/-- An action needs die `d`, which is lost: the element is not there (R13, log 27). -/
def lostDie (s : State) (d : Nat) : Bool := isLost s d

/-- Reads memory that an address field names; of a policy submission an address with bit 63 clear lies in its context's data (R384). -/
def reqGet (s : State) (r : Req) (a n : Nat) : Got × State :=
  match r.src with
  | .policy d c =>
    if onChip a then memGet s (reqParty s r) a n
    else
      let x := userCtx (s.die d).stw.core c
      if x.dataLen < a + n then (.bad badAddress, s) else (.ok (memReadN (s.die d).stw.core.dram (x.dataBase + a) n), s)
  | _ => memGet s (reqParty s r) a n

/-- Writes memory that an address field names. -/
def reqPut (s : State) (r : Req) (a : Nat) (bs : List Byte) : Option Fail × State :=
  match r.src with
  | .policy d c =>
    if onChip a then memPut portPw s (reqParty s r) a bs .data false
    else if (userCtx (s.die d).stw.core c).dataLen < a + bs.length then (some badAddress, s)
    else (none, ctxDataPut s d c a bs)
  | _ => memPut portPw s (reqParty s r) a bs .data false

/-- The completion code of a failed stream (R268). -/
def streamCode (f : Fail) : Nat := if f.1 = csChain || f.1 = csData then ccStreamFailed else ccMalformed

/-- The input stream of a request as far as `need` bytes (R268): its bytes, or the code its failure completes with. -/
def streamOf (s : State) (r : Req) (need : Nat) : (Nat ⊕ List Byte) × State :=
  if r.variable_ then (.inr (r.body.take need), s)
  else if eTable r.bytes = 0 then (.inr [], s)
  else
    let p := reqParty s r
    let (w, s) := piecesOf s p true (eTable r.bytes) need
    match w.fail with
    | some f => (.inl (streamCode f), s)
    | none =>
      let ((bs, f), s) := getPieces p s w.pieces []
      match f with
      | some f => (.inl (streamCode f), s)
      | none => (.inr bs, s)

/-! ### Programs by tag (R136, R137, R141) -/

/-- The slot of the program of function `f` with a tag, before its end. -/
def tagSlot (s : State) (f : Nat) (tag : Half) : Option Nat :=
  (s.slots.find? (fun e => e.2.st != .free && e.2.ended.isNone && e.2.fn = f && e.2.tag = tag &&
    (match e.2.owner with | .entry _ _ => true | _ => false))).map Prod.fst

/-- A queued program is the one of function `f` with a tag. -/
def isProg (f : Nat) (tag : Half) (g : Prog) : Bool := g.fn = f && g.tag = tag

/-- The cluster on whose lists the program of a tag is QUEUED. -/
def tagQueued (s : State) (f : Nat) (tag : Half) : Option Nat :=
  (s.clusters.find? (fun e => e.2.admits.any (isProg f tag) || e.2.lostAdmit.any (isProg f tag))).map Prod.fst

end Sys2Proof.Machine
end

