-- ==== Sys2Proof/Machine/WorkOrders.lean ====
section
/-! DEFINITION. The meanings of the work-order rows (R136–R142, R213–R218, R248, R280–R288). -/

namespace Sys2Proof.Machine

/-! ### START (R22, R119, R141, R142, R280, R281, R405, R406) -/

/-- A generation of a tag (R142). -/
def tagGen (s : State) (f : Nat) (tag : Half) : BitVec 4 := tget 0 (s.func f).gens tag.toNat

/-- A program enters an admission list before those whose work orders were fetched later (R22). -/
def enterList (g : Prog) : List Prog → List Prog
  | [] => [g]
  | h :: t => if g.order < h.order then g :: h :: t else h :: enterList g t

/-- Home cluster `c` lies on a lost half and its adopter serves its list (R406). -/
def listAdopted (s : State) (c : Nat) : Bool := isLost s (c / 16) && (s.cluster ((c + 16) % 32)).adopts = some c

/-- The admission list that a START for home cluster `c` joins: its own, or the one its adopter took over (R406). -/
def joinList (s : State) (c : Nat) (g : Prog) : State :=
  if listAdopted s c then s.modCluster ((c + 16) % 32) (fun x => { x with lostAdmit := enterList g x.lostAdmit })
  else s.modCluster c (fun x => { x with admits := enterList g x.admits })

/-- The slot available to a START for home cluster `c`, if any, and whether it is an adopted one (R22, R124): free slots exceed the
reserve, and no program stands before it on the lists. -/
def startSlot (s : State) (c : Nat) : Option (Nat × Bool) :=
  let a := (c + 16) % 32
  if listAdopted s c then
    (if (s.cluster a).lostAdmit.isEmpty && decide (reserveOf s a < freeSlots s c) then (freeSlot s c).map (fun n => (n, true)) else none)
  else
    let x := s.cluster c
    if dieUp s (c / 16) && !(s.region (c / 4)).inReset && x.admits.isEmpty && x.chords.isEmpty && decide (reserveOf s c < freeSlots s c) then
      (freeSlot s c).map (fun n => (n, false))
    else none

/-- The place of a request among the work orders fetched (R22): an entry's own, any other request's the present one. -/
def fetchOrder (s : State) (r : Req) : Nat :=
  match r.src with
  | .queue f q => match (s.queue f q).flight.find? (fun e => e.idx = r.idx) with
    | some e => e.order
    | none => s.pkg.fetched
  | _ => s.pkg.fetched

/-- The programs on that list. -/
def listLength (s : State) (c : Nat) : Nat :=
  if listAdopted s c then (s.cluster ((c + 16) % 32)).lostAdmit.length else (s.cluster c).admits.length

/-- A free body-chain tile of the home region (R281, R286). -/
def bodyTile (s : State) (r : Nat) : Option Nat :=
  (rangeL (512 * r + 8) 4).find? (fun t => !(s.tile t).used && !(s.tile t).retired)

/-- The chain of a body is copied into its tile and the mirror tile of the partner region (R281, R405). -/
def bodyCopied (s : State) (t : Nat) (bs : List Byte) : State :=
  let r := t / 512
  let m := (t + 2048) % 4096 + 4
  let own (y : Tile) : Tile := { y with owner := .device, used := true }
  let s := (s.modTile t own).modTile m own
  let s := if isLost s (r / 4) then s else sramWrite s r (t % 512 * 4096) bs
  if isLost s (1 - r / 4) || (r / 4 != s.pkg.custody && !arcUp s) then s else sramWrite s (m / 512) (m % 512 * 4096) bs

/-- The on-chip address of a tile (R62). -/
def tileAddr (t : Nat) : Nat := 2 ^ 63 + t / 2048 * 0x08000000 + t / 512 % 4 * 0x01000000 + t % 512 * 0x1000

/-- A START is placed (R119, R122, R141, R142): GEN and quarantine, then a slot with the ACTIVE status where one is available, else the
admission list with the QUEUED status. A refused status write ends the program at once (R121). -/
def startPlaced (s : State) (r : Req) (c : Nat) (chain : Nat) (body : Option Nat) : State :=
  let tag := w16 (eTag r.bytes)
  let gen := tagGen s r.fn tag + 1
  let halt := match r.src with
    | .queue f q => if (s.queue f q).st = .destroying then some haltProgramReason else none
    | _ => none
  let g : Prog := {
    owner := .entry r.src r.idx, fn := r.fn, tag := tag, gen := gen, chain := w64 chain, status := w64 (eB r.bytes), body := body
    enforce := wb s.pkg.enforce r.fn, halt := halt, order := fetchOrder s r }
  let s := s.modFunc r.fn (fun x => { x with gens := tset 0 x.gens tag.toNat gen, quar := x.quar ++ [⟨tag, r.src, r.idx⟩] })
  let s := tookEffect s r
  match startSlot s c with
  | some (n, adopted) => takeSlot portPw s n g adopted
  | none =>
    match statusWrite portPw s (progParty c g) (progSlot g) 1 with
    | (none, s) => joinList s c g
    | (some f, s) =>
      let s := match body with
        | some t => (s.modTile t (fun y => { y with used := false })).modTile ((t + 2048) % 4096 + 4) (fun y => { y with used := false })
        | none => s
      let x := setFail (progSlot g) f
      replyWith (quarLeave s r.fn tag) r ccStatusWriteFailed gen.toNat (leBytes 2 x.chan.toNat ++ [x.reason])

/-- START (R280). -/
def startAct (s : State) (r : Req) : State :=
  let c := par r 0 5
  let a := eA r.bytes
  let tag := w16 (eTag r.bytes)
  let policy := match r.src with | .policy _ _ => true | _ => false
  if !fieldsOk r 0x1F true true false 32 32 || eB r.bytes % 32 != 0 || (a = 0 && (!r.variable_ || eLen r.bytes < 2)) ||
    (policy && !onChip a) then reply s r ccMalformed
  else if (s.func r.fn).quar.any (fun e => e.tag = tag) then reply s r ccTagBusy
  else if mustWait s r (c / 16) then s
  else if 256 ≤ listLength s c then reply s r ccPoolEmpty
  else if a != 0 then startPlaced s r c a none
  else match bodyTile s (c / 4) with
    | none => reply s r ccPoolEmpty
    | some t => startPlaced (bodyCopied s t r.body) r c (tileAddr t) (some t)

def execStart (src : EntrySrc) (s : State) : Host.Outcome State Fault Refusal :=
  run (.start src) s (fun s => serve s src (isOp 0x01) startAct)

/-! ### RESUME and HALT-PROGRAM (R136–R138) -/

/-- A SUSPENDED program goes on (R137): the ACTIVE status, then the suspended CCW is fetched again without its PAUSE. -/
def resumeSlot (s : State) (n : Nat) : State :=
  let s := s.modSlot n (fun x =>
    let chan := x.chan &&& ~~~csSuspended
    { x with
      st := .active, pc := x.ccw, honour := false, buf := [], chan := chan
      reason := if chan &&& csPartial = 0 then 0 else someLanes })
  (interim portPw s n 2).2

/-- RESUME. -/
def resumeAct (s : State) (r : Req) : State :=
  let tag := w16 (eTag r.bytes)
  if !fieldsOk r 0 false false false 32 32 then reply s r ccMalformed
  else match tagSlot s r.fn tag with
    | none => reply s r (if (tagQueued s r.fn tag).isSome then ccNotSuspended else ccNoProgram)
    | some n =>
      if mustWait s r (slotServer s n / 16) then s
      else if (s.slot n).st != .suspended then reply s r ccNotSuspended
      else reply (resumeSlot s n) r ccSuccess

def execResume (src : EntrySrc) (s : State) : Host.Outcome State Fault Refusal :=
  run (.resume src) s (fun s => serve s src (isOp 0x02) resumeAct)

/-- HALT-PROGRAM (R136): it completes after the program's final status write. -/
def haltProgramAct (s : State) (r : Req) : State :=
  let tag := w16 (eTag r.bytes)
  if !fieldsOk r 0 false false false 32 32 then reply s r ccMalformed
  else match tagSlot s r.fn tag with
    | some n =>
      if mustWait s r (slotServer s n / 16) then s else haltSlot portPw (tookEffect s r) n haltProgramReason
    | none => match tagQueued s r.fn tag with
      | some _ => queuedHalted portPw (tookEffect s r) (fun _ g => isProg r.fn tag g) haltProgramReason
      | none => reply s r ccNoProgram

def execHaltProgram (src : EntrySrc) (s : State) : Host.Outcome State Fault Refusal :=
  run (.haltProgram src) s (fun s => serve s src (isOp 0x03) haltProgramAct)

/-! ### ARM-CHORD and DISARM-CHORD (R204–R209, R213–R215, R218, R408) -/

/-- A stroke segment is no reserved encoding (R207). -/
def strokesOk (param : Nat) (seg : List Byte) : Bool :=
  let n := strokeCount param
  fld param 3 13 = 0 && decide (1 ≤ n) && decide (n ≤ 5) && allZero seg (3 * n) (20 - 3 * n) &&
  (List.range n).all (fun i =>
    fld (u8 seg (3 * i)) 5 3 = 0 && decide (strokeAction seg i ≤ 4) &&
    (if 3 ≤ strokeAction seg i then strokeWidth seg i != 0 else strokeWidth seg i = 0))

/-- A frame segment is no reserved encoding (R209). -/
def frameOk (param : Nat) (seg : List Byte) : Bool :=
  let bits := fld param 0 8
  decide (1 ≤ bits) && decide (bits ≤ 160) && allZero seg ((bits + 7) / 8) (20 - (bits + 7) / 8)

/-- Claim `k` of a record is no reserved encoding (R206, R213). -/
def claimOk (rec' : List Byte) (k : Nat) : Bool :=
  let c := recClaim rec' k
  if !claimValid c then c = 0 && recParam rec' k = 0 && allZero (recSegment rec' k) 0 20
  else !bit c 11 && (
    if claimKind c = 1 then claimHalf c = 0 && strokesOk (recParam rec' k) (recSegment rec' k)
    else claimKind c = 2 && frameOk (recParam rec' k) (recSegment rec' k))

/-- The lane a claim takes, the even lane of its gang. -/
def claimKey (s : State) (c : Nat) : Nat := if isPartner s (claimLane c) then claimLane c - 1 else claimLane c

/-- Check 4 of R213: the record's encoding. -/
def recordOk (s : State) (f : Nat) (rec' : List Byte) : Bool :=
  let ts := recTriggers rec'
  let cs := recClaims rec'
  let keys := cs.map (fun e => claimKey s e.2)
  fld (u8 rec' 8) 2 2 = 0 && recRule rec' != 3 && fld (u8 rec' 9) 3 5 = 0 && u8 rec' 14 = f && u8 rec' 15 = 0 && allZero rec' 120 8 &&
  (List.range 4).all (fun k => let t := recTrigger rec' k; if trigValid t then fld t 13 2 = 0 else t = 0) &&
  (List.range 4).all (claimOk rec') && !ts.isEmpty && (if recRule rec' = 0 then recWindow rec' = 0 else recWindow rec' != 0) &&
  !(recOneshot rec' && recRearm rec') && (!cs.isEmpty || recChain rec' != 0) && decide keys.Nodup &&
  cs.all (fun e => decide (segDuration e.2 (recParam rec' e.1) (recSegment rec' e.1) ≤ recHoldoff rec'))

/-- Check 5 of R213: its vertices and lanes exist. -/
def recordNames (s : State) (rec' : List Byte) : Bool :=
  (recTriggers rec').all (fun e => vertexExists (trigVertex e.2)) &&
  (recClaims rec').all (fun e => decide (claimLane e.2 < 384) && (s.lane (claimLane e.2)).unit != .retired)

/-- Check 6 of R213: a claim suits its lane (R215). -/
def claimSuits (s : State) (rec' : List Byte) (k c : Nat) : Bool :=
  let n := claimLane c
  let l := s.lane n
  !isPartner s n && (strobeOf s n).isNone && !isTargetMailbox (personality l) &&
  (if claimKind c = 1 then wb l.cfg 4 || !usesOddPin (recParam rec' k) (recSegment rec' k)
   else isFrame l && decide (2 ≤ claimHalf c))

/-- Check 8 of R213: the follow-on chain (R214). -/
def chainOk (s : State) (f c : Nat) (a : Nat) : Bool :=
  a = 0 || (a % 16 = 0 && onChip a && (formFail a 16).isNone && decide (chipBlock a < 4) && chipRegion a = chordRegion c && (
    let t := tileOf (chipRegion a) (chipOff a)
    !(s.tile t).retired &&
    (match (s.tile t).owner with
    | .fn g => g = f
    | .device => (sealers s t).any (fun k => k != c && recOwner (s.chord k).record = f)
    | _ => false)))

/-- Check 2 of R213: the slot may be armed by function `f`. -/
def chordOpen (s : State) (f c : Nat) : Bool :=
  let x := s.chord c
  x.st = .disarmed || (x.st = .spent && recOwner x.record = f)

/-- The chord's record is copied, its tile is sealed, it forms a pair where R408 says so, and enters ARMED. -/
def chordArmed (s : State) (f c : Nat) (rec' : List Byte) : State :=
  let old := chordTile (s.chord c)
  let s := s.modChord c (fun x => { x with
    st := .armed, record := rec', gen := x.gen + 1, firings := 0, suppressed := 0, claimsLost := 0, trigs := [], matched := none
    chainLive := false, haltChain := false })
  let s := match chordTile (s.chord c) with
    | some t => s.modTile t (fun x => { x with owner := .device })
    | none => s
  let s := openSeal s f old
  let y := s.chord (twinChord c)
  let pair := y.st != .disarmed && sub rec' 0 112 = sub y.record 0 112 && recChain rec' % 4096 = recChain y.record % 4096
  let s := modPair s c (fun _ => if pair then { valid := true, highStandby := decide (2048 ≤ c) } else {})
  if pair then
    let s := s.modChord c (fun x => { x with st := y.st })
    if y.st = .armed then evalFresh s c else s
  else armEntry s c

/-- ARM-CHORD (R213), its record in memory or in the body. -/
def armAct (s : State) (r : Req) : State :=
  let c := par r 0 12
  let a := eA r.bytes
  if !fieldsOk r 0xFFF true false false 32 32 || (a = 0 && (!r.variable_ || eLen r.bytes < 3)) then reply s r ccMalformed
  else if mustWait s r (chordDie c) then s
  else if lostDie s (chordDie c) || (s.chord c).unit = .retired then reply s r ccNoSuchResource
  else if (s.chord c).unit = .resetting then s
  else if !chordOpen s r.fn c then reply s r ccChordArmed
  else if a % 16 != 0 then reply s r ccRecordFetchFailed
  else match (if a = 0 then (Got.ok (r.body.take 128), s) else reqGet s r a 128) with
    | (.bad _, s) => reply s r ccRecordFetchFailed
    | (.ok rec', s) =>
      if !recordOk s r.fn rec' then reply s r ccMalformed
      else if !recordNames s rec' then reply s r ccNoSuchResource
      else if !(recClaims rec').all (fun e => claimSuits s rec' e.1 e.2) then reply s r ccBadClaim
      else if recPersist rec' && !hasCap s r.fn 0 then reply s r ccCapability
      else if !chainOk s r.fn c (recChain rec') then reply s r ccBadChain
      else
        let s := chordArmed s r.fn c rec'
        replyWith s r ccSuccess (s.chord c).gen.toNat []

def execArmChord (src : EntrySrc) (s : State) : Host.Outcome State Fault Refusal :=
  run (.armChord src) s (fun s => serve s src (isOp 0x04) armAct)

/-- DISARM-CHORD (R218). -/
def disarmAct (s : State) (r : Req) : State :=
  let c := par r 0 12
  let x := s.chord c
  if !fieldsOk r 0x1FFF false false false 32 32 then reply s r ccMalformed
  else if mustWait s r (chordDie c) then s
  else if lostDie s (chordDie c) || x.unit = .retired then reply s r ccNoSuchResource
  else if x.st = .disarmed || x.st = .draining || (r.fn != 0 && recOwner x.record != r.fn) then reply s r ccChordNotHeld
  else reply (disarmAt portPw s c (if par r 12 1 = 1 then some haltProgramReason else none)) r ccSuccess

def execDisarmChord (src : EntrySrc) (s : State) : Host.Outcome State Fault Refusal :=
  run (.disarmChord src) s (fun s => serve s src (isOp 0x05) disarmAct)

/-! ### SIGNAL (R86, R257, R438) -/

/-- SIGNAL. -/
def signalWork (s : State) (r : Req) : State :=
  let dev := par r 8 5
  if !fieldsOk r 0x1FFF false false false 32 36 then reply s r ccMalformed
  else if !localDevice s dev && !isRoot s then reply s r ccNoSuchResource
  else if !localDevice s dev && !hasCap s r.fn 2 then reply s r ccCapability
  else if dev != 31 && !localDevice s dev && !reachable s dev then reply s r ccNoSuchResource
  else reply (signalTo s dev (par r 0 8) (w32 (u32 r.bytes 32))) r ccSuccess

def execSignalWorkOrder (src : EntrySrc) (s : State) : Host.Outcome State Fault Refusal :=
  run (.signalWorkOrder src) s (fun s => serve s src (isOp 0x06) signalWork)

/-! ### METER-SET and METER-READ (R247, R248, R280) -/

/-- The request may set the meter (R247, R384): its owner, anyone for an unowned one, the primary function, or a policy context it
was taken for. -/
def meterMay (s : State) (r : Req) (m : Nat) : Bool :=
  let o := (s.meter m).owner
  r.fn = 0 || o = r.fn || o = 15 || (o = 8 && (match r.src with
    | .policy d c => (userCtx (s.die d).stw.core c).meters.contains m
    | _ => false))

/-- The settings bytes of METER-SET (R263, R268, R280). A read of them that fails completes with MALFORMED (log 28). -/
def meterBytes (s : State) (r : Req) : Option (List Byte) × State :=
  match r.src with
  | .mailbox _ => (some r.data, s)
  | _ =>
    let a := eA r.bytes
    if a = 0 then (if r.variable_ && 2 ≤ eLen r.bytes then some (r.body.take 32) else none, s)
    else if a % 8 != 0 then (none, s)
    else match reqGet s r a 32 with
      | (.ok b, s) => (some b, s)
      | (.bad _, s) => (none, s)

/-- METER-SET: it completes when its settings have applied at the meter's slot. -/
def meterSetAct (s : State) (r : Req) : State :=
  let m := par r 0 7
  let mail := match r.src with | .mailbox _ => true | _ => false
  if !fieldsOk r 0x7F (!mail) false false 32 32 then reply s r ccMalformed
  else if mustWait s r (m / 64) then s
  else if (s.meter m).unit = .retired || lostDie s (m / 64) then reply s r ccNoSuchResource
  else if !meterMay s r m then reply s r ccNotOwner
  else match meterBytes s r with
    | (none, s) => reply s r ccMalformed
    | (some b, s) =>
      if !settingsOk (m / 64) b then reply s r ccMalformed
      else
        let s := s.modMeter m (fun x => { x with owner := if x.owner = 15 then r.fn else x.owner })
        let s := meterCommit s m b
        if (s.die (m / 64)).meterRun then
          (tookEffect s r).modMeter m (fun x => { x with waiters := x.waiters ++ [.entry r.src r.idx] })
        else reply s r ccSuccess

def execMeterSet (src : EntrySrc) (s : State) : Host.Outcome State Fault Refusal :=
  run (.meterSet src) s (fun s => serve s src (isOp 0x07) meterSetAct)

/-- METER-READ: the snapshot published last is stored, or goes into the mailbox's DATA. -/
def meterReadAct (s : State) (r : Req) : State :=
  let m := par r 0 7
  let b := eB r.bytes
  let mail := match r.src with | .mailbox _ => true | _ => false
  let snap := snapRead s m
  let result := sub snap 0 4 ++ [snap.getD 24 0]
  if !fieldsOk r 0x7F false (!mail) false 32 32 || b % 8 != 0 then reply s r ccMalformed
  else if mustWait s r (m / 64) then s
  else if (s.meter m).unit = .retired || lostDie s (m / 64) then reply s r ccNoSuchResource
  else if mail then replyWith (mailboxPut s r.fn 0x10 snap) r ccSuccess 0 result
  else if b = 0 then replyWith s r ccSuccess 0 result
  else match reqPut s r b snap with
    | (none, s) => replyWith s r ccSuccess 0 result
    | (some _, s) => reply s r ccDataWriteFailed

def execMeterRead (src : EntrySrc) (s : State) : Host.Outcome State Fault Refusal :=
  run (.meterRead src) s (fun s => serve s src (isOp 0x08) meterReadAct)

/-! ### Buffers (R286–R288) -/

/-- A tile of the pool is free. -/
def tileFree (s : State) (t : Nat) : Bool :=
  let y := s.tile t
  decide (16 ≤ t % 512) && y.owner = .pool && !y.retired && !y.used

/-- A tile is handed to function `f`: zeroed with valid ECC, its GEN one higher. -/
def tileTaken (s : State) (f t : Nat) : State :=
  let r := t / 512
  let o := physOff s r (t % 512 * 4096)
  let s := s.modTile t (fun y => { y with owner := .fn f, gen := y.gen + 1 })
  { s.modRegion r (fun x => { x with sram := memClear x.sram o (o + 4096) }) with
    ecc := s.ecc.filter (fun e => !(e.1 = MemKind.regionSram && e.2.1 = r && decide (o / 8 ≤ e.2.2) && decide (e.2.2 < o / 8 + 512))) }

/-- Entry `e` of function `f` was fetched before entry `o` of function `g` (R287): an earlier tick, and in one tick the lower function. -/
def fetchedBefore (f : Nat) (e : Flight) (g : Nat) (o : Flight) : Bool :=
  decide (e.tick < o.tick) || (e.tick = o.tick && (decide (f < g) || (f = g && decide (e.order < o.order))))

/-- The BUFFER-ALLOC entries for region `q` that wait and were fetched before the request (R287). -/
def allocRivals (s : State) (r : Req) (q : Nat) : List (Nat × Flight) :=
  match r.src with
  | .queue g k =>
    match (s.queue g k).flight.find? (fun e => e.idx = r.idx) with
    | none => []
    | some o =>
      (s.queues.map (fun x => (x.2.flight.filter (fun e => !e.effect && eOpcode e.bytes = 9 && fld (eParams e.bytes) 0 3 = q &&
        entryMay x.2 e && fetchedBefore (x.1 / 128) e g o)).map (fun e => (x.1 / 128, e)))).flatten
  | _ => []

/-- Where requests for the last free tiles of a region meet, those fetched first win (R287): what is left for this one. -/
def tilesLeft (s : State) (r : Req) (q : Nat) : Nat :=
  ((rangeL (512 * q + 16) 496).filter (tileFree s)).length - (allocRivals s r q).length

/-- BUFFER-ALLOC (R286). -/
def bufferAllocAct (s : State) (r : Req) : State :=
  let q := par r 0 3
  let exact_ := par r 3 1 = 1
  let want := 512 * q + par r 4 9
  if !fieldsOk r (if exact_ then 0x1FFF else 0xF) false false false 32 32 then reply s r ccMalformed
  else if mustWait s r (q / 4) then s
  else if lostDie s (q / 4) || (exact_ && (decide (par r 4 9 < 16) || (s.tile want).retired)) then reply s r ccNoSuchResource
  else
    let got := if exact_ then (if tileFree s want && !(allocRivals s r q).any (fun e => fld (eParams e.2.bytes) 3 10 = 1 + 2 * par r 4 9) then some want else none)
      else (if tilesLeft s r q = 0 then none else (rangeL (512 * q + 16) 496).find? (tileFree s))
    match got with
    | none => reply s r (if exact_ then ccTileTaken else ccPoolEmpty)
    | some t =>
      let s := tileTaken s r.fn t
      replyWith s r ccSuccess 0 (leBytes 2 (t + 4096 * (tileGen s t).toNat))

def execBufferAlloc (src : EntrySrc) (s : State) : Host.Outcome State Fault Refusal :=
  run (.bufferAlloc src) s (fun s => serve s src (isOp 0x09) bufferAllocAct)

/-- The host address of an entry (R73). -/
def entryAddr (s : State) (r : Req) : Nat := match r.src with | .queue f q => (s.queue f q).ring.toNat + 64 * r.idx | _ => 0

/-- BUFFER-FREE (R288): the first condition of its table that holds. -/
def bufferFreeAct (s : State) (r : Req) : State :=
  let h := par r 0 16
  let t := fld h 0 12
  let y := s.tile t
  let ours := (sealers s t).any (fun c => recOwner (s.chord c).record = r.fn)
  if !fieldsOk r 0xFFFF false false false 32 32 then reply s r ccMalformed
  else if mustWait s r (t / 2048) then s
  else if t % 512 < 16 || lostDie s (t / 2048) then reply s r ccNoSuchResource
  else if (tileGen s t).toNat != fld h 12 4 || y.owner = .pool || y.retired then reply s r ccBufferNotHeld
  else if y.owner = .device && ours then reply s r ccBufferSealed
  else if y.owner != .fn r.fn then reply (violate s (reqDie r) vNotOwner (.fn r.fn) (entryAddr s r) 0 h) r ccNotOwner
  else reply (s.modTile t (fun y => { y with owner := .pool })) r ccSuccess

def execBufferFree (src : EntrySrc) (s : State) : Host.Outcome State Fault Refusal :=
  run (.bufferFree src) s (fun s => serve s src (isOp 0x0A) bufferFreeAct)

/-! ### LANE-CONFIG (R106, R282, R295) -/

/-- The pairs of register offset and value in bytes; none where bytes 2–3 of one are not 0. -/
def pairsOf : Nat → List Byte → Option (List (Nat × Word))
  | 0, _ => some []
  | n + 1, bs => if u16 bs 2 != 0 then none else (pairsOf n (bs.drop 8)).map (fun t => (u16 bs 0, w32 (u32 bs 4)) :: t)

/-- The pairs are written in order: the index of the first refused and the number refused. -/
def pairsWrite (f n : Nat) : Nat → Option Nat × Nat → State → List (Nat × Word) → (Option Nat × Nat) × State
  | _, acc, s, [] => (acc, s)
  | i, (first, k), s, (o, v) :: t =>
    let (refused, s) := laneRegWrite s (.fn f) n o (laneOff n o) v
    let s := if o = 0 && !refused then s.modLane n (fun l => { l with owner := f }) else s
    pairsWrite f n (i + 1) (if refused then (if first.isSome then first else some i, k + 1) else (first, k)) s t

/-- LANE-CONFIG kind 0. -/
def laneRegistersAct (s : State) (r : Req) : State :=
  let n := par r 4 9
  let count := par r 16 8
  if !fieldsOk r 0x00FF1FF3 false false true 32 (32 + 8 * min count 2) || par r 0 2 != 0 || count = 0 then reply s r ccMalformed
  else if !hasCap s r.fn 1 then reply s r ccCapability
  else if 384 ≤ n || (s.lane n).unit = .retired then reply s r ccNoSuchResource
  else if mustWait s r (laneDie n) then s
  else if lostDie s (laneDie n) then reply s r ccNoSuchResource
  else
    let (st, s) := streamOf s r (8 * (count - 2))
    match st with
    | .inl code => reply s r code
    | .inr bs =>
      let all := (eInline r.bytes).take (8 * count) ++ bs
      match pairsOf count all with
      | none => reply s r ccMalformed
      | some ps =>
        let frame := isFrame (s.lane n) || ps.any (fun p => p.1 = 0 && wf p.2 0 4 = 0xC)
        if all.length < 8 * count || !ps.all (fun p => laneWritable frame p.1) then reply s r ccMalformed
        else
          let ((first, k), s) := pairsWrite r.fn n 0 (none, 0) s ps
          match first with
          | none => reply s r ccSuccess
          | some i => replyWith s r ccApplyRefused 0 [w8 i, w8 k]

/-- LANE-CONFIG of kind `k`, or of a kind that is neither. -/
def isLaneConfig (k : Nat) (r : Req) : Bool := isOp 0x0B r && (par r 0 2 = k || decide (2 ≤ par r 0 2))

def execLaneConfigRegisters (src : EntrySrc) (s : State) : Host.Outcome State Fault Refusal :=
  run (.laneConfigRegisters src) s (fun s => serve s src (isLaneConfig 0) laneRegistersAct)

/-- LANE-CONFIG kind 1: a lane set. -/
def laneSetAct (s : State) (r : Req) : State :=
  let k := par r 4 8
  let m := par r 12 6
  if !fieldsOk r 0x3FFF3 false false true 32 (32 + 2 * min m 8) || par r 0 2 != 1 || 32 < m then reply s r ccMalformed
  else if !hasCap s r.fn 1 then reply s r ccCapability
  else
    let (st, s) := streamOf s r (2 * (m - 8))
    match st with
    | .inl code => reply s r code
    | .inr bs =>
      let all := (eInline r.bytes).take (2 * m) ++ bs
      let ls := (List.range m).map (fun i => u16 all (2 * i))
      if all.length < 2 * m then reply s r ccMalformed
      else if ls.any (fun n => decide (384 ≤ n) || (s.lane n).unit = .retired) then reply s r ccNoSuchResource
      else if !decide ls.Nodup || ls.any (isPartner s) then reply s r ccMalformed
      else reply (s.modPkg (fun p => { p with sets := tset {} p.sets k { members := ls } })) r ccSuccess

def execLaneConfigLaneSet (src : EntrySrc) (s : State) : Host.Outcome State Fault Refusal :=
  run (.laneConfigLaneSet src) s (fun s => serve s src (isLaneConfig 1) laneSetAct)

/-! ### NOP -/

/-- NOP completes at once. -/
def nopWork (s : State) (r : Req) : State := reply s r (if fieldsOk r 0 false false false 32 32 then ccSuccess else ccMalformed)

def execNopWorkOrder (src : EntrySrc) (s : State) : Host.Outcome State Fault Refusal :=
  run (.nopWorkOrder src) s (fun s => serve s src (isOp 0x0C) nopWork)

end Sys2Proof.Machine
end

