-- ==== Sys2Proof/Machine/Admin.lean ====
section
/-! DEFINITION. The meanings of the admin rows that concern queues, features, event rings, the black box, capabilities, the links and
twins (R257, R258, R278, R283–R285, R301, R310, R398, R421, R440, R451, R454, R463, R468). -/

namespace Sys2Proof.Machine

/-- The checks that every admin request meets first: its fields (R267), then the right it needs (R257). -/
def accepts (s : State) (r : Req) (fields right : Bool) (act : State → State) : State :=
  if !fields then reply s r ccMalformed else if !right then reply s r ccCapability else act s

/-- The request comes from the primary function (R256). -/
def isPrimary (r : Req) : Bool := r.fn = 0

/-- The request stands in a mailbox (R263). -/
def isMailbox (r : Req) : Bool := match r.src with | .mailbox _ => true | _ => false

/-! ### IDENTIFY (R284) -/

/-- The VERSION of an image (R476). -/
def imageVersion (img : List Byte) : Nat := u64 img 8

/-- The image slot `k` of a flash. -/
def flashSlot (x : Flash) (k : Bool) : Option (List Byte) := if k then x.slot1 else x.slot0

/-- The VERSION of the validated staged image, or 0. -/
def stagedVersion (s : State) : Nat :=
  let x := (s.die 0).flash
  if !x.dir.staged then 0 else match flashSlot x x.dir.stagedSlot with | some img => imageVersion img | none => 0

/-- Page 0 of IDENTIFY, its 64 listed bytes. -/
def identifyPage0 (s : State) (f : Nat) : List Byte :=
  let b := (s.die (fnPort f)).boot
  let free := ((List.range 8).map (freeTiles s)).foldl (· + ·) 0
  leBytes 2 Config.vendorId.toNat ++ leBytes 2 0x9620 ++ [0xB1, b.level, w8 f, (s.func f).caps] ++ leBytes 8 b.version.toNat ++
    leBytes 8 (stagedVersion s) ++ leBytes 2 384 ++ leBytes 2 (s.die0.lanesDead + s.die1.lanesDead) ++ leBytes 2 4096 ++ leBytes 2 2048 ++
    [w8 s.pkg.sysId.toNat, w8 (deviceRole s), w8 s.pkg.custody,
      w8 (b2n s.pkg.split + 2 * b2n s.die0.alive + 4 * b2n s.die1.alive)] ++
    leBytes 2 free ++ [w8 s.die0.otp.inForce, w8 s.die1.otp.inForce] ++ leBytes 8 s.pilot.toNat ++ leBytes 8 Config.serial.toNat ++
    [w8 ((List.range 8).foldl (fun a k => a + b2n (fnPresent s k) * 2 ^ k) 0)]

/-- Page 1 of IDENTIFY, its 128 listed bytes. -/
def identifyPage1 (s : State) : List Byte :=
  (List.range 8).flatMap (fun r =>
    [w8 (regionByte s r), 0] ++ leBytes 2 (freeTiles s r) ++ leBytes 2 (retiredTiles s r) ++ [w8 (s.region r).rows] ++ zeros 9)

/-- IDENTIFY: a page goes to B, or 32 bytes of it into the mailbox's DATA (R263). -/
def identifyAct (s : State) (r : Req) : State :=
  let page := if par r 0 8 = 0 then identifyPage0 s r.fn else identifyPage1 s
  if !fieldsOk r (if isMailbox r then 0x7FFF else 0xFF) false (!isMailbox r) false 32 32 || 1 < par r 0 8 || eB r.bytes % 64 != 0 then
    reply s r ccMalformed
  else if isMailbox r then reply (mailboxPut s r.fn 0x10 (sub page (32 * par r 8 7) 32)) r ccSuccess
  else match reqPut s r (eB r.bytes) (sub page 0 4096) with
    | (none, s) => reply s r ccSuccess
    | (some _, s) => reply s r ccDataWriteFailed

def execIdentify (src : EntrySrc) (s : State) : Host.Outcome State Fault Refusal :=
  run (.identify src) s (fun s => serve s src (isOp 0x81) identifyAct)

/-! ### CREATE-QUEUE and DESTROY-QUEUE (R266, R278, R283) -/

/-- CREATE-QUEUE: the mirror is written as 0 and the queue runs. -/
def createQueueAct (s : State) (r : Req) : State :=
  let q := par r 0 7
  let var := par r 7 1 = 1
  let size := par r 8 4
  let a := eA r.bytes
  let b := eB r.bytes
  if !fieldsOk r 0x1FFF true true false 32 32 || q = 0 || (if var then size < 6 || 14 < size else size < 4 || 12 < size) ||
    !ringOk s a (64 * 2 ^ size) || b % 4 != 0 then reply s r ccMalformed
  else if (s.queue r.fn q).st != .absent then reply s r ccQueueBusy
  else match memPut portPw s (fnParty s r.fn) b (zeros 4) .mirror true with
    | (some _, s) => reply s r ccDataWriteFailed
    | (none, s) =>
      let s := s.modQueue r.fn q (fun _ => {
        st := .running, ring := w64 a, mirror := w64 b, variable_ := var, notify := par r 12 1 = 1, sizeLog2 := size })
      reply s r ccSuccess

def execCreateQueue (src : EntrySrc) (s : State) : Host.Outcome State Fault Refusal :=
  run (.createQueue src) s (fun s => serve s src (isOp 0x82) createQueueAct)

/-- The queue becomes ABSENT, and the tags of its entries leave quarantine (R141, R278). -/
def queueAbsent (s : State) (f q : Nat) : State := (quarPassed s f q (fun _ => true)).modQueue f q (fun _ => {})

/-- Queue `q` of function `f` has started the program (R278). -/
def startedBy (f q : Nat) (o : Owner) : Bool := match o with | .entry (.queue f' q') _ => f' = f && q' = q | _ => false

/-- The START programs of a queue get a halt request (R278). -/
def queueHalts (s : State) (f q : Nat) : State :=
  let s := queuedHalted portPw s (fun _ g => startedBy f q g.owner) haltProgramReason
  (s.slots.map Prod.fst).foldl (fun s n =>
    if (s.slot n).st != .free && startedBy f q (s.slot n).owner then haltSlot portPw s n haltProgramReason else s) s

/-- A DESTROYING queue whose last completion and final mirror write are done becomes ABSENT, and its DESTROY-QUEUE completes (R278). -/
def destroyOver (s : State) (f q : Nat) : State :=
  let x := s.queue f q
  if x.st = .destroying && x.errPosted && x.flight.all (fun e => e.done || !e.effect) then
    let s := queueAbsent s f q
    match x.destroyer with
    | some (src, i) => complete portPw s src i ccSuccess 0 []
    | none => s
  else s

/-- DESTROY-QUEUE. -/
def destroyQueueAct (s : State) (r : Req) : State :=
  let q := par r 0 7
  let x := s.queue r.fn q
  if !fieldsOk r 0x7F false false false 32 32 || q = 0 then reply s r ccMalformed
  else match x.st with
    | .absent => reply s r ccNoSuchResource
    | .destroying => reply s r ccQueueBusy
    | .running => if x.head = x.tail && x.flight.isEmpty then reply (queueAbsent s r.fn q) r ccSuccess else reply s r ccQueueBusy
    | .error =>
      let s := (tookEffect s r).modQueue r.fn q (fun x => { x with st := .destroying, destroyer := some (r.src, r.idx) })
      destroyOver (queueHalts s r.fn q) r.fn q

def execDestroyQueue (src : EntrySrc) (s : State) : Host.Outcome State Fault Refusal :=
  run (.destroyQueue src) s (fun s => serve s src (isOp 0x83) destroyQueueAct)

/-! ### Features (R257, R285, R463, R468) -/

/-- The feature number, and the value of a SET. -/
def feature (r : Req) : Nat := par r 0 16
def featureValue (r : Req) : Nat := u64 r.bytes 32

/-- SET-FEATURE of a feature, or of one that no row sets. -/
def isSet (k : Nat) (r : Req) : Bool := isOp 0x84 r && (feature r = k || !([3, 4, 5].contains (feature r)))

/-- SET-FEATURE of SLEEP_POLICY with WARM_RESET as `warm`, or of a feature that no row sets. -/
def isSetSleep (warm : Bool) (r : Req) : Bool := isSet 4 r && (feature r != 4 || bit (featureValue r) 63 = warm)

/-- A SET-FEATURE: the value `ok` of a feature SET by the primary function (`package`) or by any. -/
def setFeature (package ok : Bool) (act : State → State) (s : State) (r : Req) : State :=
  accepts s r (fieldsOk r 0xFFFF false false false 32 40) (!(package || feature r = 1) || isPrimary r) (fun s =>
    if !([3, 4, 5].contains (feature r)) || !ok then reply s r ccMalformed else act s)

/-- CHORD_RESERVE is written to CLU_SCHED of all 32 clusters (R124, R285). -/
def setReserveAct (s : State) (r : Req) : State :=
  if mustWait s r (1 - reqDie r) then s
  else setFeature true (featureValue r ≤ 32) (fun s =>
    let s := (List.range 32).foldl (fun s c =>
      if isLost s (c / 16) then s
      else schedApplied (s.modCluster c (fun x => { x with schedNew := some (w32 (featureValue r)) })) c) s
    reply s r ccSuccess) s r

def execSetChordReserve (src : EntrySrc) (s : State) : Host.Outcome State Fault Refusal :=
  run (.setChordReserve src) s (fun s => serve s src (isSet 3) setReserveAct)

/-- SLEEP_POLICY (R463). -/
def setSleepAct (s : State) (r : Req) : State :=
  setFeature true (fld (featureValue r) 36 27 = 0) (fun s =>
    reply (s.modPkg (fun p => { p with sleep := w64 (featureValue r) })) r ccSuccess) s r

def execSetSleepPolicy (src : EntrySrc) (s : State) : Host.Outcome State Fault Refusal :=
  run (.setSleepPolicy src) s (fun s => serve s src (isSetSleep false) setSleepAct)

/-- WARM_RESET (R468): SUCCESS, the head mirror, then the reset; later entries of the issuing queue are not acted on. -/
def warmResetAct (s : State) (r : Req) : State :=
  setFeature true (featureValue r = 2 ^ 63) (fun s =>
    let s := (reply s r ccSuccess).modPkg (fun p => { p with warmDue := true })
    match r.src with
    | .queue f q => s.modQueue f q (fun x => { x with stopping := true })
    | _ => s) s r

def execWarmReset (src : EntrySrc) (s : State) : Host.Outcome State Fault Refusal :=
  run (.warmReset src) s (fun s => serve s src (isSetSleep true) warmResetAct)

/-- MAILBOX_NOTIFY. -/
def setNotifyAct (s : State) (r : Req) : State :=
  setFeature false (featureValue r ≤ 1) (fun s =>
    reply (s.modFunc r.fn (fun x => { x with mboxNotify := featureValue r = 1 })) r ccSuccess) s r

def execSetMailboxNotify (src : EntrySrc) (s : State) : Host.Outcome State Fault Refusal :=
  run (.setMailboxNotify src) s (fun s => serve s src (isSet 5) setNotifyAct)

/-- The CHORD_RESERVE that software reads of cluster 0, which stands for the 32 written alike (log 29). -/
def reserveValue (s : State) : Nat :=
  let x := s.cluster 0
  wf (match x.schedNew with | some w => w | none => x.sched) 0 6

/-- GET-FEATURE. -/
def getFeatureAct (s : State) (r : Req) : State :=
  if !fieldsOk r 0xFFFF false false false 32 32 then reply s r ccMalformed
  else
    let v : Option Nat := match feature r with
      | 1 => some s.pilot.toNat
      | 2 => some (s.func r.fn).caps.toNat
      | 3 => some (reserveValue s)
      | 4 => some s.pkg.sleep.toNat
      | 5 => some (b2n (s.func r.fn).mboxNotify)
      | _ => none
    match v with
    | some v => replyWith s r ccSuccess 0 (leBytes 8 v)
    | none => reply s r ccMalformed

def execGetFeature (src : EntrySrc) (s : State) : Host.Outcome State Fault Refusal :=
  run (.getFeature src) s (fun s => serve s src (isOp 0x85) getFeatureAct)

/-! ### Event rings (R301, R310) -/

/-- CREATE-EVENT-RING or, with P[4], its DESTROY. -/
def isRing (destroy : Bool) (r : Req) : Bool := isOp 0x86 r && (par r 4 1 = 1) = destroy

/-- A function's ring is created (R301): its shared sources leave service, and those asserted at that tick become pending. -/
def ringMade (s : State) (f a size : Nat) : State :=
  let s := s.modTarget f (fun g => { g with
      base := w64 a, sizeLog2 := size, live := true, tail := 0, phase := true, head := 0, seq := 0, ready := false, unread := [] })
  (s.shared.map Prod.fst).foldl (fun s n =>
    if routeTarget (s.source n) = f then sampleLevel (s.modSource n (fun x => { x with inService := false })) n else s) s

/-- CREATE-EVENT-RING. -/
def createRingAct (s : State) (r : Req) : State :=
  let size := par r 0 4
  let a := eA r.bytes
  let bytes := 16 * 2 ^ size
  if !fieldsOk r 0xF true false false 32 32 || size < 6 || 12 < size || !ringOk s a bytes then reply s r ccMalformed
  else
    let (writable, s) := if wb s.pkg.enforce r.fn then windowCheck s (4 * fnPort r.fn) r.fn a bytes rightWrite else (true, s)
    if !writable then reply s r ccMalformed
    else if (s.target r.fn).live then reply s r ccQueueBusy
    else reply (ringMade s r.fn a size) r ccSuccess

def execCreateEventRing (src : EntrySrc) (s : State) : Host.Outcome State Fault Refusal :=
  run (.createEventRing src) s (fun s => serve s src (isRing false) createRingAct)

/-- CREATE-EVENT-RING with DESTROY. -/
def destroyRingAct (s : State) (r : Req) : State :=
  if !fieldsOk r 0x10 false false false 32 32 then reply s r ccMalformed
  else if !(s.target r.fn).live then reply s r ccNoSuchResource
  else reply (ringGone s r.fn) r ccSuccess

def execDestroyEventRing (src : EntrySrc) (s : State) : Host.Outcome State Fault Refusal :=
  run (.destroyEventRing src) s (fun s => serve s src (isRing true) destroyRingAct)

/-! ### BLACKBOX-READ (R263, R283, R421) -/

/-- BLACKBOX-READ: records in index order from FIRST, wrapping after 4,095. A lost half's box is read over the side band; while that
is silent the entry waits. -/
def blackboxAct (s : State) (r : Req) : State :=
  let d := par r 0 1
  let first := par r 1 12
  let count := par r 13 13
  accepts s r (fieldsOk r 0x3FFFFFF false (!isMailbox r) false 32 32 && decide (1 ≤ count) &&
      decide (count ≤ (if isMailbox r then 1 else 4096)) && eB r.bytes % 32 = 0) (hasCap s r.fn 3) (fun s =>
    if mustWait s r d || (isLost s d && !(s.die (1 - d)).arc.sideband) then s
    else
      let bs := (List.range count).flatMap (fun i => bbxBytes s d ((first + i) % 4096))
      let x := (s.die d).bbx
      let result := leBytes 2 x.newest.toNat ++ [w8 (b2n x.frozen)]
      if isMailbox r then replyWith (mailboxPut s r.fn 0x10 bs) r ccSuccess 0 result
      else match reqPut s r (eB r.bytes) bs with
        | (none, s) => replyWith s r ccSuccess 0 result
        | (some _, s) => reply s r ccDataWriteFailed)

def execBlackboxRead (src : EntrySrc) (s : State) : Host.Outcome State Fault Refusal :=
  run (.blackboxRead src) s (fun s => serve s src (isOp 0x8A) blackboxAct)

/-! ### GRANT-CAPABILITY (R256–R258) -/

/-- GRANT-CAPABILITY. The primary function keeps every capability (log 30). -/
def grantAct (s : State) (r : Req) : State :=
  let f := par r 0 3
  let give := par r 8 8
  let take := par r 16 8
  accepts s r (fieldsOk r 0xFFFF07 false false false 32 32) (isPrimary r) (fun s =>
    if give &&& take != 0 || 32 ≤ give || 32 ≤ take then reply s r ccMalformed
    else if !fnPresent s f then reply s r ccNoSuchResource
    else if mustWait s r (fnPort f) then s
    else
      let s := if f = 0 then s else s.modFunc f (fun x => { x with caps := (x.caps ||| w8 give) &&& ~~~(w8 take) })
      replyWith s r ccSuccess 0 [(s.func f).caps])

def execGrantCapability (src : EntrySrc) (s : State) : Host.Outcome State Fault Refusal :=
  run (.grantCapability src) s (fun s => serve s src (isOp 0x8D) grantAct)

/-! ### LINK-CONFIG (R440, R451, R454) -/

/-- LINK-CONFIG of ACTION `k`, or of one that no row has. -/
def isLink (k : Nat) (r : Req) : Bool := isOp 0x8E r && (par r 0 8 = k || decide (4 ≤ par r 0 8))

/-- The checks of a LINK-CONFIG: `pmask` and `stream` are those of its ACTION. -/
def linkAct (k pmask : Nat) (stream : Bool) (act : State → Req → State) (s : State) (r : Req) : State :=
  accepts s r (fieldsOk r pmask false false stream 32 32 && par r 0 8 = k) (isPrimary r) (fun s => act s r)

/-- STATUS. -/
def linkStatusAct (s : State) (r : Req) : State :=
  replyWith s r ccSuccess 0 (leBytes 4 (fld s.pkg.reach.toNat 0 31) ++ [w8 (deviceRole s), if s.pkg.path then w8 s.pkg.hops.toNat else 0xFF])

def execLinkStatus (src : EntrySrc) (s : State) : Host.Outcome State Fault Refusal :=
  run (.linkStatus src) s (fun s => serve s src (isLink 0) (linkAct 0 0xFF false linkStatusAct))

/-- PORTS. -/
def linkPortsAct (s : State) (r : Req) : State :=
  if mustWait s r 1 then s
  else
    let s := (List.range 4).foldl (fun s p => if isLost s (p / 2) then s else portEnable portPw s p (par r (8 + p) 1 = 1)) s
    replyWith s r ccSuccess 0 [w8 ((List.range 4).foldl (fun a p => a + b2n ((s.port p).st = .up) * 2 ^ p) 0)]

def execLinkPorts (src : EntrySrc) (s : State) : Host.Outcome State Fault Refusal :=
  run (.linkPorts src) s (fun s => serve s src (isLink 1) (linkAct 1 0xFFF false linkPortsAct))

/-- An ALIAS entry of 4 bytes is no fault. -/
def aliasOk (s : State) (e : List Byte) : Bool :=
  let src := fld (u8 e 1) 0 5
  let v := u16 e 2
  decide (u8 e 0 < 128) && fld (u8 e 1) 5 2 = 0 && decide (v < 2048) && src != s.pkg.sysId.toNat && src != 31 && vertexExists v &&
    !(1312 ≤ v && v < 1440)

/-- Link vertex `k` follows another source, or none (R440): an alias that stood is cancelled first. -/
def aliasSet (s : State) (e : List Byte) : State :=
  let k := u8 e 0
  let on := bit (u8 e 1) 7
  let old := tget {} s.pkg.aliases k
  let s := if old.valid then aliasLost portPw (if reachable s old.source.toNat then subscribe s k false else s) k else s
  let new : LinkAlias := if on then { vertex := BitVec.ofNat 11 (u16 e 2), source := BitVec.ofNat 5 (u8 e 1), valid := true } else {}
  let s := s.modPkg (fun p => { p with aliases := tset {} p.aliases k new })
  if on && reachable s new.source.toNat then subscribe s k true else s

/-- The entries of `n` aliases, 4 bytes each. -/
def aliasEntries (n : Nat) (bs : List Byte) : List (List Byte) := (List.range n).map (fun i => sub bs (4 * i) 4)

/-- ALIAS: all entries are checked, then applied in order. -/
def linkAliasAct (s : State) (r : Req) : State :=
  let n := par r 8 8
  if n = 0 || 128 < n then reply s r ccMalformed
  else
    let (st, s) := streamOf s r (4 * n)
    match st with
    | .inl code => reply s r code
    | .inr bs =>
      let es := aliasEntries n bs
      if bs.length < 4 * n || !es.all (aliasOk s) then reply s r ccMalformed
      else
        let s := es.foldl aliasSet s
        replyWith s r ccSuccess 0 [w8 (es.filter (fun e => (tget {} s.pkg.aliases (u8 e 0)).live)).length]

def execLinkAlias (src : EntrySrc) (s : State) : Host.Outcome State Fault Refusal :=
  run (.linkAlias src) s (fun s => serve s src (isLink 2) (linkAct 2 0xFFFF true linkAliasAct))

/-- The port of a direct link on which the apex stands off (R450, R451): its heartbeats say it is not attached. -/
def standoffPort (s : State) : Option Nat :=
  (List.range 4).find? (fun p => let x := s.port p; (x.st = .up || x.st = .standoff) && x.peerId = 0 && !x.peerAttached)

/-- HANDBACK (R451). -/
def linkHandbackAct (s : State) (r : Req) : State :=
  match standoffPort s with
  | some p =>
    if !s.pkg.acting then reply s r ccMalformed
    else
      let s := s.modPort p (fun x => portItem x (.handback s.pkg.sysId))
      reply (retree portPw (s.modPkg (fun k => { k with acting := false, path := false }))) r ccSuccess
  | none => reply s r ccMalformed

def execLinkHandback (src : EntrySrc) (s : State) : Host.Outcome State Fault Refusal :=
  run (.linkHandback src) s (fun s => serve s src (isLink 3) (linkAct 3 0xFF false linkHandbackAct))

/-! ### TWIN-CONFIG (R37, R398) -/

/-- TWIN-CONFIG, or with P[31] its UNTWIN. -/
def isTwin (un : Bool) (r : Req) : Bool := isOp 0x8F r && (par r 31 1 = 1) = un

/-- A lane number that names no lane of the device, or one on a lost half (R13). -/
def noLane (s : State) (n : Nat) : Bool := decide (384 ≤ n) || (s.lane n).unit = .retired || lostDie s (laneDie n)

/-- The pair of a request whose die is beyond a bridge that is down, or whose primary lane is not at its idle point: the entry waits. -/
def twinWaits (s : State) (r : Req) (l t : Nat) : Bool :=
  mustWait s r (laneDie l) || mustWait s r (laneDie t) || !(gangOf s l).all (fun n => laneIdle (s.lane n))

/-- TWIN-CONFIG. -/
def twinConfigAct (s : State) (r : Req) : State :=
  let l := par r 0 9
  let t := par r 9 9
  accepts s r (fieldsOk r 0x3FFFF false false false 32 32) (isPrimary r) (fun s =>
    if noLane s l || noLane s t || laneDie l = laneDie t then reply s r ccNoSuchResource
    else if twinBad s l t then reply s r ccMalformed
    else if twinWaits s r l t then s
    else reply (twinSet s l t) r ccSuccess)

def execTwinConfig (src : EntrySrc) (s : State) : Host.Outcome State Fault Refusal :=
  run (.twinConfig src) s (fun s => serve s src (isTwin false) twinConfigAct)

/-- A pair is dissolved; the twin stays DISABLED. -/
def twinCleared (s : State) (l : Nat) : State :=
  let ls := gangOf s l
  ls.foldl (fun s n =>
    let t := (twinOf s n).other
    (s.modPkg (fun p => { p with twins := tset {} (tset {} p.twins n {}) t {} })).modLane t (fun x => { x with cfg := put x.cfg 0 4 0 })) s

/-- UNTWIN: LANE and TWIN name a pair that stands (log 31). -/
def untwinAct (s : State) (r : Req) : State :=
  let l := par r 0 9
  let t := par r 9 9
  let x := twinOf s l
  accepts s r (fieldsOk r 0x8003FFFF false false false 32 32) (isPrimary r) (fun s =>
    if noLane s l || noLane s t || laneDie l = laneDie t then reply s r ccNoSuchResource
    else if !x.valid || x.shadow || x.other != t || x.failedOver || isPartner s l then reply s r ccMalformed
    else if twinWaits s r l t then s
    else reply (twinCleared s l) r ccSuccess)

def execUntwin (src : EntrySrc) (s : State) : Host.Outcome State Fault Refusal :=
  run (.untwin src) s (fun s => serve s src (isTwin true) untwinAct)

end Sys2Proof.Machine
end

