-- ==== Sys2Proof/Machine/Firmware.lean ====
section
/-! DEFINITION. The meanings of the admin rows that concern firmware images, OTP generations and policy programs (R289–R291, R380–R386,
R475–R479, R482–R485). -/

namespace Sys2Proof.Machine

/-! ### Images (R476, R477) -/

/-- Fields of an image header. -/
def imageLength (img : List Byte) : Nat := u32 img 16
def imageSecurity (img : List Byte) : Nat := u8 img 20
def imageLevel (img : List Byte) : Byte := img.getD 21 0

/-- The first check of R477 that an image fails; 0 for a valid one. -/
def imageReject (o : Otp) (img : List Byte) (readOk : Bool) : Nat :=
  if u32 img 0 != 0x9620F1A5 || u32 img 4 != 1 then 1
  else if imageLength img < 4096 || 0x400000 < imageLength img || 64 < imageSecurity img || !allZero img 22 2 || !allZero img 265 247 then 2
  else if !Config.payloadHashOk img then 3
  else if !o.rootKey.isEmpty && !Config.signatureOk img o.rootKey then 4
  else if imageSecurity img < o.thermo then 5
  else if !readOk then 6
  else 0

/-- The boot state of a half that runs an image from a source. -/
def bootOf (img : List Byte) (source attempts : Nat) (reject : Byte) : Boot :=
  { state := 2, source := BitVec.ofNat 3 source, attempts := w8 attempts, reject := reject, version := w64 (imageVersion img)
    level := imageLevel img, secVer := imageSecurity img, image := img }

/-- The backup flash of die 1 is fitted (R483 BOOT). -/
def backupFitted (s : State) : Bool := bit (u8 (otpBytes s 1) 5) 0

/-- The dies whose flash the firmware writes (R289). -/
def flashDies (s : State) : List Nat := if backupFitted s && !isLost s 1 then [0, 1] else [0]

/-- Both halves have reached READY: the thermometer takes the SECURITY_VERSION that both run (R479). -/
def thermoRaise (s : State) : State :=
  if (s.func 0).ready && (s.func 4).ready then
    let v := min s.die0.boot.secVer s.die1.boot.secVer
    [0, 1].foldl (fun s d => s.modDie d (fun x => { x with otp := { x.otp with thermo := max x.otp.thermo v } })) s
  else s

/-! ### FIRMWARE-STAGE (R289, R475) -/

/-- The slot of the flash of die `d` that holds the image now running on either half. -/
def runningSlot (s : State) (d : Nat) : Option Bool :=
  ([s.die0.boot, s.die1.boot].find? (fun b => b.state = 2 && b.source.toNat / 2 = d)).map (fun b => b.source.toNat % 2 = 1)

/-- The slot that staging writes. -/
def stageSlot (s : State) (d : Nat) : Bool :=
  match runningSlot s d with | some k => !k | none => !(s.die d).flash.dir.active

/-- The directory of the flash of die `d` is updated (R475): the older copy is written, with SEQ + 1, and is the one in force. -/
def dirWrite (s : State) (d : Nat) (g : Dir → Dir) : State :=
  s.modDie d (fun x => { x with flash := { x.flash with dir := { g x.flash.dir with seq := x.flash.dir.seq + 1 }, older := x.flash.dir } })

/-- An image, as far as it has come, stands in the staging slot of each flash; a validated image that stood there is staged no more. -/
def stageWrite (s : State) (img : List Byte) : State :=
  (flashDies s).foldl (fun s d =>
    let k := stageSlot s d
    let s := if (s.die d).flash.dir.staged then dirWrite s d (fun x => { x with staged := false }) else s
    s.modDie d (fun x => { x with flash := if k then { x.flash with slot1 := some img } else { x.flash with slot0 := some img } })) s

/-- The final chunk has been written: the image is checked, and staged where it is valid. -/
def stageEnd (s : State) (r : Req) (img : List Byte) : State :=
  let s := s.modPkg (fun p => { p with staging := none })
  match imageReject (s.die 0).otp img true with
  | 0 => reply ((flashDies s).foldl (fun s d => dirWrite s d (fun x => { x with staged := true, stagedSlot := stageSlot s d })) s) r ccSuccess
  | k => reply (s.modDie 0 (fun x => { x with boot := { x.boot with reject := w8 k } })) r ccFirmwareRejected

/-- FIRMWARE-STAGE. -/
def firmwareStageAct (s : State) (r : Req) : State :=
  let offset := u32 r.bytes 32
  let total := u32 r.bytes 36
  let old := match s.pkg.staging with | some (t, bs) => if offset = 0 then (total, []) else (t, bs) | none => (total, [])
  accepts s r (fieldsOk r 0 false false true 32 40) (isPrimary r) (fun s =>
    if 0x400000 < total || old.1 != total || old.2.length != offset then reply s r ccMalformed
    else if backupFitted s && mustWait s r 1 then s
    else
      let (st, s) := streamOf s r (total - offset)
      match st with
      | .inl code => reply s r code
      | .inr bs =>
        let img := old.2 ++ bs
        if img.length = total then stageEnd (stageWrite s img) r img
        else if bs.length % 4096 != 0 then reply s r ccMalformed
        else reply (stageWrite (s.modPkg (fun p => { p with staging := some (total, img) })) img) r ccSuccess)

def execFirmwareStage (src : EntrySrc) (s : State) : Host.Outcome State Fault Refusal :=
  run (.firmwareStage src) s (fun s => serve s src (isOp 0x87) firmwareStageAct)

/-! ### FIRMWARE-ACTIVATE (R290, R291) -/

/-- FIRMWARE-ACTIVATE with NOW as `now`. -/
def isActivate (now : Bool) (r : Req) : Bool := isOp 0x88 r && (par r 0 1 = 1) = now

/-- The staged image becomes the one booted first (R475). -/
def activateDirs (s : State) : State :=
  (flashDies s).foldl (fun s d =>
    if (s.die d).flash.dir.staged then dirWrite s d (fun x => { x with active := x.stagedSlot, staged := false }) else s) s

/-- An activation of the staged image, with `act` what follows. -/
def activateAct (act : State → Req → State) (s : State) (r : Req) : State :=
  accepts s r (fieldsOk r 1 false false false 32 32) (isPrimary r) (fun s =>
    if !(s.die 0).flash.dir.staged then reply s r ccFirmwareRejected
    else if backupFitted s && mustWait s r 1 then s
    else act (activateDirs s) r)

/-- The VERSION now running, as RESULT. -/
def versionNow (s : State) : List Byte := leBytes 8 s.die0.boot.version.toNat

/-- FIRMWARE-ACTIVATE with NOW = 0. -/
def activateLater (s : State) (r : Req) : State := replyWith s r ccSuccess 0 (versionNow s)

def execFirmwareActivate (src : EntrySrc) (s : State) : Host.Outcome State Fault Refusal :=
  run (.firmwareActivate src) s (fun s => serve s src (isActivate false) (activateAct activateLater))

/-- A running stream stops: BUSY becomes 0, and RESUME 1 while words are left (R379). -/
def streamStopped (u : Units) : Units :=
  if wb u.ctl 5 then { u with ctl := put (put u.ctl 5 1 0) 4 1 (b2n (u.cnt != 0)) } else u

/-- A stopped stream with words left goes on: RESUME clears (R376, R379). -/
def streamResumed (u : Units) : Units :=
  if wb u.ctl 4 then { u with ctl := put (put u.ctl 4 1 0) 5 1 1 } else u

/-- Every unit operation already triggered completes, and its result lands in r (R374); a running stream stops. -/
def unitsDrained (u : Units) : Units :=
  streamStopped { u with r := u.due.foldl (fun t e => tset 0 t e.1 e.2.2) u.r, due := [], lspBusy := false }

/-- The steward leaves the context it runs: a user context's unit ports are saved (R351), that which the event context interrupted
included. -/
def ctxLeft (k : Core) : Core :=
  let u := unitsDrained k.units
  let c := if k.running = 1 then u.ectx.toNat else k.running
  let k := { k with units := u, wrote := [] }
  if c < 2 || 9 < c then k
  else
    let x := tget {} k.ctxs c
    { k with ctxs := tset {} k.ctxs c { x with saved := u, pc := if k.running = 1 then u.epc.toNat % 16384 else x.pc } }

/-- Half `d` reloads its steward pair. -/
def reloadBegins (s : State) (d : Nat) : State :=
  (s.modPkg (fun p => { p with reloading := some d })).modDie d (fun x =>
    { x with stw := { x.stw with pair := 2, core := { ctxLeft x.stw.core with running := 15 } } })

/-- The firmware of a half starts anew at bundle 0 with the image the half runs (log 39). -/
def firmwareFresh (s : State) (d : Nat) : State :=
  checkpoint (s.modDie d (fun x =>
    let k := x.stw.core
    { x with stw := { x.stw with emask := false, bpbar := false, core := { k with
      running := 0, ctxs := tdel 0 (tdel 1 k.ctxs), iram := memClear k.iram 0 0x20000
      istores := k.istores.filter (fun e => 0x20000 ≤ e.1), units := {} } } })) d

/-- A live activation begins with die 1. -/
def activateNow (s : State) (r : Req) : State :=
  let s := (tookEffect s r).modPkg (fun p => { p with activating := some (r.src, r.idx) })
  reloadBegins s (if dieUp s 1 then 1 else 0)

def execLiveActivation (src : EntrySrc) (s : State) : Host.Outcome State Fault Refusal :=
  run (.liveActivation src) s (fun s => serve s src (isActivate true) (activateAct activateNow))

/-- The image that half `d` reloads, with its source. -/
def reloadImage (s : State) (d : Nat) : Option (List Byte × Nat) :=
  let own := d = 0 || backupFitted s
  let x := (s.die (if own then d else 0)).flash
  (flashSlot x x.dir.active).map (fun img => (img, if own then 2 * d + b2n x.dir.active else 4))

/-- The live activation ends with a code (R291). -/
def activationEnds (s : State) (code : Nat) : State :=
  let a := s.pkg.activating
  let s := thermoRaise (s.modPkg (fun p => { p with activating := none, reloading := none }))
  match a with
  | some (src, i) => complete portPw s src i code 0 (if code = ccSuccess then versionNow s else [])
  | none => s

/-- A half has reloaded (R291): it runs the new image, or returns to the image it ran. -/
def halfReloaded (s : State) (d : Nat) (ok : Bool) : State :=
  if s.pkg.reloading != some d then s
  else
    let s := s.modDie d (fun x => { x with stw := { x.stw with pair := if x.stw.pair = 2 then 0 else x.stw.pair } })
    let s := resetsFollow portPw (firmwareFresh (s.modPkg (fun p => { p with reloading := none })) d) d
    if !ok then activationEnds s ccFirmwareRejected
    else
      let s := match reloadImage s d with
        | some (img, k) => s.modDie d (fun x => { x with boot := bootOf img k 1 0 })
        | none => s
      if d = 1 && dieUp s 0 then reloadBegins s 0 else activationEnds s ccSuccess

def execHalfReloadDone (d : Nat) (ok : Bool) (s : State) : Host.Outcome State Fault Refusal :=
  run (.halfReloadDone d ok) s (fun s => halfReloaded s d ok)

/-! ### OTP-COMMIT (R482–R485) -/

/-- ROOT_KEY_HASH of a customer generation. -/
def genRootKey (g : List Byte) : List Byte := sub g 308 48

/-- The checks of R485 on a generation, for a die's OTP. -/
def generationOk (o : Otp) (g : List Byte) : Bool :=
  u32 g 0 = 0x4E474C58 && u8 g 4 = 1 && fld (u8 g 5) 1 7 = 0 && fld (u8 g 6) 0 1 = 0 && fld (u8 g 6) 4 1 = 0 && u8 g 7 = 0 && allZero g 14 2 &&
  (List.range 4).all (fun i => fld (u16 g (216 + 2 * i)) 13 3 = 0) &&
  (List.range 4).all (fun p => fld (u8 g (224 + p)) 1 3 = 0) &&
  (List.range 16).all (fun i => fld (u16 g (228 + 2 * i)) 11 4 = 0) &&
  (List.range 12).all (fun i => fld (u32 g (260 + 4 * i)) 18 13 = 0) &&
  allZero g 356 20 && u32 g 376 = 0 && u32 g 380 = (accResult (accFeed (accInit 2) (g.take 376))).toNat &&
  (allZero g 308 48 || o.rootKey.isEmpty || genRootKey g = o.rootKey)

/-- The generations a die has not used. -/
def gensUnused (o : Otp) : List Nat := (rangeL 1 4).filter (fun g => !(tget {} o.gens g).used)

/-- A die programs a generation in its lowest unused places until one verifies (R485); `verify` says which attempts do. -/
def otpProgram (g : List Byte) : List Nat → List Bool → Otp → Nat × Otp
  | [], _, o => (0, o)
  | k :: rest, verify, o =>
    let ok := verify.headD true
    let o := { o with gens := tset {} o.gens k { bytes := splice g 376 (leBytes 4 0x5A3CC3A5), used := true, committed := ok } }
    if ok then (k, { o with rootKey := if allZero g 308 48 then o.rootKey else genRootKey g }) else otpProgram g rest verify.tail o

/-- OTP-COMMIT. -/
def otpCommitAct (verify0 verify1 : List Bool) (s : State) (r : Req) : State :=
  accepts s r (fieldsOk r 0 false false true 32 32) (isPrimary r) (fun s =>
    if s.pkg.split || mustWait s r (1 - reqDie r) then s
    else
      let (st, s) := streamOf s r 384
      match st with
      | .inl code => reply s r code
      | .inr g =>
        let there (d : Nat) : Bool := !isLost s d
        if g.length < 384 || !([0, 1].all (fun d => !there d || generationOk (s.die d).otp g)) then reply s r ccMalformed
        else if [0, 1].any (fun d => there d && (gensUnused (s.die d).otp).isEmpty) then reply s r ccOtpExhausted
        else
          let one (d : Nat) (v : List Bool) (s : State) : Nat × State :=
            if there d then
              let (k, o) := otpProgram g (gensUnused (s.die d).otp) v (s.die d).otp
              (k, s.modDie d (fun x => { x with otp := o }))
            else (0, s)
          let (k0, s) := one 0 verify0 s
          let (k1, s) := one 1 verify1 s
          if (there 0 && k0 = 0) || (there 1 && k1 = 0) then reply s r ccOtpExhausted
          else replyWith s r ccSuccess 0 [w8 (k0 + 16 * k1)])

def execOtpCommit (src : EntrySrc) (verify0 verify1 : List Bool) (s : State) : Host.Outcome State Fault Refusal :=
  run (.otpCommit src verify0 verify1) s (fun s => serve s src (isOp 0x89) (otpCommitAct verify0 verify1))

/-! ### Policy images (R380, R381) -/

/-- The grants of a policy image, by number. -/
def policyGrant (b : List Byte) (i : Nat) : Grant :=
  let k := 48 + 16 * i
  { first := u32 b k, last := u32 b (k + 4), read := bit (u8 b (k + 8)) 0, write := bit (u8 b (k + 8)) 1 }

/-- A port address that a READ grant may cover, on die `d` for function `f`. -/
def grantRead (s : State) (d f off : Nat) : Bool :=
  if off < 0x100000 then
    (0x2000 ≤ off && off < 0x3000) || (0x10000 ≤ off && off < 0x20000) || (0x30000 ≤ off && off < 0x40000)
  else if 0x500000 ≤ off then false
  else
    let o := (off - 0x100000) % 0x100000
    let c := 16 * d + 4 * ((off - 0x100000) / 0x100000) + o / 0x40000
    let k := o % 0x40000
    if 0x1000 ≤ k && k < 0x1C00 then (s.lane (12 * c + (k - 0x1000) / 256)).owner = f
    else 0x20000 ≤ k && k < 0x28000 && (
      let x := s.chord (128 * c + (k - 0x20000) / 256)
      x.st != .disarmed && recOwner x.record = f)

/-- A port address that a WRITE grant may cover, for a context that takes `meters`. -/
def grantWrite (s : State) (d f : Nat) (meters : List Nat) (off : Nat) : Bool :=
  if 0x30000 ≤ off && off < 0x34000 then
    (off % 256 < 0x20 || off % 256 = 0x40) && meters.contains (64 * d + (off - 0x30000) / 256)
  else if off < 0x100000 || 0x500000 ≤ off then false
  else
    let o := (off - 0x100000) % 0x100000
    let c := 16 * d + 4 * ((off - 0x100000) / 0x100000) + o / 0x40000
    let k := o % 0x40000
    0x1000 ≤ k && k < 0x1C00 && k % 256 = 0x30 && (s.lane (12 * c + (k - 0x1000) / 256)).owner = f

/-- A grant of an image is in range and covers only what its rights allow. -/
def grantOk (s : State) (d f : Nat) (meters : List Nat) (g : Grant) : Bool :=
  g.first % 4 = 0 && g.last % 4 = 3 && decide (g.first ≤ g.last) && decide (g.last < 0x1000000) &&
  ((rangeL (g.first / 4) ((g.last + 1 - g.first) / 4)).all (fun w =>
    (!g.read || grantRead s d f (4 * w)) && (!g.write || grantWrite s d f meters (4 * w))))

/-- The lowest place for `n` units between `lo` and `hi` beside the ranges in use (log 32). -/
def placeFor (used : List (Nat × Nat)) (lo hi n : Nat) : Option Nat :=
  ((lo :: used.map (fun e => e.1 + e.2)).filter (fun b =>
    lo ≤ b && b + n ≤ hi && used.all (fun e => b + n ≤ e.1 || e.1 + e.2 ≤ b || e.2 = 0 || n = 0))).min?

/-- The header of a policy image is in range (R381), for context `c` of die `d` loaded by function `f`. -/
def policyHeaderOk (s : State) (d c f : Nat) (b : List Byte) (meters : List Nat) : Bool :=
  let gs := (List.range 8).filter (fun i => !allZero b (48 + 16 * i) 16)
  let old := userCtx (s.die d).stw.core c
  u32 b 0 = 0x4C504C4B && u8 b 4 = 1 && decide (u8 b 5 ≤ 8) && fld (u8 b 7) 1 7 = 0 && decide (1 ≤ u32 b 8) && decide (u32 b 8 ≤ 4096) &&
  decide (u32 b 12 ≤ 65536) && u32 b 12 % 64 = 0 && decide (u32 b 16 < u32 b 8) && allZero b 20 4 && allZero b 40 8 && u8 b 5 = gs.length &&
  gs.all (fun i => fld (u8 b (56 + 16 * i)) 2 6 = 0 && allZero b (57 + 16 * i) 7 && grantOk s d f meters (policyGrant b i)) &&
  meters.all (fun m => m / 64 = d && (
    let o := (s.meter m).owner
    o = 15 || o = f || (old.meters.contains m && old.loader = f)))

/-- The ranges of the other contexts of a pair in the user partitions. -/
def codeUsed (x : Core) (c : Nat) : List (Nat × Nat) :=
  ((List.range 8).filter (· != c)).map (fun k => ((userCtx x k).codeBase, (userCtx x k).codeLen))
def dataUsed (x : Core) (c : Nat) : List (Nat × Nat) :=
  ((List.range 8).filter (· != c)).map (fun k => ((userCtx x k).dataBase / 64, ((userCtx x k).dataLen + 63) / 64))

/-- An image is placed in the user partitions and the context is LOADED. -/
def policyPlaced (s : State) (d c f : Nat) (b : List Byte) (meters : List Nat) (cb db : Nat) : State :=
  let code := 16 * u32 b 8
  let data := u32 b 12
  let s := ctxUnload s d c
  let s := meters.foldl (fun s m => s.modMeter m (fun y => { y with owner := 8 })) s
  let s := stwPut (stwPut s d false (16 * cb) (sub b 176 code)) d true (64 * db) (sub b (176 + code) data)
  let s := modCtx s d c (fun x => { x with
    st := .loaded, loader := f, codeBase := cb, codeLen := u32 b 8, dataBase := 64 * db, dataLen := data, entry := u32 b 16
    grants := ((List.range 8).filter (fun i => !allZero b (48 + 16 * i) 16)).map (policyGrant b), meters := meters
    faultVertex := b.getD 6 0, faultSignal := bit (u8 b 7) 0 })
  checkpoint s d

/-- POLICY-LOAD. -/
def policyLoadAct (s : State) (r : Req) : State :=
  let d := par r 0 1
  let c := par r 1 3
  accepts s r (fieldsOk r 0xF false false true 32 32) (hasCap s r.fn 4) (fun s =>
    if mustWait s r d then s
    else if lostDie s d then reply s r ccNoSuchResource
    else
      let st := (userCtx (s.die d).stw.core c).st
      if st = .running || st = .waiting then reply s r ccQueueBusy
      else
        let (h, s) := streamOf s r 176
        match h with
        | .inl code => reply s r code
        | .inr b =>
          if b.length < 176 then reply s r ccMalformed
          else
            let meters := (List.range 128).filter (fun m => bit (u8 b (24 + m / 8)) (m % 8))
            if !policyHeaderOk s d c r.fn b meters then reply s r ccPolicyRejected
            else
              let need := 176 + 16 * u32 b 8 + u32 b 12
              let (h, s) := streamOf s r need
              match h with
              | .inl code => reply s r code
              | .inr b =>
                if b.length < need then reply s r ccMalformed
                else
                  let x := (s.die d).stw.core
                  match placeFor (codeUsed x c) 8192 16384 (u32 b 8), placeFor (dataUsed x c) 4096 8192 (u32 b 12 / 64) with
                  | some cb, some db => reply (policyPlaced s d c r.fn b meters cb db) r ccSuccess
                  | _, _ => reply s r ccPolicyRejected)

def execPolicyLoad (src : EntrySrc) (s : State) : Host.Outcome State Fault Refusal :=
  run (.policyLoad src) s (fun s => serve s src (isOp 0x8B) policyLoadAct)

/-! ### POLICY-CONTROL (R382) -/

/-- POLICY-CONTROL of ACTION `k`. -/
def isPolicy (k : Nat) (r : Req) : Bool := isOp 0x8C r && par r 4 2 = k

/-- The checks of POLICY-CONTROL, with `act` its action on a context that is not EMPTY. -/
def policyAct (act : Nat → Nat → State → Req → State) (s : State) (r : Req) : State :=
  let d := par r 0 1
  let c := par r 1 3
  accepts s r (fieldsOk r 0x3F false false false 32 32) (hasCap s r.fn 4) (fun s =>
    if mustWait s r d then s
    else if lostDie s d || (par r 4 2 != 3 && (userCtx (s.die d).stw.core c).st = .empty) then reply s r ccNoSuchResource
    else act d c s r)

/-- POLICY-CONTROL completes with the context's state. -/
def policyReply (d c : Nat) (s : State) (r : Req) : State :=
  replyWith s r ccSuccess 0 [w8 (ctxCode (userCtx (s.die d).stw.core c).st)]

/-- Start: RUNNING from ENTRY with its registers, predicates and saved ports cleared. -/
def policyStartAct (d c : Nat) (s : State) (r : Req) : State :=
  let st := (userCtx (s.die d).stw.core c).st
  let s := if st = .loaded || st = .faulted then
      let s := modCtx s d c (fun x => { x with
        st := .running, pc := x.entry, g := [], p := [], saved := {}, wait := none, sysR := none, fault := 0, delay := none, squash := false })
      checkpoint s d
    else s
  policyReply d c s r

def execPolicyStart (src : EntrySrc) (s : State) : Host.Outcome State Fault Refusal :=
  run (.policyStart src) s (fun s => serve s src (isPolicy 0) (policyAct policyStartAct))

/-- A context stops (R382): LOADED, and the steward runs it no longer. -/
def ctxStopped (s : State) (d c : Nat) : State :=
  let s := modCtx s d c (fun x => { x with st := .loaded, wait := none, fault := 0 })
  let s := s.modDie d (fun x =>
    let k := x.stw.core
    if k.running = 2 + c then
      { x with stw := { x.stw with core := { k with
        running := 15, units := { k.units with due := [], lspBusy := false, ctl := put k.units.ctl 5 1 0 } } } }
    else if k.running = 1 && k.units.ectx.toNat = 2 + c then
      { x with stw := { x.stw with core := { k with units := { k.units with ectx := 0xF } } } }
    else x)
  checkpoint s d

/-- Stop. -/
def policyStopAct (d c : Nat) (s : State) (r : Req) : State := policyReply d c (ctxStopped s d c) r

def execPolicyStop (src : EntrySrc) (s : State) : Host.Outcome State Fault Refusal :=
  run (.policyStop src) s (fun s => serve s src (isPolicy 1) (policyAct policyStopAct))

/-- Unload: it completes after every submission of the context has. -/
def policyUnloadAct (d c : Nat) (s : State) (r : Req) : State :=
  let s := ctxStopped s d c
  if (userCtx (s.die d).stw.core c).subs.isEmpty then policyReply d c (ctxUnload s d c) r
  else modCtx (tookEffect s r) d c (fun x => { x with leaving := some (r.src, r.idx) })

def execPolicyUnload (src : EntrySrc) (s : State) : Host.Outcome State Fault Refusal :=
  run (.policyUnload src) s (fun s => serve s src (isPolicy 2) (policyAct policyUnloadAct))

/-- Status. -/
def execPolicyStatus (src : EntrySrc) (s : State) : Host.Outcome State Fault Refusal :=
  run (.policyStatus src) s (fun s => serve s src (isPolicy 3) (policyAct policyReply))

end Sys2Proof.Machine
end

