-- ==== Sys2Proof/Machine/QueueCmds.lean ====
section
/-! DEFINITION. The meanings of the rows of the mailbox, the doorbells, the queue front ends, the head mirror, the admin queue's switch
and bus mastering (R255, R263, R265, R270–R276). -/

namespace Sys2Proof.Machine

/-- The party has a way to the mailbox of function `f` (R54, R193, R194): the function itself, or a target lane that serves it. -/
def mailboxReach (s : State) (who : Who) (f : Nat) : Bool :=
  dieUp s (fnPort f) && fnPresent s f && (match who with
  | .fn g => g = f
  | .oob n => laneOn (s.lane n) && isTargetMailbox (personality (s.lane n)) && wf (s.lane n).tgt 8 3 = f
  | .steward _ => false)

def execMailboxRequest (who : Who) (f : Nat) (value : Word) (s : State) : Host.Outcome State Fault Refusal :=
  run (.mailboxRequest who f value) s (fun s =>
    if mailboxReach s who f then mailboxWrite s who f 15 (leBytes 4 value.toNat) else s)

def execDoorbell (f q : Nat) (value : Word) (s : State) : Host.Outcome State Fault Refusal :=
  run (.doorbell f q value) s (fun s => if dieUp s (fnPort f) && fnPresent s f then doorbellWrite s f q value else s)

/-! ### Entry fetch (R271, R275) -/

/-- The front end of the function's port may fetch for it (R133, R147, R255, R466). -/
def mayFetch (s : State) (f : Nat) : Bool :=
  serves s f && !(s.func f).stateBad && portUp s (fnPort f) && masters s f && !(s.func f).inReset && s.pkg.warmAt.isNone

/-- An entry of a queue lies before its tail and may be fetched (R265, R276, R468). -/
def queueOffers (s : State) (f q : Nat) : Bool :=
  let x := s.queue f q
  x.st = .running && !x.stopping && x.fetch != x.tail && (q != 0 || (s.func f).adminNew.isNone)

/-- A read of the front end (R144, R266). -/
def fetchGet (s : State) (p : Party) (a n : Nat) : Got × State :=
  match accessFail s p a n rightFetch with
  | (some f, s) => (.bad f, s)
  | (none, s) => rawRead s p a n

/-- `n` units of a ring from index `i`, in ring order; none where a read fails. -/
def unitsGet (f : Nat) (x : Queue) : Nat → Nat → State → List Byte → Option (List Byte) × State
  | 0, _, s, acc => (some acc, s)
  | n + 1, i, s, acc =>
    match fetchGet s (fnParty s f) (x.ring.toNat + 64 * (i % 2 ^ x.sizeLog2)) 64 with
    | (.ok bs, s) => unitsGet f x n (i + 1) s (acc ++ bs)
    | (.bad _, s) => (none, s)

/-- A malformed entry: a code is written into it, and its queue goes into ERROR. -/
def entryBad (s : State) (f q reason : Nat) (code : Option Nat) : State :=
  let x := s.queue f q
  let s := match code with
    | some c => (memPut portPw s (fnParty s f) (x.ring.toNat + 64 * x.fetch + 48) (completionBytes c 0 []) .completion true).2
    | none => s
  queueFail s f q (w8 reason) x.fetch

/-- The next entry of a queue is fetched; none where none is available: a variable entry whose units do not all lie before the tail
waits. -/
def takeEntry (s : State) (f q : Nat) : Option State :=
  let x := s.queue f q
  let n := 2 ^ x.sizeLog2
  if !queueOffers s f q then none
  else match unitsGet f x 1 x.fetch s [] with
    | (none, s) => some (entryBad s f q 5 none)
    | (some e, s) =>
      let len := if x.variable_ then eLen e else 1
      if !eOwn e then some (entryBad s f q 1 none)
      else if len = 0 || 64 < len then some (entryBad s f q 2 (some ccMalformed))
      else if n - 1 < len then some (entryBad s f q 3 (some ccLengthExceedsRing))
      else if (x.tail + n - x.fetch) % n < len then none
      else match unitsGet f x (len - 1) (x.fetch + 1) s [] with
        | (none, s) => some (entryBad s f q 5 none)
        | (some body, s) =>
          some ((s.modPkg (fun p => { p with fetched := p.fetched + 1 })).modQueue f q (fun x => { x with
            flight := x.flight ++ [{
              order := s.pkg.fetched, tick := s.edges, idx := x.fetch, len := len, bytes := e, body := body, effect := false, done := false }]
            fetch := (x.fetch + len) % n }))

/-- The first of some queues that has an entry available gives it; a work queue hands the turn to the next. -/
def fetchFirst (s : State) (f : Nat) : List Nat → State
  | [] => s
  | q :: rest => match takeEntry s f q with
    | some s => if q = 0 then s else s.modFunc f (fun x => { x with rr := if q = 127 then 1 else q + 1 })
    | none => fetchFirst s f rest

/-- Function `f` has an entry that the front end may fetch. -/
def fnOffers (s : State) (f : Nat) : Bool := mayFetch s f && (List.range 128).any (fun q => (takeEntry s f q).isSome)

/-- The function whose turn it is at the front end of port `p` (R271): the first in the round that has an entry. -/
def frontTurn (s : State) (p : Nat) : Option Nat :=
  ((List.range 4).map (fun i => 4 * p + ((s.die p).frontRr + i) % 4)).find? (fnOffers s)

/-- The turn of function `f` (R271), where it is its: its admin queue first, else its work queues in turn. -/
def entryFetch (s : State) (f : Nat) : State :=
  let k := (s.func f).rr
  if frontTurn s (fnPort f) = some f then
    (fetchFirst s f (0 :: (rangeL k (128 - k) ++ rangeL 1 (k - 1)))).modDie (fnPort f) (fun x => { x with frontRr := (f + 1) % 4 })
  else s

def execEntryFetch (f : Nat) (s : State) : Host.Outcome State Fault Refusal := run (.entryFetch f) s (fun s => entryFetch s f)

/-! ### The head mirror, the admin queue and bus mastering (R255, R265, R274, R278) -/

def execHeadPublish (f q : Nat) (s : State) : Host.Outcome State Fault Refusal :=
  run (.headPublish f q) s (fun s => if dieUp s (fnPort f) then destroyOver (headPublish s f q) f q else s)

/-- A write of FN_ADMIN_CTRL through BAR0 with ENABLE as `on`. -/
def adminWrite (s : State) (f : Nat) (v : Word) (on : Bool) : State :=
  if dieUp s (fnPort f) && fnPresent s f && wb v 0 = on then adminCtrlWrite s (.fn f) f v else s

def execAdminEnable (f : Nat) (value : Word) (s : State) : Host.Outcome State Fault Refusal :=
  run (.adminEnable f value) s (fun s => adminWrite s f value true)
def execAdminDisable (f : Nat) (value : Word) (s : State) : Host.Outcome State Fault Refusal :=
  run (.adminDisable f value) s (fun s => adminWrite s f value false)

/-- The function's D-state, its Bus Master Enable and its BARs change (R63); once it masters the bus, what was held is written in order
(R255). BAR2 is function 0's alone (R55). -/
def busMaster (s : State) (f : Nat) (d0 bme : Bool) (bar0 bar2 : Option DWord) : State :=
  let s := s.modFunc f (fun x => { x with d0 := d0, bme := bme, bar0 := bar0, bar2 := if f = 0 then bar2 else none })
  if masters s f && portUp s (fnPort f) then
    let held := (s.func f).held
    held.foldl postOut (s.modFunc f (fun x => { x with held := [] }))
  else s

def execBusMasterChange (f : Nat) (d0 bme : Bool) (bar0 bar2 : Option DWord) (s : State) : Host.Outcome State Fault Refusal :=
  run (.busMasterChange f d0 bme bar0 bar2) s (fun s => busMaster s f d0 bme bar0 bar2)

end Sys2Proof.Machine
end

