-- ==== Sys2Proof/Machine/Steward.lean ====
section
/-! DEFINITION. The steward pair: bundles and their moves, the units, the stream, its contexts and their switches, the event
context, and checkpoint rollback (R348–R391). -/

namespace Sys2Proof.Machine

/-! ### Fields of a bundle (R353–R355) -/

/-- One move slot. -/
structure Move where
  neg : Bool
  pred : Nat
  src : Nat
  dst : Nat
  ext : Nat
  deriving DecidableEq, Repr

/-- Slot `i` of a bundle. -/
def moveOf (b i : Nat) : Move :=
  let v := fld b (40 * i) 40
  { neg := bit v 39, pred := fld v 36 3, src := fld v 24 12, dst := fld v 12 12, ext := fld v 0 12 }

/-- The slots of a bundle. -/
def movesOf (b : Nat) : List Move := [moveOf b 0, moveOf b 1, moveOf b 2]

/-- The unit that a trigger socket starts, with the operation (R358, R359). -/
def trigOf (sock : Nat) : Option (Nat × Nat) :=
  if 0x200 ≤ sock && sock < 0x4C0 && 0x20 ≤ sock % 0x40 then some ((sock - 0x200) / 0x40, sock % 0x40 - 0x20) else none

/-- The unit port that a socket names: unit and offset. -/
def portOf (sock : Nat) : Option (Nat × Nat) :=
  if 0x200 ≤ sock && sock < 0x4C0 && sock % 0x40 < 0x20 then some ((sock - 0x200) / 0x40, sock % 0x40) else none

/-- An operation code the unit has (R360). -/
def opOk (u op : Nat) : Bool :=
  match u with
  | 0 | 1 => decide (op ≤ 12)
  | 2 | 3 | 8 => decide (op ≤ 3)
  | 4 => decide (op ≤ 5)
  | 5 | 7 => op % 8 = 0 || op % 8 = 5
  | 6 => true
  | 9 => decide (op ≤ 1)
  | _ => decide (op ≤ 8)

/-- A port a move may read (R359). -/
def portReads (u o : Nat) : Bool :=
  decide (o ≤ 2) || (o = 3 && (u = 5 || u = 6 || u = 7 || u = 9 || u = 10)) || (o = 4 && (u = 9 || u = 10)) || (o = 5 && u = 10)

/-- A port a move may write: r in privileged contexts only (R375). -/
def portWrites (priv : Bool) (u o : Nat) : Bool :=
  decide (o ≤ 1) || (o = 2 && priv) || (o = 3 && (u = 5 || u = 6 || u = 7 || u = 9 || u = 10)) || (o = 4 && u = 9)

/-- A source socket (R355, R358). -/
def srcOk (m : Move) : Bool :=
  if 0x800 ≤ m.src then true
  else m.ext = 0 && (decide (m.src < 0x48) || (match portOf m.src with | some (u, o) => portReads u o | none => false))

/-- A destination socket. -/
def dstOk (priv : Bool) (m : Move) : Bool :=
  decide (m.dst < 0x48) || (decide (0x100 ≤ m.dst) && decide (m.dst < 0x140)) ||
  (match portOf m.dst with | some (u, o) => portWrites priv u o | none => false) ||
  (match trigOf m.dst with | some (u, op) => opOk u op | none => false)

/-- The source of a branch is an immediate, a register or BRU.r (R368). -/
def branchSrcOk (m : Move) : Bool := 0x800 ≤ m.src || m.src < 0x40 || m.src = 0x402

/-- The move names a BRU trigger. -/
def isBranch (m : Move) : Bool := match trigOf m.dst with | some (u, _) => u = 8 | none => false

/-! ### Fault codes (R385) -/

abbrev fIllegal : Byte := 0x01
abbrev fSocket : Byte := 0x02
abbrev fMode : Byte := 0x03
abbrev fDouble : Byte := 0x04
abbrev fDelay : Byte := 0x05
abbrev fFetch : Byte := 0x06
abbrev fData : Byte := 0x07
abbrev fPort : Byte := 0x08
abbrev fAlign : Byte := 0x09
abbrev fUe : Byte := 0x0A
abbrev fVertex : Byte := 0x0B
abbrev fCount : Byte := 0x0C

/-- The checks of D (R357), in the order of the table, for a bundle; `slot` when it is a delay slot. -/
def decodeFault (priv slot : Bool) (b : Nat) : Option Byte :=
  let ms := movesOf b
  if fld b 120 2 != 1 || fld b 122 5 != 0 then some fIllegal
  else if !ms.all (fun m => srcOk m && dstOk priv m && (!isBranch m || branchSrcOk m)) then some fSocket
  else if 1 < (ms.filter isBranch).length then some fIllegal
  else if slot && ms.any isBranch then some fDelay
  else none

/-- Two moves of one bundle that collide (R356, R357): `a` stands in the lower slot. -/
def collide (a b : Move) : Bool :=
  match trigOf a.dst, trigOf b.dst with
  | some (u, _), some (v, _) => u = v
  | none, none => a.dst = b.dst || (0x100 ≤ a.dst && a.dst < 0x140 && b.dst + 0x100 = a.dst)
  | _, _ => false

/-- The check of E1 on the moves whose guards are true. -/
def doubleWrite : List Move → Bool
  | [] => false
  | m :: l => l.any (collide m) || doubleWrite l

/-! ### What a move reads and writes (R354–R356, R366) -/

/-- A predicate: p0 always reads 1. -/
def predOf (x : Ctx) (p : Nat) : Bool := p = 0 || tget false x.p p

/-- The guard of a move (R354). -/
def guardOf (x : Ctx) (m : Move) : Bool := predOf x m.pred != m.neg

/-- A unit port as a move reads it. -/
def portValue (u : Units) (unit o : Nat) : Word :=
  if o = 0 then tget 0 u.o1 unit
  else if o = 1 then tget 0 u.o2 unit
  else if o = 2 then tget 0 u.r unit
  else if unit = 9 then (if o = 3 then u.cnt else u.ctl)
  else if unit = 10 then (if o = 3 then u.epc else if o = 4 then u.ectx else u.thi)
  else tget 0 u.sc unit

/-- The value of a source socket. -/
def srcValue (x : Ctx) (u : Units) (m : Move) : Word :=
  if 0x800 ≤ m.src then (BitVec.ofNat 23 (m.src % 2048 * 4096 + m.ext)).signExtend 32
  else if m.src < 0x40 then tget 0 x.g m.src
  else if m.src < 0x48 then w32 (b2n (predOf x (m.src - 0x40)))
  else match portOf m.src with
    | some (unit, o) => portValue u unit o
    | none => 0

/-- A unit port takes a value: sc has 2 bits, CTL.BUSY is read-only (R359, R378). -/
def portTake (u : Units) (unit o : Nat) (v : Word) : Units :=
  if o = 0 then { u with o1 := tset 0 u.o1 unit v }
  else if o = 1 then { u with o2 := tset 0 u.o2 unit v }
  else if o = 2 then { u with r := tset 0 u.r unit v }
  else if unit = 9 then (if o = 3 then { u with cnt := v } else { u with ctl := w32 (wf v 0 5 + 32 * wf u.ctl 5 1) })
  else if unit = 10 then { u with epc := w32 (wf v 0 14) }
  else { u with sc := tset 0 u.sc unit (w32 (wf v 0 2)) }

/-- A destination that is no trigger takes a value (R358). -/
def dstTake (x : Ctx) (u : Units) (sock : Nat) (v : Word) : Ctx × Units :=
  if sock < 0x40 then ({ x with g := tset 0 x.g sock v }, u)
  else if sock < 0x48 then ((if sock = 0x40 then x else { x with p := tset false x.p (sock - 0x40) (wb v 0) }), u)
  else if sock < 0x140 then
    ({ x with g := tset 0 x.g (sock - 0x100) (put (tget 0 x.g (sock - 0x100)) 16 16 v.toNat) }, u)
  else match portOf sock with
    | some (unit, o) => (x, portTake u unit o v)
    | none => (x, u)

/-- The registers and ports after the moves of a bundle, sources read before (R356). -/
def movesTake (x : Ctx) (u : Units) (vs : List (Nat × Word)) : Ctx × Units :=
  vs.foldl (fun a e => dstTake a.1 a.2 e.1 e.2) (x, u)

/-! ### Unit results (R360) -/

/-- A signed value saturated to 32 bits. -/
def satS (i : Int) : Word := iw32 (if 2147483647 < i then 2147483647 else if i < -2147483648 then -2147483648 else i)

/-- ALU0 and ALU1. -/
def aluOp (op : Nat) (a v : Word) : Word :=
  match op with
  | 0 => a + v
  | 1 => a - v
  | 2 => a &&& v
  | 3 => a ||| v
  | 4 => a ^^^ v
  | 5 => a &&& ~~~v
  | 6 => v
  | 7 => if sx a ≤ sx v then a else v
  | 8 => if sx a ≤ sx v then v else a
  | 9 => if a.toNat ≤ v.toNat then a else v
  | 10 => if a.toNat ≤ v.toNat then v else a
  | 11 => satS (sx a + sx v)
  | _ => satS (sx a - sx v)

/-- MUL; mulq rounds halves upward (R238). -/
def mulOp (op : Nat) (a v : Word) : Word :=
  match op with
  | 0 => a * v
  | 1 => iw32 (sx a * sx v / 4294967296)
  | 2 => w32 (a.toNat * v.toNat / 4294967296)
  | _ => satS ((sx a * sx v + 32768) / 65536)

/-- SHF. -/
def shfOp (op : Nat) (a v : Word) : Word :=
  let n := wf v 0 5
  match op with
  | 0 => a <<< n
  | 1 => a >>> n
  | 2 => a.sshiftRight n
  | _ => a.rotateLeft n

/-- CMP. -/
def cmpOp (op : Nat) (a v : Word) : Word :=
  w32 (b2n (match op with
    | 0 => a == v
    | 1 => a != v
    | 2 => decide (sx a < sx v)
    | 3 => decide (sx v ≤ sx a)
    | 4 => decide (a.toNat < v.toNat)
    | _ => decide (v.toNat ≤ a.toNat)))

/-- The address a load or store uses (R362), from the ports of its unit. -/
def lsAddr (u : Units) (unit mode : Nat) (v : Word) : Nat :=
  let o1 := tget 0 u.o1 unit
  match mode with
  | 0 => (o1 + v).toNat
  | 1 => o1.toNat
  | 2 => (o1 - v).toNat
  | _ => (o1 + (v <<< (tget 0 u.sc unit).toNat)).toNat

/-- o1 of the unit after the access. -/
def lsBase (u : Units) (unit mode : Nat) (v : Word) : Units :=
  let o1 := tget 0 u.o1 unit
  match mode with
  | 1 => { u with o1 := tset 0 u.o1 unit (o1 + v) }
  | 2 => { u with o1 := tset 0 u.o1 unit (o1 - v) }
  | _ => u

/-- Bytes that an access KIND moves. -/
def kindSize (kind : Nat) : Nat :=
  match kind with
  | 0 | 5 => 4
  | 1 | 2 | 6 => 2
  | _ => 1

/-- The value a load KIND makes of its bytes. -/
def kindValue (kind : Nat) (bs : List Byte) : Word :=
  let n := leNat bs
  match kind with
  | 2 => (BitVec.ofNat 16 n).signExtend 32
  | 4 => (BitVec.ofNat 8 n).signExtend 32
  | _ => w32 n

/-! ### The pair's state -/

/-- Changes a steward pair. -/
def modStw (s : State) (d : Nat) (f : Stw → Stw) : State := s.modDie d (fun x => { x with stw := f x.stw })
/-- Changes its core state. -/
def modCore (s : State) (d : Nat) (f : Core → Core) : State := modStw s d (fun x => { x with core := f x.core })
/-- The core state of a pair. -/
def coreOf (s : State) (d : Nat) : Core := (s.die d).stw.core
/-- Changes the unit ports. -/
def modUnits (s : State) (d : Nat) (f : Units → Units) : State := modCore s d (fun k => { k with units := f k.units })
/-- Context `c` by its code (R350). -/
def ctxOf (s : State) (d c : Nat) : Ctx := tget {} (coreOf s d).ctxs c
/-- Changes context `c`. -/
def modContext (s : State) (d c : Nat) (f : Ctx → Ctx) : State :=
  modCore s d (fun k => { k with ctxs := tset {} k.ctxs c (f (tget {} k.ctxs c)) })
/-- A user context by its code. -/
def isUser (c : Nat) : Bool := decide (2 ≤ c) && decide (c ≤ 9)
/-- The pair runs (R388 PAIR): its die is up, its clock runs, it neither rolls back nor reloads. -/
def pairRuns (s : State) (d : Nat) : Bool := dieUp s d && (s.die d).stewardClock && (s.die d).stw.pair = 0
/-- Cycles that a user context has run (R388). -/
def addCycles (s : State) (d c n : Nat) : State :=
  if !isUser c then s
  else modStw (modContext s d c (fun x => { x with cycles := x.cycles + w64 n })) d (fun x => { x with slice := x.slice + n })
/-- A flush of the predictor (R372): every counter 1, the history 0. -/
def bpFlush (s : State) (d : Nat) : State := modStw s d (fun x => { x with counters := [], history := 0 })

/-! ### Switching contexts (R350, R351, R379) -/

/-- A context that may run. -/
def ctxReady (s : State) (d c : Nat) : Bool :=
  if c = 0 then (ctxOf s d 0).st != .waiting else isUser c && (ctxOf s d c).st = .running

/-- The first ready user context after `c`, in turn, `c` itself last. -/
def nextUser (s : State) (d c : Nat) : Option Nat :=
  ((List.range 8).map (fun i => 2 + (c - 2 + 1 + i) % 8)).find? (ctxReady s d)

/-- The steward goes over to context `c` (15: idle): the ports of the user context it leaves are saved, those of one it enters
restored with the result of its SYS.wait, and its stream goes on. -/
def switchTo (s : State) (d c : Nat) : State :=
  let old := (coreOf s d).running
  if old = c then s
  else
    let s := addCycles s d old 32
    let s := modCore s d ctxLeft
    let x := ctxOf s d c
    let s := if c = 15 then s
      else
        let s := if isUser c then modUnits s d (fun u => streamResumed { x.saved with thi := x.saved.thi, epc := u.epc, ectx := u.ectx }) else s
        let s := match x.sysR with
          | some v => modUnits s d (fun u => { u with r := tset 0 u.r 10 v })
          | none => s
        modContext s d c (fun x => { x with sysR := none })
    let s := modStw s d (fun x => { x with
      core := { x.core with running := c }
      slice := if isUser c && (c != x.lastUser || 1024 ≤ x.slice) then 0 else x.slice
      lastUser := if isUser c then c else x.lastUser, yielded := false })
    bpFlush s d

/-- The highest-priority ready context runs (R350), but a branch keeps its delay slot; of the user contexts the one whose slice goes
on comes before the next in turn. -/
def schedule (s : State) (d : Nat) : State :=
  let c := (coreOf s d).running
  if c = 1 || (ctxReady s d c && ((ctxOf s d c).delay.isSome || (ctxOf s d c).squash)) then s
  else if ctxReady s d 0 then switchTo s d 0
  else if isUser c && ctxReady s d c then s
  else
    let k := (s.die d).stw.lastUser
    if ctxReady s d k && (s.die d).stw.slice < 1024 then switchTo s d k
    else switchTo s d ((nextUser s d k).getD 15)

/-- The slice of the running user context has ended: the next ready one in turn runs (R350). -/
def rotate (s : State) (d : Nat) : State :=
  let c := (coreOf s d).running
  match nextUser s d c with
  | some n => if n = c then modStw s d (fun x => { x with slice := 0, yielded := false }) else switchTo s d n
  | none => s

/-! ### Faults and rollback (R349, R385, R390, R391) -/

/-- A context as a rollback leaves it: its registers, predicates and PC as the checkpoint has them. -/
def ctxBack (now saved : Ctx) : Ctx :=
  { now with pc := saved.pc, g := saved.g, p := saved.p, saved := saved.saved, delay := saved.delay, squash := saved.squash, rfe := saved.rfe }

/-- The pair returns to its checkpoint, the undo log unwound. -/
def stwBack (x : Stw) : Stw :=
  let k := x.saved
  let m (data : Bool) (mem : List Host.Cell) : List Host.Cell :=
    (x.undo.filter (fun e => e.1 = data)).foldl (fun mem e => tset 0 mem e.2.1 e.2.2) mem
  { x with
    core := { k with
      iram := m false x.core.iram, dram := m true x.core.dram
      ctxs := (List.range 10).foldl (fun t c => tset {} t c (ctxBack (tget {} x.core.ctxs c) (tget {} k.ctxs c))) [] }
    undo := [], since := 0, stores := 0, pair := 1, rollbacks := sat x.rollbacks }

/-- A rollback begins: the count, die fault vertex 0 and the ROLLBACK record (R418). -/
def rollback (s : State) (d : Nat) : State :=
  let s := fireFault portPw (modStw s d stwBack) d 0
  let k := coreOf s d
  bbxRecord s d 0x05 (s.die d).stw.rollbacks.toNat (leBytes 2 (tget {} k.ctxs k.running).pc ++ [w8 k.running])

/-- A user context breaks a rule and becomes FAULTED (R385). The manual names no event data for FAULT_VERTEX. -/
def userFault (s : State) (d c : Nat) (code : Byte) : State :=
  let s := modContext s d c (fun x => { x with st := .faulted, fault := code, wait := none })
  let x := ctxOf s d c
  let s := bbxRecord s d 0x04 (c - 2 + 16 * x.loader + 256 * code.toNat) (leBytes 2 x.pc)
  let s := stewardNotice s d 11 (c - 2 + 256)
  let s := if x.faultSignal then (
      let (w, s) := s.freeWord
      fireSoft portPw s x.faultVertex.toNat (w32 w.toNat)) else s
  checkpoint (schedule s d) d

/-- A privileged context breaks a rule (R352, R391): the pair rolls back once, and a second fault at the same bundle is fatal. -/
def privFault (s : State) (d c : Nat) (code : Byte) : State :=
  let pc := (ctxOf s d c).pc
  let s := bbxRecord s d 0x06 (code.toNat + 256 * c) (leBytes 2 pc)
  if (s.die d).stw.privFault = some (16384 * c + pc) then dieFatalAt s d 2
  else modStw (rollback s d) d (fun x => { x with privFault := some (16384 * c + pc) })

/-- A fault of context `c`. -/
def ctxFault (s : State) (d c : Nat) (code : Byte) : State := if isUser c then userFault s d c code else privFault s d c code

/-! ### Memories of the steward (R344, R345, R361–R364, R373) -/

/-- What stands at a byte of instruction space: the firmware range holds the image of the half under what was stored since. -/
def firmwareMask (s : State) (d a : Nat) : Byte := if a < 0x20000 then Config.firmwareByte (s.die d).boot.image a else 0

/-- Reads instruction space as a load does. -/
def codeRead (s : State) (d a n : Nat) : List Byte := (rangeL a n).map (fun i => memRead (coreOf s d).iram i ^^^ firmwareMask s d i)

/-- A byte of instruction space as the fetch of bundle number `k` sees it: stores may be too new (R373). -/
def fetchByte (s : State) (d k a : Nat) : Byte :=
  (match (coreOf s d).istores.find? (fun e => e.1 = a && decide (k ≤ e.2.2)) with
    | some e => e.2.1
    | none => memRead (coreOf s d).iram a) ^^^ firmwareMask s d a

/-- A store into steward SRAM: the undo log keeps what it overwrites; a store into instruction space is seen by fetches no
earlier than the third bundle after it, and no later than the fifth. -/
def stwStore (s : State) (d : Nat) (data : Bool) (a : Nat) (bs : List Byte) : State :=
  let mem := if data then (coreOf s d).dram else (coreOf s d).iram
  let old := (rangeL a bs.length).map (fun i => (i, memRead mem i))
  let bs := if data then bs else (enumL a bs).map (fun e => e.2 ^^^ firmwareMask s d e.1)
  let s := modStw s d (fun x => { x with undo := (old.map (fun e => (data, e.1, e.2))).reverse ++ x.undo, stores := x.stores + 1 })
  let s := if data then s
    else
      let (w, s) := s.freeWord
      modCore s d (fun k => { k with istores := k.istores ++ old.map (fun e => (e.1, e.2, k.issued + 2 + w.toNat % 3)) })
  stwPut s d data a bs

/-- An address of a context in its data: of a user context an offset from its start (R363). -/
def dataAddr (s : State) (d c a : Nat) : Nat := if isUser c then (ctxOf s d c).dataBase + a else a

/-- The checks of a data-space access (R361, R363). -/
def dataFault (s : State) (d c a n : Nat) (write : Bool) : Option Byte :=
  if a % n != 0 then some fAlign
  else if (if isUser c then (ctxOf s d c).dataLen else 0x80000) < a + n then some fData
  else if !write && stwPoisoned s d true (dataAddr s d c a) n then some fUe
  else none

/-- The checks of a port-space access. -/
def lspFault (s : State) (d c a : Nat) (write : Bool) : Option Byte :=
  if a % 4 != 0 then some fAlign
  else if isUser c && !(ctxOf s d c).grants.any (fun g => decide (g.first ≤ a) && decide (a + 3 ≤ g.last) && (if write then g.write else g.read)) then
    some fPort
  else none

/-- A port-space load (R364). The private range reads 0, for the manual gives no register of it. -/
def lspLoad (s : State) (d a : Nat) : Word × State :=
  if a < 0x1000000 && (portMapped s d a || 0x800000 ≤ a) then (portRead s d a, portReadEffect s d a)
  else (0, violate s d vUnmapped (.steward d) a 0 0)

/-- A port-space store. -/
def lspStore (s : State) (d a : Nat) (v : Word) : State :=
  if a < 0x1000000 then portWrite s (.steward d) d a v else violate s d vUnmapped (.steward d) a v.toNat 0

/-! ### The stream unit (R378, R379) -/

/-- One word of the stream moves, or the code of its fault. -/
def streamWord (s : State) (d c : Nat) : Option Byte × State :=
  let u := (coreOf s d).units
  let a := (portValue u 9 0).toNat
  let b := (portValue u 9 1).toNat
  let srcPort := !u.strFill && wf u.ctl 0 2 = 1
  let dstPort := wf u.ctl 2 2 = 1
  let bad := (if u.strFill then none else if srcPort then lspFault s d c a false else dataFault s d c a 4 false).orElse (fun _ =>
    if dstPort then lspFault s d c b true else dataFault s d c b 4 true)
  match bad with
  | some f => (some f, s)
  | none =>
    let (v, s) := if u.strFill then (portValue u 9 0, s)
      else if srcPort then lspLoad s d a
      else (w32 (leNat (memReadN (coreOf s d).dram (dataAddr s d c a) 4)), s)
    let s := if !dstPort && 64 ≤ (s.die d).stw.stores then checkpoint s d else s
    let s := if dstPort then lspStore s d b v else stwStore s d true (dataAddr s d c b) (leBytes 4 v.toNat)
    let s := modUnits s d (fun u => { u with
      o1 := if u.strFill then u.o1 else tset 0 u.o1 9 (portValue u 9 0 + 4)
      o2 := tset 0 u.o2 9 (portValue u 9 1 + 4), cnt := u.cnt - 1, r := tset 0 u.r 9 (portValue u 9 2 + 1) })
    (none, if srcPort || dstPort then checkpoint s d else s)

/-- `n` words of the stream move, as long as none fails. -/
def streamWords (d c : Nat) : Nat → State → Option Byte × State
  | 0, s => (none, s)
  | n + 1, s => match streamWord s d c with
    | (some f, s) => (some f, s)
    | (none, s) => streamWords d c n s

/-- The stream in the cycles of one bundle: how many words move is open, the last being the stream's end (log 40). -/
def streamRuns (s : State) (d c : Nat) : Option Byte × State :=
  let u := (coreOf s d).units
  if !wb u.ctl 5 || u.cnt = 0 then (none, s)
  else
    let (w, s) := s.freeWord
    streamWords d c (w.toNat % u.cnt.toNat) s

/-- A word of the stream fails: the stream stops, and its context faults; CNT shows the words left. -/
def streamFault (s : State) (d c : Nat) (code : Byte) : State :=
  ctxFault (modUnits s d (fun u => { u with ctl := put u.ctl 5 1 0 })) d c code

/-! ### Triggers (R360–R384) -/

/-- A move into a trigger: unit, operation, value. -/
abbrev Trig := Nat × Nat × Word

/-- The fault that a trigger causes in context `c`, the unit ports being `u` (R352, R357, R361–R363, R378, R383, R384, log 41). -/
def trigFault (s : State) (d c : Nat) (u : Units) (t : Trig) : Option Byte :=
  let (unit, op, v) := t
  let user := isUser c
  let a := lsAddr u unit (op / 8) v
  let n := kindSize (op % 8)
  let write := decide (5 ≤ op % 8)
  match unit with
  | 5 =>
    if user then some fSocket
    else if a % 4 != 0 then some fAlign
    else if 0x40000 ≤ a then some fFetch
    else if !write && stwPoisoned s d false a 4 then some fUe
    else none
  | 6 => if user && op / 8 != 0 then some fMode else dataFault s d c a n write
  | 7 => if user && op / 8 != 0 then some fMode else lspFault s d c a write
  | 9 =>
    if (op = 0 && 2 ≤ wf u.ctl 0 2) || 2 ≤ wf u.ctl 2 2 then some fMode
    else if !wb u.ctl 4 && (v = 0 || 65536 < v.toNat) then some fCount
    else none
  | 10 =>
    if (op = 2 || op = 8) && user then some fSocket
    else if op = 3 && c != 1 then some fSocket
    else if op = 4 then
      (if c = 1 then some fSocket else if 2048 ≤ v.toNat || !vertexExists v.toNat then some fVertex else none)
    else if op = 5 then
      (if !user then some fSocket
       else if v.toNat % 64 != 0 then some fAlign
       else if (ctxOf s d c).dataLen < v.toNat + 64 then some fData
       else if stwPoisoned s d true (dataAddr s d c v.toNat) 64 then some fUe
       else none)
    else if op = 6 && !user then some fSocket
    else none
  | _ => none

/-- Ports that some contexts may not move to or from: sc, EPC and ECTX (R352, R359, log 41). -/
def portDenied (c sock : Nat) : Bool :=
  match portOf sock with
  | some (u, o) => (isUser c && o = 3 && (u = 5 || u = 6 || u = 7)) || (c != 1 && u = 10 && (o = 3 || o = 4))
  | none => false

/-- A result that unit `u` will hold from `n` bundles after this one. -/
def resultDue (s : State) (d u n : Nat) (v : Word) : State :=
  modCore s d (fun k => { k with units := { k.units with due := k.units.due ++ [(u, k.issued + n, v)] } })

/-- A load or store of unit 5 (LSI), 6 (LSD) or 7 (LSP). -/
def lsRuns (s : State) (d c unit op : Nat) (v : Word) : State :=
  let u := (coreOf s d).units
  let a := lsAddr u unit (op / 8) v
  let kind := op % 8
  let n := kindSize kind
  let data := leBytes n (tget 0 u.o2 unit).toNat
  let s := modUnits s d (fun u => lsBase u unit (op / 8) v)
  if unit = 5 then
    if kind < 5 then resultDue s d 5 2 (w32 (leNat (codeRead s d a 4))) else stwStore s d false a data
  else if unit = 6 then
    if kind < 5 then resultDue s d 6 2 (kindValue kind (memReadN (coreOf s d).dram (dataAddr s d c a) n))
    else stwStore s d true (dataAddr s d c a) data
  else if kind < 5 then
    let (v, s) := lspLoad s d a
    modUnits (resultDue s d 7 0 v) d (fun u => { u with lspBusy := true })
  else lspStore s d a (tget 0 u.o2 7)

/-- SYS.wait (R104, R383): a firing in the tick of registration satisfies it; a limit of 0 is none. -/
def sysWaits (s : State) (d c : Nat) (v : Word) : State :=
  let lim := (portValue (coreOf s d).units 10 0).toNat
  modContext s d c (fun x => { x with
    st := .waiting
    wait := some { vertex := some v.toNat, regTick := s.edges, deadline := if lim = 0 then none else some (s.edges + lim), toContinue := true }
    sysR := if s.edgesNow.contains (v.toNat, true) then some 1 else none })

/-- SYS.submit (R384). -/
def sysSubmits (s : State) (d c : Nat) (v : Word) : State :=
  let b := memReadN (coreOf s d).dram (dataAddr s d c v.toNat) 64
  if 4 ≤ (ctxOf s d c).subs.length || !eOwn b then resultDue s d 10 1 0
  else
    resultDue (modContext s d c (fun x => { x with
      subs := x.subs ++ [{ offset := v.toNat, bytes := b, effect := false }], submits := x.submits + 1 })) d 10 1 1

/-- The effect of a SYS operation. -/
def sysRuns (s : State) (d c op : Nat) (v : Word) : State :=
  match op with
  | 0 => modCore s d (fun k => { k with istores := [] })
  | 1 => bpFlush s d
  | 2 => modStw s d (fun x => { x with bpbar := wb v 0 })
  | 3 => modContext s d 1 (fun x => { x with rfe := true })
  | 4 => sysWaits s d c v
  | 5 => sysSubmits s d c v
  | 6 => modStw s d (fun x => { x with yielded := true })
  | 7 => resultDue (modUnits s d (fun u => { u with thi := w32 (s.pilot.toNat / 4294967296) })) d 10 1 (w32 s.pilot.toNat)
  | _ => modStw s d (fun x => { x with emask := wb v 0 })

/-- STR.copy and STR.fill (R378). -/
def strRuns (u : Units) (op : Nat) (v : Word) : Units :=
  if wb u.ctl 4 then { u with ctl := put (put u.ctl 4 1 0) 5 1 1 }
  else { u with cnt := v, r := tset 0 u.r 9 0, strFill := op = 1, ctl := put u.ctl 5 1 1 }

/-- The effect of a trigger, the moves of the bundle made. -/
def trigRuns (s : State) (d c : Nat) (t : Trig) : State :=
  let (unit, op, v) := t
  let a := tget 0 (coreOf s d).units.o1 unit
  match unit with
  | 0 | 1 => resultDue s d unit 1 (aluOp op a v)
  | 2 => resultDue s d 2 3 (mulOp op a v)
  | 3 => resultDue s d 3 1 (shfOp op a v)
  | 4 => resultDue s d 4 1 (cmpOp op a v)
  | 5 | 6 | 7 => lsRuns s d c unit op v
  | 8 => if 2 ≤ op then resultDue s d 8 1 (w32 (((ctxOf s d c).pc + 2) % 16384)) else s
  | 9 => modUnits s d (fun u => strRuns u op v)
  | _ => sysRuns s d c op v

/-! ### Branches (R368–R372) -/

/-- The target of a branch: of jmp and callr v[13:0], of br and call PC + v. -/
def branchTarget (pc op : Nat) (v : Word) : Nat :=
  if op % 4 = 0 || op % 4 = 3 then wf v 0 14 else ((w32 pc + v).toNat) % 16384

/-- The predictor's entry for a branch at `pc`. -/
def bpIndex (x : Stw) (pc : Nat) : Nat := (fld pc 2 11) ^^^ x.history.toNat

/-- A conditional branch is resolved: the bubbles it costs, and the predictor after it, unless prediction is barred. -/
def bpResolve (x : Stw) (pc : Nat) (taken : Bool) : Nat × Stw :=
  if x.bpbar then ((if taken then 2 else 0), x)
  else
    let i := bpIndex x pc
    let n := tget 1 x.counters i
    let n' : BitVec 2 := if taken then (if n = 3 then 3 else n + 1) else (if n = 0 then 0 else n - 1)
    ((if decide (2 ≤ n.toNat) = taken then b2n taken else 2),
      { x with counters := tset 1 x.counters i n', history := BitVec.ofNat 11 (2 * x.history.toNat + b2n taken) })

/-- The branch of a bundle, if it names one: the delay slot comes next, and then the target or the bundle after it (R369). -/
def branchRuns (s : State) (d c pc : Nat) (annul : Bool) (m : Move) (taken : Bool) (v : Word) : State :=
  let op := match trigOf m.dst with | some (_, op) => op | none => 0
  let s := modContext s d c (fun x => { x with
    delay := some (if taken then branchTarget pc op v else (pc + 2) % 16384), squash := annul && !taken })
  let lock := b2n (taken && (coreOf s d).wrote.contains m.src)
  if m.pred = 0 && !m.neg then addCycles s d c (1 + lock)
  else
    let (n, x) := bpResolve (s.die d).stw pc taken
    addCycles (modStw s d (fun _ => x)) d c (n + lock)

/-! ### One bundle (R356, R365–R367) -/

/-- Results that bundle `n` sees land in r, in trigger order; a port-space load lands when its data arrives. -/
def resultsLand (u : Units) (n : Nat) : Units :=
  let lands (e : Nat × Nat × Word) : Bool := decide (e.2.1 ≤ n) && !(e.1 = 7 && u.lspBusy)
  { u with r := (u.due.filter lands).foldl (fun t e => tset 0 t e.1 e.2.2) u.r, due := u.due.filter (fun e => !lands e) }

/-- A move that is held: a reader of LSP.r or a port-space access while a load is in flight, a reader of STR.r or a move into an
STR port while the stream runs (R364, R366, R378). -/
def moveHeld (u : Units) (m : Move) : Bool :=
  let toLsp := match trigOf m.dst with | some (7, _) => true | _ => false
  let toStr := (match trigOf m.dst with | some (9, _) => true | _ => false) || (match portOf m.dst with | some (9, _) => true | _ => false)
  (u.lspBusy && (m.src = 0x3C2 || toLsp)) || (wb u.ctl 5 && (m.src = 0x442 || toStr))

/-- The return from the event context (R376): the interrupted context goes on at EPC, and its stream with it. -/
def eventReturn (s : State) (d : Nat) : State :=
  let u := (coreOf s d).units
  let c := u.ectx.toNat % 16
  let s := modContext s d 1 (fun x => { x with rfe := false, delay := none, squash := false })
  let s := if c = 15 then s else modContext s d c (fun x => { x with pc := u.epc.toNat % 16384 })
  bpFlush (modCore s d (fun k => { k with running := c, units := streamResumed k.units, wrote := [] })) d

/-- The pair after a bundle: the next PC, the return from the event context, the end of a slice, and a checkpoint where one is due
(R369, R376, R390). -/
def bundleEnds (s : State) (d c : Nat) (was : Option Nat) (wasRfe out : Bool) (wrote : List Nat) : State :=
  let s := modContext s d c (fun x => match was with
    | some t => { x with pc := t, delay := none, squash := false }
    | none => { x with pc := (x.pc + 1) % 16384 })
  let s := modStw s d (fun x => { x with core := { x.core with issued := x.core.issued + 1, wrote := wrote }, since := x.since + 1 })
  let s := addCycles s d c 1
  let s := if wasRfe then eventReturn s d else s
  let s := if (s.die d).stw.yielded && (ctxOf s d c).delay.isNone then rotate s d else s
  let s := schedule s d
  if out || 1024 ≤ (s.die d).stw.since then checkpoint s d else s

/-- The moves of a bundle that are made, with their values. -/
def bundleMoves (s : State) (d c b : Nat) (ms : List Move) (was : Option Nat) (wasRfe : Bool) : State :=
  let x := ctxOf s d c
  let u := (coreOf s d).units
  let vs := ms.map (fun m => (m.dst, srcValue x u m))
  let (x', u') := movesTake x u vs
  let ts : List Trig := vs.filterMap (fun e => (trigOf e.1).map (fun t => (t.1, t.2, e.2)))
  match ts.findSome? (trigFault s d c u') with
  | some f => ctxFault s d c f
  | none =>
    let stores := (ts.filter (fun t => (t.1 = 5 || t.1 = 6) && 5 ≤ t.2.1 % 8)).length
    let s := if 64 < (s.die d).stw.stores + stores then checkpoint s d else s
    let s := modContext (modUnits s d (fun _ => u')) d c (fun _ => x')
    let s := ts.foldl (fun s t => trigRuns s d c t) s
    let s := match (movesOf b).find? isBranch with
      | some m => branchRuns s d c x.pc (bit b 127) m (ms.contains m) (srcValue x u m)
      | none => s
    let s := if ts.any (fun t => t.1 = 10 && t.2.1 = 0) then addCycles s d c 4 else s
    let memory := ts.any (fun t => decide (5 ≤ t.1) && decide (t.1 ≤ 7))
    let (w, s) := if memory then s.freeWord else (0, s)
    let s := addCycles s d c w.toNat
    let out := ts.any (fun t => t.1 = 7 || (t.1 = 10 && (t.2.1 = 4 || t.2.1 = 5)))
    bundleEnds s d c was wasRfe out ((vs.filter (fun e => e.1 < 0x40)).map Prod.fst)

/-- The bundle at the PC of context `c` is issued: fetched, checked, and its moves made, unless it is held. -/
def bundleIssues (s : State) (d c : Nat) : State :=
  let s := modUnits s d (fun u => resultsLand u (coreOf s d).issued)
  let x := ctxOf s d c
  let k := coreOf s d
  if isUser c && x.codeLen ≤ x.pc then ctxFault s d c fFetch
  else
    let a := 16 * (if isUser c then x.codeBase + x.pc else x.pc)
    let b := leNat ((rangeL a 16).map (fetchByte s d k.issued))
    if stwPoisoned s d false a 16 then ctxFault s d c fUe
    else if x.squash then bundleEnds s d c x.delay x.rfe false []
    else match decodeFault (!isUser c) (x.delay.isSome || x.rfe) b with
      | some f => ctxFault s d c f
      | none =>
        let ms := (movesOf b).filter (guardOf x)
        if doubleWrite ms then ctxFault s d c fDouble
        else if ms.any (fun m => portDenied c m.src || portDenied c m.dst) then ctxFault s d c fSocket
        else if ms.any (moveHeld k.units) then addCycles s d c 1
        else bundleMoves s d c b ms x.delay x.rfe

/-- The steward issues its next bundle, the stream running beside it. At the end of a slice none is issued until the slice is. -/
def stewardRuns (s : State) (d : Nat) : State :=
  if !pairRuns s d then s
  else
    let s := schedule s d
    let c := (coreOf s d).running
    if c = 15 || (isUser c && 1024 ≤ (s.die d).stw.slice && (ctxOf s d c).delay.isNone) then s
    else match streamRuns s d c with
      | (some f, s) => streamFault s d c f
      | (none, s) => bundleIssues s d c

def execStewardBundle (d : Nat) (s : State) : Host.Outcome State Fault Refusal := run (.stewardBundle d) s (fun s => stewardRuns s d)

/-! ### The event context (R374) -/

/-- Entry to the event context: not between a branch and its delay slot. -/
def eventEntered (s : State) (d : Nat) : State :=
  if !pairRuns s d || !intOf (s.target (8 + d)) || (s.die d).stw.emask || (coreOf s d).running = 1 then s
  else
    let s := schedule s d
    let k := coreOf s d
    let x := ctxOf s d k.running
    if k.running != 15 && (x.delay.isSome || x.squash) then s
    else
      let s := modCore s d (fun k => { k with
        units := { unitsDrained k.units with epc := w32 x.pc, ectx := w32 k.running }
        running := 1, wrote := [], ctxs := tset {} k.ctxs 1 { tget {} k.ctxs 1 with pc := 16, delay := none, squash := false, rfe := false } })
      checkpoint (bpFlush (s.modTarget (8 + d) (fun g => { g with lastMsg := some s.edges })) d) d

def execEventContextEntry (d : Nat) (s : State) : Host.Outcome State Fault Refusal :=
  run (.eventContextEntry d) s (fun s => eventEntered s d)

/-! ### Slices, waits, loads and streams that end -/

/-- A user context's 1,024 cycles are over (R350). -/
def sliceEnds (s : State) (d : Nat) : State :=
  let c := (coreOf s d).running
  if !pairRuns s d || !isUser c || (s.die d).stw.slice < 1024 || (ctxOf s d c).delay.isSome then s
  else checkpoint (rotate s d) d

def execUserSliceEnd (d : Nat) (s : State) : Host.Outcome State Fault Refusal := run (.userSliceEnd d) s (fun s => sliceEnds s d)

/-- A SYS.wait ends: its vertex has fired, or its limit has passed (R383). -/
def sysWaitOver (s : State) (d c : Nat) : State :=
  let x := ctxOf s d c
  let late := match x.wait with
    | some w => (match w.deadline with | some t => decide (t < s.edges) | none => false)
    | none => false
  if !pairRuns s d || !(c = 0 || isUser c) || x.st != .waiting || (x.sysR.isNone && !late) then s
  else
    let s := modContext s d c (fun x => { x with st := .running, wait := none, sysR := some (x.sysR.getD 0) })
    checkpoint (schedule s d) d

def execSysWaitEnd (d ctx : Nat) (s : State) : Host.Outcome State Fault Refusal := run (.sysWaitEnd d ctx) s (fun s => sysWaitOver s d ctx)

/-- The data of a port-space load arrives (R366); how long it took is open (log 40). -/
def lspArrives (s : State) (d : Nat) : State :=
  let u := (coreOf s d).units
  if !pairRuns s d || !u.lspBusy then s
  else
    let s := modUnits s d (fun u => { u with
      lspBusy := false, r := (u.due.filter (fun e => e.1 = 7)).foldl (fun t e => tset 0 t e.1 e.2.2) u.r
      due := u.due.filter (fun e => e.1 != 7) })
    let (w, s) := s.freeWord
    checkpoint (addCycles s d (coreOf s d).running w.toNat) d

def execLspLoadArrival (d : Nat) (s : State) : Host.Outcome State Fault Refusal := run (.lspLoadArrival d) s (fun s => lspArrives s d)

/-- A stream runs to its end: its last words move, and BUSY clears (R378). -/
def streamEnds (s : State) (d : Nat) : State :=
  let k := coreOf s d
  if !pairRuns s d || !wb k.units.ctl 5 then s
  else match streamWords d k.running k.units.cnt.toNat s with
    | (some f, s) => streamFault s d k.running f
    | (none, s) => modUnits s d (fun u => { u with ctl := put u.ctl 5 1 0 })

def execStrStreamEnd (d : Nat) (s : State) : Host.Outcome State Fault Refusal := run (.strStreamEnd d) s (fun s => streamEnds s d)

/-! ### Lockstep (R349, R390, R391) -/

/-- The cores disagree: the pair rolls back, and the fourth mismatch after one checkpoint is fatal. -/
def mismatch (s : State) (d : Nat) : State :=
  if !pairRuns s d then s
  else if 3 ≤ (s.die d).stw.repeats then dieFatalAt s d 1
  else modStw (rollback s d) d (fun x => { x with repeats := x.repeats + 1 })

def execLockstepMismatch (d : Nat) (s : State) : Host.Outcome State Fault Refusal := run (.lockstepMismatch d) s (fun s => mismatch s d)

/-- A rollback ends: the pair executes again from its checkpoint. -/
def rollbackEnds (s : State) (d : Nat) : State :=
  if dieUp s d && (s.die d).stw.pair = 1 then modStw s d (fun x => { x with pair := 0 }) else s

def execRollbackComplete (d : Nat) (s : State) : Host.Outcome State Fault Refusal :=
  run (.rollbackComplete d) s (fun s => rollbackEnds s d)

end Sys2Proof.Machine
end

