-- ==== Sys2Proof/Machine/LinkCmds.lean ====
section
/-! DEFINITION. The meanings of the Polob link rows: heartbeats, delay exchanges, acknowledgements, blocks and packets received,
training, and the loss of a port, a path or the apex (R426–R454). -/

namespace Sys2Proof.Machine

/-! ### Heartbeats and the delay exchange (R432, R452) -/

/-- The root sends heartbeats with a new ROOT_SEQ each; a device in STANDOFF or with no path advertises ATTACHED 0 (R432, R450). -/
def heartbeatOut (s : State) (p : Nat) : State :=
  let x := s.port p
  if !portAlive s p || !(x.st = .up || x.st = .standoff) then s
  else
    let s := if isRoot s && !s.pkg.standoff then s.modPkg (fun k => { k with rootSeq := k.rootSeq + 1, rootSeqAt := s.edges }) else s
    let k := s.pkg
    let up := x.st = .up && k.path
    let s := s.modPort p (fun x => emitBlock { x with beats := x.beats + 1 }
      (.heartbeat k.root (if up then k.hops else 0) up k.epoch k.rootSeq (BitVec.ofNat 24 s.pilot.toNat)))
    if x.st = .up && (x.beats + 1) % 64 = 0 then s.modPort p (fun x => emitBlock x (.delayReq (BitVec.ofNat 40 s.pilot.toNat)))
    else s

def execHeartbeatSend (port : Nat) (s : State) : Host.Outcome State Fault Refusal :=
  run (.heartbeatSend port) s (fun s => heartbeatOut s port)

/-- ROOT_SEQ `a` is later than `b`. -/
def seqLater (a b : Byte) : Bool := epochNewer a b

/-- A heartbeat arrives (R428, R443, R447, R452). -/
def heartbeatIn (s : State) (p : Nat) (root : BitVec 5) (hops : BitVec 2) (attached : Bool) (epoch rootSeq : Byte) (time : BitVec 24)
    (takesUs : Bool) : State :=
  let x := s.port p
  if !portAlive s p || !(x.st = .up || x.st = .standoff) then s
  else
    let s := s.modPort p (fun x => { x with
      peerRoot := root, peerHops := hops, peerAttached := attached, peerTakes := takesUs
      peerSeq := rootSeq, seqAt := if seqLater rootSeq x.peerSeq then s.edges else x.seqAt })
    let s := retree portPw (hearRoot s root epoch)
    if upPort s != some p || !attached then s
    else
      let s := if seqLater rootSeq s.pkg.rootSeq then s.modPkg (fun k => { k with rootSeq := rootSeq, rootSeqAt := s.edges }) else s
      offsetFrom s p time

def execHeartbeatReceive (port : Nat) (root : BitVec 5) (hops : BitVec 2) (attached : Bool) (epoch rootSeq : Byte) (time : BitVec 24)
    (takesUs crcOk : Bool) (s : State) : Host.Outcome State Fault Refusal :=
  run (.heartbeatReceive port root hops attached epoch rootSeq time takesUs crcOk) s
    (fun s => if crcOk then heartbeatIn s port root hops attached epoch rootSeq time takesUs else s)

/-- A DELAY block arrives (R452): a request is answered, a response gives half the round trip. -/
def delayIn (s : State) (p : Nat) (response : Bool) (time : BitVec 40) (trip : Nat) : State :=
  if !portAlive s p || (s.port p).st != .up then s
  else if response then s.modPort p (fun x => { x with delay := w16 (trip / 2) })
  else s.modPort p (fun x => emitBlock x (.delayResp time))

def execDelayBlock (port : Nat) (response : Bool) (time : BitVec 40) (trip : Nat) (crcOk : Bool) (s : State) :
    Host.Outcome State Fault Refusal :=
  run (.delayBlock port response time trip crcOk) s (fun s => if crcOk then delayIn s port response time trip else s)

/-! ### Acknowledgement, blocks and their resending (R434, R435) -/

/-- The block SEQ of a block. -/
def bseqOf : LinkItem → Option (BitVec 3)
  | .vertex b _ _ _ _ _ => some b
  | .signal b _ _ _ => some b
  | _ => none

/-- Blocks up to the one of SEQ `b`, which is among them, are acknowledged. -/
def blocksAcked (b : BitVec 3) (l : List LinkItem) : List LinkItem :=
  if l.any (fun i => bseqOf i = some b) then (l.dropWhile (fun i => bseqOf i != some b)).drop 1 else l

/-- Packets of the replay buffer up to the one of link SEQ `q` leave it; that one only where `whole`. -/
def packetsAcked (q : Half) (whole : Bool) (l : List (Half × LinkItem)) : List (Half × LinkItem) :=
  if l.any (fun e => e.1 = q) then (l.dropWhile (fun e => e.1 != q)).drop (b2n whole) else l

/-- `n` more events on a counter that saturates. -/
def satAdd (w : Word) (n : Nat) : Word := w32 (Nat.min (w.toNat + n) 0xFFFFFFFF)

/-- An ACK for packets (R434): credits return; a NAK has the packets from the one it names replayed, and the fourth for one packet
takes the port down (LINK_PORT_DOWN). -/
def packetAck (x : LinkPort) (nak : Bool) (seq : Half) (p np : Nat) : LinkPort :=
  let x := { x with credP := Nat.min 32 (x.credP + p), credNp := Nat.min 32 (x.credNp + np) }
  let left := packetsAcked seq (!nak) x.replay
  let moved := left.length != x.replay.length
  let x := { x with replay := left, naks := if nak then (if moved then 1 else x.naks + 1) else if moved then 0 else x.naks }
  let x := if nak && x.naks < 4 then
      left.foldl (fun x e => emitPacket x e.1 e.2) { x with replays := satAdd x.replays left.length } else x
  packetsDrain x

/-- An ACK block arrives; the packets it lets go leave the receive buffers they came by. A HELLO can be acknowledged while this end
still trains (R434, R436). -/
def ackIn (s : State) (port : Nat) (nak block : Bool) (bseq : BitVec 3) (seq : Half) (p np : Nat) : State :=
  let y := s.port port
  if !portAlive s port || !(y.st = .up || (y.st = .training && y.locked)) then s
  else creditsReturn s (s.modPort port (fun x =>
    let x := packetAck x (nak && !block) (if block then x.txSeq else seq) p np
    if block then
      let x := { x with unacked := blocksAcked bseq x.unacked }
      blocksDrain x.waiting.length x
    else x))

def execAckBlock (port : Nat) (nak block : Bool) (bseq : BitVec 3) (seq : Half) (p np cpl : Byte) (crcOk : Bool) (s : State) :
    Host.Outcome State Fault Refusal :=
  run (.ackBlock port nak block bseq seq p np cpl crcOk) s
    (fun s => if crcOk then ackIn s port nak block bseq seq p.toNat np.toNat else s)

/-- Unacknowledged blocks are sent again, in order (R434). -/
def blocksAgain (s : State) (p : Nat) : State :=
  if !portAlive s p || (s.port p).st != .up then s
  else s.modPort p (fun x => x.unacked.foldl emitBlock { x with replays := satAdd x.replays x.unacked.length })

def execBlockResend (port : Nat) (s : State) : Host.Outcome State Fault Refusal := run (.blockResend port) s (fun s => blocksAgain s port)

/-- An item goes on towards its destination on another port than the one it came by (R434, R435). -/
def relay (s : State) (p dest : Nat) (it : LinkItem) : State :=
  if routePort s dest = some p then s else sendTo s dest it (some p)

/-- A VERTEX block arrives: applied here, or relayed (R434, R441). -/
def vertexIn (s : State) (p : Nat) (dest : BitVec 5) (bseq : BitVec 3) (index : BitVec 7) (level : Bool) (change : Half) (src : BitVec 5)
    (crcOk : Bool) : State :=
  match blockIn s p bseq (crcOk && portAlive s p) with
  | (false, s) => s
  | (true, s) =>
    if dest = ownId s then vertexApplied portPw s index level change src
    else relay s p dest.toNat (.vertex 0 dest index level change src)

def execVertexBlock (port : Nat) (dest : BitVec 5) (bseq : BitVec 3) (index : BitVec 7) (level : Bool) (change : Half) (src : BitVec 5)
    (crcOk : Bool) (s : State) : Host.Outcome State Fault Refusal :=
  run (.vertexBlock port dest bseq index level change src crcOk) s (fun s => vertexIn s port dest bseq index level change src crcOk)

/-- A SIGNAL block arrives (R434, R439): one to all devices fires here and is copied onto every downstream port. -/
def signalIn (s : State) (p : Nat) (dest : BitVec 5) (bseq : BitVec 3) (n : Byte) (data : Word) (crcOk : Bool) : State :=
  match blockIn s p bseq (crcOk && portAlive s p) with
  | (false, s) => s
  | (true, s) =>
    if dest.toNat = allDevices then sendSignal (fireSoft portPw s n.toNat data) allDevices n.toNat data
    else if dest = ownId s then fireSoft portPw s n.toNat data
    else relay s p dest.toNat (.signal 0 dest n data)

def execSignalBlock (port : Nat) (dest : BitVec 5) (bseq : BitVec 3) (n : Byte) (data : Word) (crcOk : Bool) (s : State) :
    Host.Outcome State Fault Refusal :=
  run (.signalBlock port dest bseq n data crcOk) s (fun s => signalIn s port dest bseq n data crcOk)

/-! ### Training (R429, R433, R436, R450) -/

/-- Block lock: the HELLO exchange begins. -/
def lockedOn (s : State) (p : Nat) : State :=
  if !portAlive s p || (s.port p).st != .training || (s.port p).locked then s
  else sendHello (s.modPort p (fun x => { x with locked := true })) p

def execBlockLock (port : Nat) (s : State) : Host.Outcome State Fault Refusal := run (.blockLock port) s (fun s => lockedOn s port)

/-- A worker that is not attached finds its own system ID held by another device (R429). -/
def dupFound (s : State) (sysId : BitVec 5) (serial : DWord) : State :=
  if sysId = s.pkg.sysId && serial != Config.serial && !s.pkg.path then s.modPkg (fun k => { k with dup := true }) else s

/-- The peer's HELLO arrives: the port is UP, or in STANDOFF on a device that stands off; a peer of another serial number than
before takes the port down first. -/
def helloIn (s : State) (p : Nat) (sysId : BitVec 5) (serial : DWord) (hops : BitVec 2) (attached : Bool) (root : BitVec 5) (epoch : Byte)
    (time : DWord) : State :=
  let x := s.port p
  if !portAlive s p || !((x.st = .training && x.locked) || x.st = .up) then s
  else if x.peerSerial.isSome && x.peerSerial != some serial then
    portLeaves portPw (s.modPort p (fun x => { x with peerSerial := some serial })) p .down true
  else if x.st = .up then s
  else
    let s := withSourceEdge s (515 + 8 * (p / 2)) (fun s => s.modPort p (fun x => { x with
      st := if s.pkg.standoff then .standoff else .up, peerId := sysId, peerSerial := some serial, hello := time, helloAt := s.edges, peerHops := hops
      peerAttached := attached, peerRoot := root, seqAt := s.edges }))
    let s := if s.pkg.standoff then s.modPort p (fun x => { x with rxSeq := x.rxSeq + 1 }) else packetTaken s p 0 true
    retree portPw (hearRoot (dupFound s sysId serial) root epoch)

def execHelloPacket (port : Nat) (sysId : BitVec 5) (serial : DWord) (hops : BitVec 2) (attached : Bool) (root : BitVec 5) (epoch : Byte)
    (time : DWord) (s : State) : Host.Outcome State Fault Refusal :=
  run (.helloPacket port sysId serial hops attached root epoch time) s (fun s => helloIn s port sysId serial hops attached root epoch time)

/-- A port that is DOWN trains again after 1,000 ticks (R436). -/
def trainAgain (s : State) (p : Nat) : State :=
  let x := s.port p
  if !portAlive s p || !portEnabled s p || x.st != .down || s.edges < x.downAt + 1000 then s
  else s.modPort p (fun x => { x with st := .training, locked := false })

def execLinkTrainingRetry (port : Nat) (s : State) : Host.Outcome State Fault Refusal :=
  run (.linkTrainingRetry port) s (fun s => trainAgain s port)

/-- A trained port goes DOWN (R436, R458). -/
def portFalls (s : State) (p : Nat) (why : PortLoss) : State :=
  let x := s.port p
  let due := match why with
    | .nakLimit => decide (4 ≤ x.naks)
    | .refclkLost => (s.die (p / 2)).refLost
    | _ => true
  if !dieUp s (p / 2) || !(x.st = .up || x.st = .standoff) || !due then s else portLeaves portPw s p .down true

def execLinkPortDown (port : Nat) (why : PortLoss) (s : State) : Host.Outcome State Fault Refusal :=
  run (.linkPortDown port why) s (fun s => portFalls s port why)

/-! ### Packets (R433, R437, R440, R451) -/

/-- A packet arrives: `f` for one that is accepted and for this device, else it is forwarded as `it` (R435). -/
def packetFor (s : State) (p : Nat) (h : PktHdr) (it : LinkItem) (f : State → State) : State :=
  if !portAlive s p then s
  else match packetIn s p h ((itemChannel it).getD 0) (h.dest = ownId s || !relayWaits s p h.dest.toNat it) false with
    | (false, s) => s
    | (true, s) => if h.dest = ownId s then f s else relay s p h.dest.toNat it

/-- A JOIN arrives: the peer has this device as its upstream, and its subtree is known (R428, R445). A change goes on upstream. -/
def joinIn (s : State) (p : Nat) (ids : Word) : State :=
  retreeFrom portPw (subtreeIds s) (upPort s) (s.modPort p (fun x => { x with subtree := ids, peerTakes := true }))

/-- JOIN goes no further than the next device. -/
def joinArrives (s : State) (p : Nat) (h : PktHdr) (ids : Word) : State :=
  if !portAlive s p then s
  else match packetIn s p h 0 true false with
    | (false, s) => s
    | (true, s) => joinIn s p ids

def execJoinPacket (port : Nat) (hdr : PktHdr) (ids : Word) (s : State) : Host.Outcome State Fault Refusal :=
  run (.joinPacket port hdr ids) s (fun s => joinArrives s port hdr ids)

def execLaneCmdPacket (port : Nat) (hdr : PktHdr) (cmd : RemoteCmd) (s : State) : Host.Outcome State Fault Refusal :=
  run (.laneCmdPacket port hdr cmd) s
    (fun s => packetFor s port hdr (.laneCmd hdr.src hdr.dest cmd) (fun s => remoteArrives s hdr cmd))

def execLaneDataPacket (port : Nat) (hdr : PktHdr) (lane slot : Nat) (data : List Byte) (s : State) : Host.Outcome State Fault Refusal :=
  run (.laneDataPacket port hdr lane slot data) s
    (fun s => packetFor s port hdr (.laneData hdr.src hdr.dest lane slot data) (fun s => remoteData s hdr lane slot data))

def execLaneResultPacket (port : Nat) (hdr : PktHdr) (slot : Nat) (tag : Half) (gen : BitVec 4) (res : Option RemoteRes) (data : List Byte)
    (s : State) : Host.Outcome State Fault Refusal :=
  run (.laneResultPacket port hdr slot tag gen res data) s
    (fun s => packetFor s port hdr (.laneResult hdr.src hdr.dest slot tag gen res data) (fun s => remoteResult portPw s hdr slot tag gen res data))

def execSubscribePacket (port : Nat) (hdr : PktHdr) (index : BitVec 7) (vertex : BitVec 11) (on : Bool) (s : State) :
    Host.Outcome State Fault Refusal :=
  run (.subscribePacket port hdr index vertex on) s
    (fun s => packetFor s port hdr (.subscribe hdr.src hdr.dest index vertex on) (fun s => subscribed s hdr.src index vertex.toNat on))

/-- HANDBACK arrives at the apex that stands off (R451): it becomes root with EPOCH + 1 and leaves STANDOFF. -/
def handbackIn (s : State) : State :=
  if s.pkg.sysId != 0 || !s.pkg.standoff then s
  else
    let s := s.modPkg (fun k => { k with standoff := false, epoch := k.epoch + 1, takeovers := k.takeovers + 1, root := 0 })
    let s := (List.range 4).foldl (fun s p => withSourceEdge s (515 + 8 * (p / 2)) (fun s =>
      s.modPort p (fun x => if x.st = .standoff then { x with st := .up } else x))) s
    retree portPw s

/-- HANDBACK travels on a direct link, which STANDOFF does not close to it. -/
def handbackArrives (s : State) (p : Nat) (h : PktHdr) : State :=
  if !portAlive s p then s
  else match packetIn s p h 0 true true with
    | (false, s) => s
    | (true, s) => handbackIn s

def execHandbackPacket (port : Nat) (hdr : PktHdr) (s : State) : Host.Outcome State Fault Refusal :=
  run (.handbackPacket port hdr) s (fun s => handbackArrives s port hdr)

/-! ### The loss of the path and of the apex (R443, R446) -/

/-- ROOT_SEQ from the upstream peer has stood still for 3,000 ticks: the peer offers no path until it advertises one again. -/
def pathLost3000 (s : State) : State :=
  match upPort s with
  | some p =>
    if isRoot s || s.edges < s.pkg.rootSeqAt + 3000 then s
    else retree portPw (s.modPort p (fun x => { x with peerAttached := false }))
  | none => s

def execPathLoss (s : State) : Host.Outcome State Fault Refusal := run .pathLoss s pathLost3000

/-- The standby apex judges the apex lost: 3,000 ticks without a new ROOT_SEQ on any port, every direct link to the apex DOWN. -/
def apexGone (s : State) : Bool :=
  deviceRole s = 3 && (List.range 4).all (fun p =>
    let x := s.port p
    decide (x.seqAt + 3000 ≤ s.edges) && !(x.peerSerial.isSome && x.peerId = 0 && (x.st = .up || x.st = .standoff)))

/-- It becomes the acting apex (R446). -/
def takesOver (s : State) : State :=
  if !apexGone s || !(dieUp s 0 || dieUp s 1) then s
  else retree portPw (s.modPkg (fun k => { k with
    epoch := k.epoch + 1, takeovers := k.takeovers + 1, acting := true, root := k.sysId, path := true, hops := 0 }))

def execApexLoss (s : State) : Host.Outcome State Fault Refusal := run .apexLoss s takesOver

end Sys2Proof.Machine
end

