-- ==== Sys2Proof/Machine/Signals.lean ====
section
/-! DEFINITION. The meanings of what reaches the device at its balls and in its always-on domain: vertex sources and their filters,
chord launches and lead segments, conversions and meter slots, and what bus devices do unasked (R175–R199, R205–R249, R514). -/

namespace Sys2Proof.Machine

/-! ### Vertex sources (R198, R199, R231, R505, R514) -/

/-- A stability filter of `k` ticks accepts a level that shows at `samples` edges (R514). -/
def filterAccepts (k samples : Nat) : Bool := decide (max k 1 ≤ samples)

/-- The lane records whose inputs are the balls of lane `n`: none once a twin serves lane `n`, and also the primary that
lane `n` serves (R158, R403). -/
def ballLanes (s : State) (n : Nat) : List Nat :=
  let t := twinOf s n
  if servingLane s n != n then []
  else if t.valid && t.failedOver && t.shadow then [n, t.other]
  else [n]

/-- A vertex input takes its level; one whose caught pulse ends in the next tick does so then (R199). -/
def inputSeen (s : State) (v : Nat) (lvl : State → Bool) : State :=
  if s.turned.any (fun t => t.vertex = v && !t.inv) then s else vertexSet portPw s v (lvl s)

/-- What a lane sees on its bus as a pin has taken a level (R174, R188, R190): a START and a STOP of another controller on the I2C family,
the lines' last move, and, while a command waits for it, that the bus is free. -/
def busSeen (now : Nat) (pinB : Bool) (l : Lane) : Lane :=
  let p := personality l
  if !waitsFree p then l
  else
    let own := l.held.isSome || (l.txn.isSome && l.begun)
    let l := if isI2c p && pinB && l.levelA then { l with busy := !l.levelB && (l.busy || !own) } else l
    let waits := l.txn.isSome && !l.begun
    let free := waits && l.levelA && l.levelB && !l.busy
    let l := if l.txn.isSome && (!pinB || waits) then { l with waitFrom := now } else l
    { l with begun := l.begun || free, checkBad := l.checkBad || (waits && l.levelA && !l.levelB) }

/-- A pin of a lane takes an accepted level. -/
def pinTaken (s : State) (pinB lvl : Bool) (n : Nat) : State :=
  let s := s.modLane n (fun l => busSeen s.edges pinB (if pinB then { l with levelB := lvl } else { l with levelA := lvl }))
  let v := 2 * n + b2n pinB
  inputSeen s v (fun s => pinAsserted s v)

/-- The level at the ball of a pin changes (R158, R198). -/
def pinChange (s : State) (n : Nat) (pinB lvl : Bool) (samples : Nat) (openPhase : Bool) : State :=
  if !dieUp s (laneDie n) then s
  else match (ballLanes s n).getLast? with
    | none => s
    | some m =>
      if filterAccepts (pinFilter s m openPhase) samples then (ballLanes s n).foldl (fun s n => pinTaken s pinB lvl n) s else s

def execLanePinChange (lane : Nat) (pinB level : Bool) (samples : Nat) (openPhase : Bool) (s : State) : Host.Outcome State Fault Refusal :=
  run (.lanePinChange lane pinB level samples openPhase) s (fun s => pinChange s lane pinB level samples openPhase)

/-- The level at a fast vertex input changes (R199): with no filter the pulse catcher keeps an asserted pulse of 2 ns or
longer for a tick, and one shorter may be missed (log 5). -/
def fastChange (s : State) (i : Nat) (lvl : Bool) (ns samples : Nat) : State :=
  if !dieUp s (i / 16) then s
  else
    let k := wf (tget 0 s.fvCfg i) 4 4
    let take (s : State) : State :=
      let s := { s with fvRaw := tset false s.fvRaw i lvl }
      if !fvAsserted s i && s.edgesNow.contains (768 + i, true) then
        { s with turned := s.turned ++ [{ vertex := 768 + i, since := s.edges, due := s.edges + 1, inv := false }] }
      else inputSeen s (768 + i) (fun s => fvAsserted s i)
    if k != 0 then (if filterAccepts k samples then take s else s)
    else if lvl = wb (tget 0 s.fvCfg i) 0 then (if samples = 0 then s else take s)
    else if 2 ≤ ns then take s
    else
      let (b, s) := s.freeBit
      if b then take s else s

def execFastVertexChange (fv : Nat) (level : Bool) (ns samples : Nat) (s : State) : Host.Outcome State Fault Refusal :=
  run (.fastVertexChange fv level ns samples) s (fun s => fastChange s fv level ns samples)

/-- The condition of a window for an input of `code` (R231). -/
def windowMet (w : Window) (code : Nat) : Bool :=
  let th := wf w.reg 0 12
  let hy := wf w.reg 12 6
  match wf w.reg 18 2 with
  | 1 => if w.level then decide (th ≤ code + hy) else decide (th < code)
  | 2 => if w.level then decide (code ≤ th + hy) else decide (code < th)
  | _ => false

/-- Changes window `k` of an input. -/
def modWindow (s : State) (i k : Nat) (f : Window → Window) : State :=
  s.modInput i (fun x => if k = 0 then { x with win0 := f x.win0 } else { x with win1 := f x.win1 })

/-- A window takes a level. -/
def windowTaken (s : State) (i k : Nat) (lvl : Bool) : State :=
  vertexSet portPw (modWindow s i k (fun w => { w with level := lvl, hold := none })) (800 + 2 * i + k) lvl

/-- The input crosses a threshold: accepted through the window's filter, but while its level is held (R231). -/
def comparatorCrosses (s : State) (i k code samples : Nat) : State :=
  let w := winOfInput (s.input i) k
  if !dieUp s (i / 32) || w.hold.isSome || windowMet w code = w.level || !filterAccepts (wf w.reg 20 4) samples then s
  else windowTaken s i k (windowMet w code)

def execComparatorCrossing (input w : Nat) (code : Nat) (samples : Nat) (s : State) : Host.Outcome State Fault Refusal :=
  run (.comparatorCrossing input w code samples) s (fun s => comparatorCrosses s input w code samples)

/-- The hold of a window ends and it follows its comparator (R231). -/
def comparatorFollows (s : State) (i k code : Nat) : State :=
  let w := winOfInput (s.input i) k
  match w.hold with
  | none => s
  | some t => if !dieUp s (i / 32) || s.edges < t then s else windowTaken s i k (windowMet w code)

def execComparatorHoldEnd (input w : Nat) (code : Nat) (s : State) : Host.Outcome State Fault Refusal :=
  run (.comparatorHoldEnd input w code) s (fun s => comparatorFollows s input w code)

/-- A threshold with hysteresis: asserted above `hi`, released below `lo`. -/
def thermLevel (on : Bool) (hi lo t : Int) : Bool := if on then !decide (t < lo) else decide (hi < t)

/-- The die temperature crosses a threshold (R505). -/
def thermal (s : State) (d : Nat) (t : Int) : State :=
  if !dieUp s d then s
  else
    let x := s.die d
    let (w, c) := (thermLevel x.thermWarn 110 105 t, thermLevel x.thermCrit 120 115 t)
    let s := s.modDie d (fun x => { x with thermWarn := w, thermCrit := c })
    vertexSet portPw (vertexSet portPw s (1488 + 2 * d) w) (1489 + 2 * d) c

def execThermalCrossing (d : Nat) (celsius : Int) (s : State) : Host.Outcome State Fault Refusal :=
  run (.thermalCrossing d celsius) s (fun s => thermal s d celsius)

/-- PFAIL_N rises: after its filter of 2 ticks V1494 releases (R198). -/
def pfailEnds (s : State) (samples : Nat) : State :=
  if filterAccepts 2 samples then vertexSet portPw (s.modPkg (fun p => { p with pfail := false })) 1494 false else s

def execPfailReleased (samples : Nat) (s : State) : Host.Outcome State Fault Refusal :=
  run (.pfailReleased samples) s (fun s => pfailEnds s samples)

/-! ### Chords and lead segments (R205–R220) -/

def execChordFire (chord : Nat) (cuts : List LaneCut) (s : State) : Host.Outcome State Fault Refusal :=
  run (.chordFire chord cuts) s (fun s => if dieUp s (chordDie chord) then chordLaunch portPw s chord cuts else s)

/-- A lead segment's launcher runs on the half of the lane that serves it (R31, R403). -/
def launcherRuns (s : State) (n : Nat) : Bool := dieUp s (laneDieNow s n)

def execLeadStroke (lane : Nat) (s : State) : Host.Outcome State Fault Refusal :=
  run (.leadStroke lane) s (fun s => if launcherRuns s lane then strokeStarts s lane else s)
def execPulseEnd (lane : Nat) (s : State) : Host.Outcome State Fault Refusal :=
  run (.pulseEnd lane) s (fun s => if launcherRuns s lane then pulseEnds s lane else s)
def execLeadFrameStart (lane : Nat) (s : State) : Host.Outcome State Fault Refusal :=
  run (.leadFrameStart lane) s (fun s => if launcherRuns s lane then frameStarts s lane else s)
def execLeadFrameEnd (lane : Nat) (s : State) : Host.Outcome State Fault Refusal :=
  run (.leadFrameEnd lane) s (fun s => if launcherRuns s lane then frameEnds s lane else s)

/-- The hold-off tick L + HOLDOFF is reached (R216). -/
def holdoffEnds (s : State) (c : Nat) : State :=
  let x := s.chord c
  if x.st = .holdoff && dieUp s (chordDie c) && decide (x.launch + recHoldoff x.record ≤ s.edges) then armEntry s c else s

def execChordHoldoffEnd (chord : Nat) (s : State) : Host.Outcome State Fault Refusal :=
  run (.chordHoldoffEnd chord) s (fun s => holdoffEnds s chord)

/-! ### Conversions and meters (R228–R246) -/

/-- The latest sampling instant of input `i` whose conversion is present by the end of this tick (R229). -/
def lastSample (s : State) (i : Nat) : Option Nat :=
  if tickTo s < sampleAt i 0 + 16 then none else some ((tickTo s - sampleAt i 0 - 16) / 200)

/-- The conversion of the input's latest sampling instant becomes present (R228–R230, R235), once; during calibration the inputs miss
theirs (R232). -/
def converted (s : State) (i : Nat) (code : Code) (clip cmRange : Bool) : State :=
  let d := i / 32
  if !dieUp s d || !(s.die d).meterRun || (s.die d).calBusy || (lastSample s i).isNone || (s.input i).sampled = lastSample s i then s
  else
    let clip := clip || cmRange
    let bits := b2n (clip && code.toNat = 4095) + 2 * b2n (clip && code.toNat = 0) + 4 * b2n cmRange
    withSourceEdge s (513 + 8 * d) (fun s => s.modInput i (fun x => { x with
      code := code, clip := clip, seq := x.seq + 1, value := iw32 (senseValue code.toNat x.gain x.offset)
      sampled := lastSample s i, before := x.value, fault := x.fault ||| w32 bits }))

def execAdcConversion (input : Nat) (code : Code) (clip cmRange : Bool) (s : State) : Host.Outcome State Fault Refusal :=
  run (.adcConversion input code clip cmRange) s (fun s => converted s input code clip cmRange)

/-- A METER notice of the meter's owner (R241, R295, R300, R377). -/
def meterNotice (s : State) (m : Nat) : State :=
  let x := s.meter m
  let data := m + 256 * b2n x.trip0 + 512 * b2n x.trip1
  if x.owner < 8 then raiseNotice s x.owner 133 data
  else if x.owner = 8 then stewardNotice s (m / 64) 10 data
  else s

/-- The trips of meter `m`, which was `x` before, reach its vertex, and each that has changed raises the meter source (R241). -/
def tripsTold (s : State) (m : Nat) (x : Meter) : State :=
  let y := s.meter m
  let s := vertexSet portPw s (928 + m) (meterVertex y)
  let s := if x.trip0 != y.trip0 then meterNotice s m else s
  if x.trip1 != y.trip1 then meterNotice s m else s

/-- A request that waited for the slot of meter `m` ends (R248). -/
def waiterEnds (m : Nat) (s : State) : MeterWaiter → State
  | .entry src idx => complete portPw s src idx ccSuccess 0 []
  | .slot n =>
    match (s.slot n).exec with
    | some e =>
      match e.parts with
      | p :: _ =>
        if e.code = 0x0E && e.target.toNat = m then ccwEnded portPw s n p.ccw (noteOf p.flags.toNat) (byNext p.flags.toNat p.ccw) else s
      | [] => s
    | none => s

/-- The meter in its slot: what waits applies, then the update, which is published at the slot's end (R236); a unit that is
being reset or RETIRED makes none (log 34). -/
def meterInSlot (s : State) (d : Nat) (x : Meter) : Meter :=
  let begun := meterBegun x
  let y := if x.unit = .inService then meterUpdated s d (slotStart s d) begun else begun
  { y with snap := snapOf y, waiters := [], hist := (slotStart s d + 4, y.value) :: y.hist.take 3 }

/-- One slot of a meter, in its place among those of the die's passes (R236–R241, R246). -/
def meterSlotAt (s : State) (m : Nat) : State :=
  let d := m / 64
  if !dieUp s d || !slotMay s m then s
  else
    let x := s.meter m
    let s := slotPassed (s.modMeter m (fun x => meterInSlot s d x)) d
    let s := if m % 64 = 0 then s.modDie d (fun x => { x with passes := x.passes + 1 }) else s
    let s := tripsTold s m x
    x.waiters.foldl (waiterEnds m) s

def execMeterSlot (meter : Nat) (s : State) : Host.Outcome State Fault Refusal :=
  run (.meterSlot meter) s (fun s => meterSlotAt s meter)

/-! ### What bus devices do unasked (R175, R177, R179, R181, R194) -/

/-- Lane `n` takes part in its bus: it is on, its unit works and its pins are driven (R24, R158). -/
def laneHears (s : State) (n : Nat) : Bool :=
  let l := s.lane n
  laneOn l && !isPartner s n && (strobeOf s n).isNone && !laneGone s n && (s.lane (servingLane s n)).unit = .inService &&
  !(s.cluster (laneCluster (servingLane s n))).bankFault && dieUp s (laneDieNow s n)

/-- A host notify write to address 0x08 (R175): the lane is idle, or is only starting its own transaction. -/
def hostNotify (s : State) (n : Nat) (address : BitVec 7) (data : Half) : State :=
  let l := s.lane n
  let p := personality l
  if !laneHears s n || !(p = 3 || p = 4) || !wb l.opt 5 || (l.txn.isSome && l.begun) || l.held.isSome || l.lead.isSome then s
  else
    let s := if wb l.notify 7 then setLaneErr s n 0x40 false else s
    s.modLane n (fun l => { l with notify := w32 (address.toNat + 128 + 65536 * data.toNat) })

def execSmbusHostNotify (lane : Nat) (address : BitVec 7) (data : Half) (s : State) : Host.Outcome State Fault Refusal :=
  run (.smbusHostNotify lane address data) s (fun s => hostNotify s lane address data)

/-- An in-band interrupt (R177): queued as an 8-byte record, or refused. -/
def inBand (s : State) (n : Nat) (address : BitVec 7) (payload : List Byte) : State :=
  let l := s.lane n
  if !laneHears s n || personality l != 5 then s
  else if !wb l.opt 7 || !l.devices.contains (w8 address.toNat) || 16 ≤ l.ibi.length then setLaneErr s n 0x80 false
  else
    let got := payload.take (wf l.opt 8 3)
    let rec' := [w8 address.toNat, w8 got.length] ++ sub got 0 4 ++ [0, 0]
    setLaneErr (s.modLane n (fun l => { l with ibi := l.ibi ++ [rec'] })) n 0 true

def execInBandInterrupt (lane : Nat) (address : BitVec 7) (payload : List Byte) (s : State) : Host.Outcome State Fault Refusal :=
  run (.inBandInterrupt lane address payload) s (fun s => inBand s lane address payload)

/-- A READ of a UART lane ends at a lost or bad byte, with class 0x6 at its index (R179, R196). -/
def uartEnds (s : State) (n index errs : Nat) (recv : List Byte) : State :=
  laneNext (laneDone portPw (laneAborts s n (some laneFailed) (devStatus 6 (BitVec.ofNat 12 index)) errs 0 recv []) n) n

/-- One more overrun of a UART lane, as SENSE counts them (R195). -/
def overrun (s : State) (n : Nat) : State := s.modLane n (fun l => { l with overruns := l.overruns + 1 })

/-- A character as it came is bad: its stop bit is low, or, where the lane has parity, its parity bit is wrong (R172, R179). -/
def uartBad (l : Lane) (b : Byte) (parity stop : Bool) : Bool :=
  !stop || (wf l.opt 1 2 != 0 && parityBit (wf l.opt 1 2) ((byteBits true b).take (if wb l.opt 0 then 8 else 7)) != [parity])

/-- A character arrives at a UART lane (R179): taken by a running READ, held with RX_ALWAYS, else discarded. -/
def uartByte (s : State) (n : Nat) (byte : Byte) (parity stop : Bool) : State :=
  let l := s.lane n
  if !laneHears s n || personality l != 8 then s
  else
    let b := if wb l.opt 0 then byte else byte &&& 0x7F
    let bad := uartBad l byte parity stop
    let full := decide (fifoBytes l.fifo ≤ l.rx.length)
    let read : Bool := match l.txn with
      | some c => c.op = .read && decide (l.rx.length < c.count) && !laneStreamed s n
      | none => false
    if read then
      if l.paused && full then uartEnds (overrun s n) n l.rx.length 0x40 []
      else if bad then uartEnds s n l.rx.length 0x10 [b]
      else s.modLane n (fun l => { l with rx := l.rx ++ [b], waitFrom := s.edges })
    else if !wb l.opt 4 then s
    else if full then setLaneErr (overrun s n) n 0x40 false
    else
      let s := s.modLane n (fun l => { l with rx := l.rx ++ [b] })
      if bad then setLaneErr s n 0x10 false else s

def execUartRxByte (lane : Nat) (byte : Byte) (parity stop : Bool) (s : State) : Host.Outcome State Fault Refusal :=
  run (.uartRxByte lane byte parity stop) s (fun s => uartByte s lane byte parity stop)

/-- A tachometer lane counts (R157): it is on and its personality is tachometer. -/
def tachOn (s : State) (n : Nat) : Bool := laneHears s n && personality (s.lane n) = 0xB

/-- A counted tachometer edge (R181): the revolution time is that of the latest PULSES + 1 intervals (log 33). -/
def tachCounts (s : State) (n : Nat) (rising : Bool) : State :=
  let l := s.lane n
  if !tachOn s n || rising != wb l.opt 3 then s
  else
    let k := wf l.opt 0 3 + 1
    let gaps := match l.tachLast with
      | some t => l.tachGaps ++ [s.edges - t]
      | none => l.tachGaps
    let gaps := gaps.drop (gaps.length - k)
    s.modLane n (fun l => { l with
      tachLast := some s.edges, tachEdges := l.tachEdges + 1, tachStalled := false, tachGaps := gaps
      tachTime := if gaps.length = k then w32 (gaps.foldl (· + ·) 0) else l.tachTime })

def execTachEdge (lane : Nat) (rising : Bool) (s : State) : Host.Outcome State Fault Refusal :=
  run (.tachEdge lane rising) s (fun s => tachCounts s lane rising)

/-- No counted edge has come for STALL ms (R172, R181). -/
def tachStalls (s : State) (n : Nat) : State :=
  let l := s.lane n
  let ms := if wf l.opt 8 16 = 0 then 1000 else wf l.opt 8 16
  let from_ := match l.tachLast with | some t => max t l.tachFrom | none => l.tachFrom
  if tachOn s n && decide (from_ + 100000 * ms ≤ s.edges) then s.modLane n (fun l => { l with tachStalled := true }) else s

def execTachStall (lane : Nat) (s : State) : Host.Outcome State Fault Refusal := run (.tachStall lane) s (fun s => tachStalls s lane)

/-- The bytes of a target-lane write are committed a dword at a time, at its last byte (R194): bytes of the dword that the
transaction did not write keep what the mailbox holds. `held` are those written of the dword at `off`. -/
def targetCommits (n f : Nat) : State → Nat → List (Nat × Byte) → List Byte → State
  | s, off, held, [] =>
    if held.isEmpty then s else violate s (fnPort f) vPartialWrite (.oob n) (0x2000 + off / 4 * 4) 0 0
  | s, off, held, b :: bs =>
    let held := held ++ [(off % 4, b)]
    if off % 4 = 3 then
      let old := sub (mailboxBytes s f) (off / 4 * 4) 4
      let new := held.foldl (fun w e => lset w e.1 e.2) old
      targetCommits n f (mailboxWrite s (.oob n) f (off / 4) new) ((off + 1) % 64) [] bs
    else targetCommits n f s (off + 1) held bs

/-- The data bytes and the PEC byte of a target-lane write (R193): where PEC is required and none came apart, the last byte is taken for it;
a write that a read follows has its PEC after the read. -/
def targetPec (need : Bool) (nread : Nat) (bs : List Byte) (pec : Option Byte) : List Byte × Option Byte :=
  if !need || nread != 0 then (bs, none)
  else match pec with
    | some p => (bs, some p)
    | none => (bs.dropLast, bs.getLast?)

/-- A transfer on the bus of a target lane: bytes taken and acknowledged, but an offset or a PEC byte that is refused, then bytes returned,
with the PEC that an I2C target appends (R193, R194). -/
def targetWire (l : Lane) (offset : Option Byte) (bs : List Byte) (pec : Option Byte) (back : List Byte) : List Wire :=
  let need := personality l = 0xD && wb l.tgt 11
  let a := wf l.tgt 0 7
  let taken (ok : Bool) (b : Byte) : List Wire := if personality l = 0xE then i3cByte true b else i2cTaken ok b
  let w := w8 (2 * a) :: offset.toList ++ bs
  let sum := pecOf ((if offset.isSome then w else []) ++ w8 (2 * a + 1) :: back)
  (match offset with | some o => taken (decide (o.toNat < 0x40)) o | none => []) ++ bs.flatMap (taken true) ++
    (match pec with | some p => taken (p = pecOf w) p | none => []) ++
    (back ++ (if need && !back.isEmpty then [sum] else [])).map (fun b => .send 1 (byteBits false b))

/-- A management controller's transfer (R194): its written bytes are committed dword by dword, so that a PEC mismatch discards what is not,
and it reads from its offset upward, wrapping; a read with no offset begins at a free one (log 73). -/
def targetTransfer (s : State) (n : Nat) (written : List Byte) (nread : Nat) (pec : Option Byte) : State :=
  let l := s.lane n
  let f := wf l.tgt 8 3
  if !laneHears s n || !mailboxReach s (.oob n) f || !(laneDie n = fnPort f || arcUp s) then s
  else
    let back (s : State) (off : Nat) : List Byte := (List.range nread).map (fun i => (mailboxBytes s f).getD ((off + i) % 64) 0)
    let served (s : State) (w : List Wire) : State := s.modLane n (fun l => { l with served := l.served + 1, wire := w })
    match written with
    | [] =>
      let (k, s) := s.freeWord
      if nread = 0 then s else served s (targetWire l none [] none (back s k.toNat))
    | off :: bs =>
      if 0x40 ≤ off.toNat then s.modLane n (fun l => { l with wire := targetWire l (some off) [] none [] })
      else
        let (bs, p) := targetPec (personality l = 0xD && wb l.tgt 11) nread bs pec
        let s := targetCommits n f s off.toNat [] bs
        served s (targetWire l (some off) bs p (back s off.toNat))

/-- An I3C target mailbox gets its dynamic address (R193): by ENTDAA, which it answers with the provisional ID, BCR 0 and DCR 0 while it has
none (PRESUMED, log 73), or by SETDASA at its static address. -/
def targetAddressed (s : State) (n : Nat) (daa : Bool) (to_ address : BitVec 7) : State :=
  let l := s.lane n
  if !laneHears s n || personality l != 0xE then s
  else if daa then
    (if l.dynAddr.isSome then s
     else s.modLane n (fun l => { l with
       dynAddr := some address, wire := [.send 1 (numBits 64 (Config.provisionalId.toNat * 65536)), .sample 1 (numBits 7 address.toNat)] }))
  else if wf l.tgt 0 7 != to_.toNat then s
  else s.modLane n (fun l => { l with dynAddr := some address })

/-- What a management controller does with a target lane (R193, R194). -/
def targetServes (s : State) (n : Nat) : TargetReq → State
  | .transfer written nread pec => targetTransfer s n written nread pec
  | .entdaa a => targetAddressed s n true 0 a
  | .setdasa t a => targetAddressed s n false t a

def execTargetMailboxTransfer (lane : Nat) (req : TargetReq) (s : State) : Host.Outcome State Fault Refusal :=
  run (.targetMailboxTransfer lane req) s (fun s => targetServes s lane req)

/-- A PWM period starts (R181, R182): DUTY and PERIOD as written last, and a PWM_FORCE that waits. -/
def pwmStarts (s : State) (n : Nat) : State :=
  let l := s.lane n
  if !laneOn l || personality l != 0xA || governor s n != n || !dieUp s (laneDieNow s n) then s
  else s.modLane n (fun l => { l with
    pwmNow := pwmTaken l.pwm, pwmFrom := s.edges, pwmForceNew := none
    pwmForce := match l.pwmForceNew with | some f => f | none => l.pwmForce })

def execPwmPeriodStart (lane : Nat) (s : State) : Host.Outcome State Fault Refusal :=
  run (.pwmPeriodStart lane) s (fun s => pwmStarts s lane)

end Sys2Proof.Machine
end

