-- ==== Sys2Proof/Machine/Failover.lean ====
section
/-! DEFINITION. The meanings of what the device's own checks find: bank, memory, engine and lane faults, the loss, adoption and
return of a half, SPLIT, and the Arc bridge (R24, R28, R341, R342, R389–R414). -/

namespace Sys2Proof.Machine

/-! ### Banks, engines and lane units (R24, R28, R392, R401) -/

/-- The supply of a bank is measured (R24, R25, R492). A bank in fault stays so until a region reset. -/
def bankMeasured (s : State) (c : Nat) (measured : BitVec 2) (inRange : Bool) : State :=
  let s := s.modCluster c (fun x => { x with measured := measured })
  let x := s.cluster c
  if dieUp s (c / 16) && !x.bankFault && (measured != x.volts || !inRange) then bankFails portPw s c else s

def execBankFault (cluster : Nat) (measured : BitVec 2) (inRange : Bool) (s : State) : Host.Outcome State Fault Refusal :=
  run (.bankFault cluster measured inRange) s (fun s => bankMeasured s cluster measured inRange)

/-- The engine that serves a cluster fails its check. -/
def engineFault (s : State) (c : Nat) : State :=
  let serving := match (s.cluster c).engine with
    | .own | .spare _ => true
    | _ => false
  if dieUp s (c / 16) && serving then engineFails portPw s c else s

def execEngineFault (cluster : Nat) (s : State) : Host.Outcome State Fault Refusal :=
  run (.engineFault cluster) s (fun s => engineFault s cluster)

/-- The spare chosen for a cluster takes its slots and resumes its lanes (R165, R392). -/
def spareTakeover (s : State) (c : Nat) : State :=
  match spareOf s c with
  | some q => if dieUp s (c / 16) && (s.cluster c).engine = .failed then spareTakes portPw s c q else s
  | none => s

def execSpareTakeover (cluster : Nat) (s : State) : Host.Outcome State Fault Refusal :=
  run (.spareTakeover cluster) s (fun s => spareTakeover s cluster)

/-- A lane unit that works, or is being reset, fails. -/
def laneUnitFault (s : State) (n sent : Nat) (recv : List Byte) : State :=
  let u := (s.lane n).unit
  if dieUp s (laneDie n) && (u = .inService || u = .resetting) then laneFault portPw s n 0 sent recv else s

def execLaneUnitFault (lane sent : Nat) (recv : List Byte) (s : State) : Host.Outcome State Fault Refusal :=
  run (.laneUnitFault lane sent recv) s (fun s => laneUnitFault s lane sent recv)

/-! ### Fatal faults and the other half's ALIVE (R389, R391, R410–R413) -/

/-- A fast clock fails its monitor: vertex 7 and a fatal fault. -/
def clockFails (s : State) (d : Nat) : State := if dieUp s d then dieFatalAt (fireFault portPw s d 7) d 4 else s

def execFastClockFailure (d : Nat) (s : State) : Host.Outcome State Fault Refusal := run (.fastClockFailure d) s (fun s => clockFails s d)

/-- The die watchdog expires; it is armed when firmware starts, and held while the steward's clock is stopped, while a rollback
runs and while firmware reloads (R410, R472). -/
def watchdog (s : State) (d : Nat) : State :=
  let x := s.die d
  if x.alive && x.stewardClock && x.stw.pair = 0 then dieFatalAt s d 3 else s

def execDieWatchdogExpiry (d : Nat) (s : State) : Host.Outcome State Fault Refusal := run (.dieWatchdogExpiry d) s (fun s => watchdog s d)

def execSupplyOutOfRange (d : Nat) (s : State) : Host.Outcome State Fault Refusal :=
  run (.supplyOutOfRange d) s (fun s => dieFatalAt s d 5)

/-- VDD_AON of a half leaves its range: ALIVE stops and the half is Off (R410, R462). -/
def aonLost (s : State) (d : Nat) : State :=
  s.modDie d (fun x => { x with power := .off, alive := false, stewardClock := false, arc := { x.arc with link := 0 } })

def execVddAonLoss (d : Nat) (s : State) : Host.Outcome State Fault Refusal := run (.vddAonLoss d) s (fun s => aonLost s d)

/-- Half `d` judges the other half silent (R411): lost, or a wire fault while the data path and the side band stand. -/
def silenceAt (s : State) (d : Nat) : State :=
  let x := s.die d
  if !dieUp s d || !x.monitor || x.wireFault || isLost s (1 - d) then s
  else if arcUp s && x.arc.sideband then
    let s := s.modDie d (fun x => { x with wireFault := true, seen := false, losses := x.losses + 1 })
    stewardNotice (fireFault portPw (bbxRecord s d 0x0F 1 []) d 6) d 13 256
  else halfLostAt portPw s (1 - d)

def execAliveSilence (d : Nat) (s : State) : Host.Outcome State Fault Refusal := run (.aliveSilence d) s (fun s => silenceAt s d)

/-- No ALIVE edge has come from the other half within 500 ms of the start of this one's firmware: it is judged lost (R472). -/
def peerTimeout (s : State) (d : Nat) : State :=
  let x := s.die d
  match x.startAt with
  | none => s
  | some t =>
    if dieUp s d && !x.monitor && !isLost s (1 - d) && decide (t + 50000000 ≤ s.edges) then halfLostAt portPw s (1 - d) else s

def execPeerEdgeTimeout (d : Nat) (s : State) : Host.Outcome State Fault Refusal := run (.peerEdgeTimeout d) s (fun s => peerTimeout s d)

/-- Half `d` receives ALIVE edges of the other half: its monitor is armed, or a judged silence ends (R377, R418, R472). -/
def aliveAgain (s : State) (d : Nat) : State :=
  let x := s.die d
  if !dieUp s d || !(s.die (1 - d)).alive || x.seen then s
  else
    let judged := x.wireFault || isLost s (1 - d)
    let s := s.modDie d (fun x => { x with monitor := true, seen := true, wireFault := false })
    if judged then stewardNotice (bbxRecord s d 0x0F 2 []) d 13 0 else s

def execAliveRegained (d : Nat) (s : State) : Host.Outcome State Fault Refusal := run (.aliveRegained d) s (fun s => aliveAgain s d)

/-- SPLIT is entered (R412): the data path has been down for 200 ticks while both halves are alive. -/
def splitBegins (s : State) : State :=
  if s.pkg.split || arcUp s || !dieUp s 0 || !dieUp s 1 || !s.die0.alive || !s.die1.alive || s.edges < s.die0.arc.downAt + 200 then s
  else
    let s := takeCustody portPw (s.modPkg (fun p => { p with split := true })) (b2n s.pkg.tiebreak) true
    let s := vertexSet portPw s 1493 true
    s.each [0, 1] (fun s d => stewardNotice (bbxRecord s d 0x11 1 []) d 13 258)

def execSplitEntry (s : State) : Host.Outcome State Fault Refusal := run .splitEntry s splitBegins

/-- A lost cluster's programs and lists are adopted by a region that runs (R406). -/
def adopted (s : State) (l : Nat) : State :=
  let a := l ^^^ 16
  if isLost s (l / 16) && !(s.cluster l).adopted && regionRuns s (a / 4) then adoptAt portPw s l else s

def execAdoption (lost : Nat) (s : State) : Host.Outcome State Fault Refusal := run (.adoption lost) s (fun s => adopted s lost)

/-- 10 ms after the loss the lost half gets its die reset, once, unless HOLD_LOST holds it (R414). -/
def lostHalfReset (s : State) (d : Nat) : State :=
  match (s.die d).lostAt with
  | none => s
  | some t => if isLost s d && !s.pkg.holdLost && decide (t + 1000000 ≤ s.edges) then dieResetAt portPw s d else s

def execLostHalfReset (d : Nat) (s : State) : Host.Outcome State Fault Refusal := run (.lostHalfReset d) s (fun s => lostHalfReset s d)

/-- A lost half that has been reset, drives ALIVE and has its bridge up rejoins (R414). -/
def halfRejoin (s : State) (d : Nat) : State :=
  let x := s.die d
  if isLost s d && x.lostAt.isNone && x.alive && (s.die (1 - d)).seen && arcUp s then rejoinAt s d else s

def execHalfRejoin (d : Nat) (s : State) : Host.Outcome State Fault Refusal := run (.halfRejoin d) s (fun s => halfRejoin s d)

/-! ### The Arc bridge (R58, R341–R343) -/

/-- The code of a cause in ARC_STATUS. -/
def arcCode : ArcCause → Nat
  | .replayLimit => 1
  | .silence => 2
  | .otherReset => 3
  | .trainingFailed => 4

/-- Changes the Arc bridge end of die `d`. -/
def modArc (s : State) (d : Nat) (f : Arc → Arc) : State := s.modDie d (fun x => { x with arc := f x.arc })

/-- The flit's channel has no place for it at the receiver, so that its sender, without credit, has not sent it (R337); a completion has
its place reserved (R338). -/
def arcFull (x : Arc) : ArcChannel → Bool
  | .posted => decide (64 ≤ x.pBuf)
  | .nonPosted => decide (64 ≤ x.npBuf)
  | .completion => false

/-- A flit enters the receive buffer of its channel (R337). -/
def arcPush (ch : ArcChannel) (x : Arc) : Arc :=
  match ch with
  | .posted => { x with pBuf := x.pBuf + 1 }
  | .nonPosted => { x with npBuf := x.npBuf + 1 }
  | .completion => { x with cplBuf := x.cplBuf + 1 }

/-- The receive buffers drain, each at the rate of the bridge, 8 flits in a tick (R336, R340; DESIGN CHOICE, log 72): credit returns. -/
def arcDrained (x : Arc) : Arc := { x with pBuf := x.pBuf - 8, npBuf := x.npBuf - 8, cplBuf := x.cplBuf - 8 }

/-- A data flit arrives at die `d` (R337, R341): taken in sequence into its channel's buffer, or replayed by its sender; the fourth failure
of a flit brings the bridge down. -/
def flitArrives (s : State) (d : Nat) (seq : Half) (ok : Bool) (ch : ArcChannel) : State :=
  let x := (s.die d).arc
  if !arcUp s || x.link != 2 || arcFull x ch then s
  else if ok then
    if seq != x.expect then s
    else modArc (modArc (modArc s d (arcPush ch)) d (fun a => { a with expect := a.expect + 1, bad := 0, rx := a.rx + 1 })) (1 - d)
      (fun a => { a with tx := a.tx + 1 })
  else
    let s := modArc (modArc s d (fun a => { a with bad := a.bad + 1 })) (1 - d) (fun a => { a with replays := sat a.replays })
    if x.bad + 1 = 4 then arcDownAt portPw s 1 else s

def execArcFlitReceive (d : Nat) (seq : Half) (ok : Bool) (ch : ArcChannel) (s : State) : Host.Outcome State Fault Refusal :=
  run (.arcFlitReceive d seq ok ch) s (fun s => flitArrives s d seq ok ch)

/-- The bridge goes down; one that is parked is not found silent (R341). -/
def arcGoesDown (s : State) (cause : ArcCause) : State :=
  let parked := s.die0.arc.link = 3 && s.die1.arc.link = 3
  if !arcUp s || (parked && (cause = .silence || cause = .replayLimit)) then s else arcDownAt portPw s (arcCode cause)

def execArcDown (cause : ArcCause) (s : State) : Host.Outcome State Fault Refusal := run (.arcDown cause) s (fun s => arcGoesDown s cause)

/-- Half `d` has power and has not stopped itself, be it lost or not. -/
def halfLives (s : State) (d : Nat) : Bool := (s.die d).power != .off && !(s.die d).selfStopped

/-- SPLIT ends as the data path returns (R58, R412): the PKG block is one for both halves. -/
def splitEnds (s : State) : State :=
  if !s.pkg.split then s
  else
    let s := vertexSet portPw (s.modPkg (fun p => { p with split := false })) 1493 false
    s.each [0, 1] (fun s d => stewardNotice (bbxRecord s d 0x11 0 []) d 13 2)

/-- Final status writes that waited for the bridge are made (R133). -/
def heldWritten (s : State) : State :=
  s.heldFinal.foldl (fun s n =>
    if finalHeld s n then s else finishWrite portPw { s with heldFinal := s.heldFinal.filter (· != n) } n false) s

/-- The bridge has trained (R58, R67, R342): the custody half's PKG block is the other half's too. -/
def arcReturns (s : State) : State :=
  let s := (s.modPkg (fun p => { p with other := none })).each [0, 1] (fun s d =>
    let s := arcLink (modArc s d (fun a => { a with expect := 0, bad := 0 })) d 2
    if isLost s d then s else bbxRecord s d 0x0E (s.die d).arc.cause.toNat [])
  heldWritten ((splitEnds s).each (List.range 8) windowDrop)

/-- An attempt to train the bridge, every 1,000 ticks (R342). -/
def arcRetrains (s : State) (ok : Bool) : State :=
  if arcUp s || !halfLives s 0 || !halfLives s 1 || s.edges < s.die0.arc.tryAt || s.edges < s.die1.arc.tryAt then s
  else if ok then arcReturns s
  else s.each [0, 1] (fun s d => modArc s d (fun a => { a with cause := 4, tryAt := s.edges + 1000 }))

def execArcRetrain (ok : Bool) (s : State) : Host.Outcome State Fault Refusal := run (.arcRetrain ok) s (fun s => arcRetrains s ok)

/-! ### Memory integrity (R344, R345, R393–R397) -/

/-- The die of an instance of a memory. -/
def memDie (k : MemKind) (i : Nat) : Nat :=
  match k with
  | .regionSram => i / 4
  | .clusterMem => i / 16
  | _ => i

/-- The code of a memory (R393). -/
def memCode : MemKind → Nat
  | .regionSram => 0
  | .clusterMem => 1
  | .stewardSram => 2
  | .chordStore => 3
  | .blackBox => 4
  | .queueState => 5

/-- The scrubber of a memory runs: in Run and Doze, and in Rest that of an always-on memory (R31, R394). -/
def scrubs (s : State) (k : MemKind) (i : Nat) : Bool :=
  let d := memDie k i
  dieUp s d && ((s.die d).power != .rest || k = .chordStore || k = .blackBox)

/-- An error is logged and counted (R423, R424). -/
def memLogged (s : State) (k : MemKind) (i word : Nat) (ue : Bool) : State :=
  match k with
  | .regionSram => logSramError s i word ue false
  | .clusterMem =>
    (logSramError s (i / 4) word ue false).modRegion (i / 4) (fun x => { x with errLast := x.errLast ||| w32 (1 + 8 * (i % 4)) })
  | _ => s.modDie i (fun x => { x with
      ceCount := if ue then x.ceCount else sat x.ceCount
      ueCount := if ue then sat x.ueCount else x.ueCount })

/-- The spare rows a memory has left. -/
def rowsLeft (s : State) (k : MemKind) (i : Nat) : Nat :=
  match k with
  | .regionSram => (s.region i).rows
  | .clusterMem => (s.cluster i).rows
  | .stewardSram => (s.die i).stw.rows
  | .chordStore => (s.die i).chordRows
  | .blackBox => (s.die i).bbx.rows
  | .queueState => (s.die i).queueRows

/-- One spare row fewer. -/
def rowUsed (s : State) (k : MemKind) (i : Nat) : State :=
  match k with
  | .regionSram => s.modRegion i (fun x => { x with rows := x.rows - 1 })
  | .clusterMem => s.modCluster i (fun x => { x with rows := x.rows - 1 })
  | .stewardSram => s.modDie i (fun x => { x with stw := { x.stw with rows := x.stw.rows - 1 } })
  | .chordStore => s.modDie i (fun x => { x with chordRows := x.chordRows - 1 })
  | .blackBox => s.modDie i (fun x => { x with bbx := { x.bbx with rows := x.bbx.rows - 1 } })
  | .queueState => s.modDie i (fun x => { x with queueRows := x.queueRows - 1 })

/-- The functions that use a tile (R20): its owner, of a sealed tile the owners of the chords that seal it, of a body chain's tile the
function of its program. -/
def tileUsers (s : State) (t : Nat) : List Nat :=
  match (s.tile t).owner with
  | .fn f => [f]
  | .device => (List.range 8).filter (fun f =>
      (sealers s t).any (fun c => recOwner (s.chord c).record = f) || s.slots.any (fun e => e.2.st != .free && e.2.body = some t && e.2.fn = f))
  | _ => (List.range 8).filter (fun f => s.slots.any (fun e => e.2.st != .free && e.2.body = some t && e.2.fn = f))

/-- The owner code of a TILE_RETIRED record (R418). -/
def tileOwnerCode (s : State) (t : Nat) : Nat :=
  match (s.tile t).owner with
  | .fn f => f
  | .steward => 8
  | .device => 9
  | .pool => if t % 512 < 16 then 9 else 0xF

/-- A tile is retired or remapped: vertex 2, the count and the record (R396, R418). `pool` is the pool tile used. -/
def tileReported (s : State) (t : Nat) (pool : Option Nat) : State :=
  let d := t / 2048
  let s := s.modDie d (fun x => { x with tilesRetired := x.tilesRetired + 1 })
  let s := bbxRecord s d 0x09 (t / 512 + 8 * (t % 512) + 4096 * (tileGen s t).toNat + 65536 * tileOwnerCode s t + 2 ^ 20 * b2n pool.isSome)
    (match pool with | some p => leBytes 2 (p % 512) | none => [])
  fireFault portPw s d 2

/-- A tile is retired (R396). -/
def tileRetires (s : State) (t : Nat) : State :=
  let s := s.modTile t (fun y => { y with retired := true, gen := y.gen + 1 })
  unitError (tileReported s t none) (t / 2048) 7 t (tileUsers s t)

/-- A device or sealed tile moves to a pool tile of its region: its bytes, and the poison of its words (R396). -/
def tileMoves (s : State) (t p : Nat) : State :=
  let r := t / 512
  let lo := physOff s r (t % 512 * 4096)
  let hi := p % 512 * 4096
  let bytes := (rangeL lo 4096).map (fun a => memRead (s.region r).sram a)
  let s := s.modRegion r (fun x => { x with sram := memWrite x.sram hi bytes })
  let bad := s.ecc.filter (fun e => e.1 = .regionSram && e.2.1 = r && lo / 4096 = e.2.2 / 512)
  let kept := s.ecc.filter (fun e => !(e.1 = .regionSram && e.2.1 = r && (e.2.2 / 512 = hi / 4096 || e.2.2 / 512 = lo / 4096)))
  let s := { s with ecc := kept ++ bad.map (fun (e : MemKind × Nat × Nat) => (e.1, e.2.1, e.2.2 % 512 + hi / 8)) }
  tileReported ((s.modTile t (fun y => { y with remap := some p })).modTile p (fun y => { y with used := true })) t (some p)

/-- A weak row of region SRAM with no spare row left (R396). The row may hold a tile that was moved there. -/
def sramTileFails (s : State) (r word : Nat) : State :=
  let q := 512 * r + word / 512
  let t := match s.tiles.find? (fun e => e.2.remap = some q) with
    | some e => e.1
    | none => q
  let device := t % 512 < 16 || (s.tile t).owner = .device || !(sealers s t).isEmpty
  if (s.tile t).retired || ((s.tile t).used && t = q && 16 ≤ t % 512) then s
  else if !device then tileRetires s t
  else match (rangeL (512 * r + 16) 496).find? (tileFree s) with
    | some p => tileMoves s t p
    | none => (sealers s t).foldl (fun s c => disarmAt portPw s c none) (tileRetires s t)

/-- Elements whose state may lie in a row that no layout of the manual names: a free bit says which (log 35). -/
def eachFree (l : List Nat) (f : State → Nat → State) (s : State) : State :=
  l.foldl (fun s n =>
    let (b, s) := s.freeBit
    if b then f s n else s) s

/-- The queues of a function whose state is lost stop (R397). -/
def queueStateLost (s : State) (f : Nat) : State :=
  let s := s.modFunc f (fun x => { x with stateBad := true })
  ((s.queues.map Prod.fst).filter (fun n => n / 128 = f)).foldl (fun s n => queueFail s f (n % 128) 0x05 (s.queue f (n % 128)).fetch) s

/-- A weak row of a memory with no spare row left (R396, R397). -/
def rowFails (s : State) (k : MemKind) (i word : Nat) : State :=
  match k with
  | .regionSram => sramTileFails s i word
  | .clusterMem => eachFree (rangeL (12 * i) 12) (fun s n => laneUnitFault s n 0 []) s
  | .stewardSram => dieFatalAt s i 6
  | .chordStore => (rangeL (2048 * i + word / 64 * 4) 4).foldl (fun s c => chordDropped portPw s c) s
  | .blackBox => s.modDie i (fun x => { x with bbx := { x.bbx with badRows := x.bbx.badRows ++ [word / 64] } })
  | .queueState => eachFree (rangeL (4 * i) 4) queueStateLost s

/-- A weak row is copied into a spare row, or fails (R395–R397). -/
def rowWeak (s : State) (k : MemKind) (i word : Nat) : State :=
  let d := memDie k i
  let s := s.modDie d (fun x => { x with scrubCe := x.scrubCe.filter (fun e => !(e.1 = k && e.2.1 = i && e.2.2 / 64 = word / 64)) })
  if rowsLeft s k i = 0 then rowFails s k i word
  else
    let s := rowUsed s k i
    bbxRecord s d 0x08 (memCode k + 16 * i + 512 * (word / 64) + 2 ^ 21 * rowsLeft s k i) []

/-- The scrubber finds a CE: the row is weak when the same word held one in the pass before, or another word of the row, which
the scrubber reads earlier in a pass, holds one in this pass (R395, log 35). -/
def scrubCorrects (s : State) (k : MemKind) (i word : Nat) : State :=
  let d := memDie k i
  let seen := (s.die d).scrubCe.filter (fun e => e.1 = k && e.2.1 = i && e.2.2 / 64 = word / 64)
  let s := memLogged s k i word false
  if seen.any (fun e => decide (e.2.2 ≤ word)) then rowWeak s k i word
  else s.modDie d (fun x => { x with scrubCe := x.scrubCe ++ [(k, i, word)] })

/-- The scrubber finds a UE: the word takes POISON, and the row is weak (R345, R394, R395). -/
def scrubPoisons (s : State) (k : MemKind) (i word : Nat) : State :=
  let d := memDie k i
  let s := memLogged { s with ecc := if s.ecc.contains (k, i, word) then s.ecc else s.ecc ++ [(k, i, word)] } k i word true
  let s := fireFault portPw (bbxRecord s d 0x0A (memCode k + 16 * i) (leBytes 4 word)) d 3
  let s := if k = .regionSram then unitError s d 7 (512 * i + word / 512) (tileUsers s (512 * i + word / 512)) else s
  rowWeak s k i word

/-- The words of a memory, where the manual gives its size (R11, R31, R159). -/
def memWords : MemKind → Nat
  | .regionSram => 262144
  | .clusterMem => 12288
  | .chordStore => 32768
  | .blackBox => 16384
  | .stewardSram => 98304
  | _ => 262144

/-- A scrub read (R394): a POISON word is not an error found anew. -/
def scrubbed (s : State) (k : MemKind) (i word : Nat) (found : EccFound) : State :=
  if !scrubs s k i || memWords k ≤ word || s.ecc.contains (k, i, word) then s
  else match found with
    | .clean => s.modDie (memDie k i) (fun x => { x with scrubCe := x.scrubCe.filter (· != (k, i, word)) })
    | .ce => scrubCorrects s k i word
    | .ue => scrubPoisons s k i word

def execScrubRead (mem : MemKind) (inst word : Nat) (found : EccFound) (s : State) : Host.Outcome State Fault Refusal :=
  run (.scrubRead mem inst word found) s (fun s => scrubbed s mem inst word found)

end Sys2Proof.Machine
end

