-- ==== Sys2Proof/Machine/Power.lean ====
section
/-! DEFINITION. The meanings of resets, boot, clocks, sleep and power failure (R149, R242, R311, R420, R458–R480). -/

namespace Sys2Proof.Machine

/-! ### Resets (R147, R149, R466, R470, R472, R473) -/

/-- PORST_N: unlike every other command it samples the straps and reads the OTP; the commands that wait and the clock's edges are
the model's own. -/
def execColdReset (straps : Straps) (failed : List (Nat × Nat)) (s : State) : Host.Outcome State Fault Refusal :=
  .next { coldAt portPw s straps failed with pending := s.pending, edges := s.edges }

def execPackageWarmReset (s : State) : Host.Outcome State Fault Refusal := run .packageWarmReset s (warmBegin portPw)

/-- Changes the state of a PCIe port. -/
def setPort (s : State) (p : Nat) (up inReset : Bool) : State :=
  s.modPkg (fun x => if p = 0 then { x with port0Up := up, port0Reset := inReset } else { x with port1Up := up, port1Reset := inReset })

/-- A port is in reset. -/
def portInReset (s : State) (p : Nat) : Bool := if p = 0 then s.pkg.port0Reset else s.pkg.port1Reset

/-- The link of a port is gone: outstanding reads through it end with PORT_LOST (R133). -/
def portGone (s : State) (p : Nat) : State := readsLost s (fun r => fnPort r.fn = p)

/-- PERST of a port goes low (R149). -/
def portResets (s : State) (p : Nat) : State :=
  if dieUp s p && !portInReset s p then portReset portPw (portGone (setPort s p false true) p) p else s

def execPciePortReset (port : Nat) (s : State) : Host.Outcome State Fault Refusal := run (.pciePortReset port) s (fun s => portResets s port)

/-- FLR of a function (R147); one of a function that is already being reset changes nothing. -/
def functionResets (s : State) (f : Nat) : State :=
  if dieUp s (fnPort f) && fnPresent s f && !portInReset s (fnPort f) && !(s.func f).inReset then resetOrWait portPw s f functionResetReason else s

def execFunctionLevelReset (f : Nat) (s : State) : Host.Outcome State Fault Refusal :=
  run (.functionLevelReset f) s (fun s => functionResets s f)

def execPcieLinkDown (port : Nat) (s : State) : Host.Outcome State Fault Refusal :=
  run (.pcieLinkDown port) s (fun s => portGone (setPort s port false (portInReset s port)) port)

/-- The port's link comes up, PERST being high (R470). -/
def execPcieLinkUp (port : Nat) (s : State) : Host.Outcome State Fault Refusal :=
  run (.pcieLinkUp port) s (fun s => if dieUp s port then setPort s port true false else s)

/-! ### Boot (R33, R420, R467, R472, R477–R480) -/

/-- A place where the ROM looks for an image: its SOURCE code, or none where it cannot be read. -/
def bootList (s : State) (d : Nat) : List Nat :=
  let a (d : Nat) : Nat := b2n (s.die d).flash.dir.active
  if d = 0 then [a 0, 1 - a 0] ++ (if arcUp s then [2 + a 1, 3 - a 1] else [])
  else (if backupFitted s then [2 + a 1, 3 - a 1] else []) ++ (if arcUp s then [4] else [])

/-- Changes the boot state of a half. -/
def modBoot (s : State) (d : Nat) (f : Boot → Boot) : State := s.modDie d (fun x => { x with boot := f x.boot })

/-- A saved copy comes back at a cold-reset boot and freezes the box (R420). -/
def boxRestored (s : State) (d : Nat) : State :=
  let x := s.die d
  match x.bbx.copy with
  | none => s
  | some c =>
    if x.lastReset != 0 || x.bbx.restored then s
    else withSourceEdge s (514 + 8 * d) (fun s => s.modDie d (fun x => { x with bbx := { x.bbx with
      records := c.records, newest := c.newest, seq := c.seq, wrapped := c.wrapped, written := true
      frozen := true, cause := 5, restored := true } }))

/-- The firmware of a half starts (R467, R472): ALIVE toggles, a BOOT record is written, and SAFE_STATE and SENTINEL_INIT apply where
the reset was no cold one; the die's converters are calibrated (R232, log 74). -/
def firmwareStarts (s : State) (d : Nat) : State :=
  let s := boxRestored s d
  let cold := (s.die d).lastReset = 0
  let s := calStart (s.modDie d (fun x => { x with alive := true, startAt := some s.edges, stewardClock := true })) d
  let s := if cold then s
    else
      let s := (rangeL (192 * d) 192).foldl (fun t n =>
        if (safeDrive s n false).isNone && (safeDrive s n true).isNone then t
        else t.modLane n (fun l => { l with driveA := safeDrive s n false, driveB := safeDrive s n true, safe := true })) s
      s.modPkg (fun p => if d = 0 then { p with sentinel0 := otpSentinels s 0 } else { p with sentinel1 := otpSentinels s 1 })
  bbxRecord s d 0x16 (s.die d).lastReset.toNat (leBytes 8 (s.die d).boot.version.toNat)

/-- The next image in the list of a half is read and checked (R477, R478). Die 1 waits for die 0's boot where it needs it. -/
def bootLoad (s : State) (d : Nat) (image : List Byte) (readOk : Bool) : State :=
  let b := (s.die d).boot
  let ls := bootList s d
  if !halfLives s d || 2 ≤ b.state.toNat then s
  else match ls[b.attempts.toNat]? with
    | none => modBoot s d (fun b => { b with state := 3 })
    | some src =>
      let peer := s.die0.boot
      let needs := d = 1 && arcUp s
      let img := if src = 4 then peer.image else image
      let rej := imageReject (s.die d).otp img (readOk || src = 4)
      let other := needs && src != 4 && imageVersion img != peer.version.toNat
      if needs && peer.state != 2 then s
      else if rej = 0 && !other then
        firmwareStarts (modBoot s d (fun b => bootOf img src (b.attempts.toNat + 1) b.reject)) d
      else modBoot s d (fun b => { b with
        attempts := b.attempts + 1, reject := if rej = 0 then b.reject else w8 rej
        state := if ls.length ≤ b.attempts.toNat + 1 then 3 else 1 })

def execBootImageLoad (d : Nat) (image : List Byte) (readOk : Bool) (s : State) : Host.Outcome State Fault Refusal :=
  run (.bootImageLoad d image readOk) s (fun s => bootLoad s d image readOk)

/-- A boot-failed half goes through its list again (R480). -/
def bootRetries (s : State) (d : Nat) : State :=
  if (s.die d).boot.state = 3 then modBoot s d (fun b => { b with state := 0, attempts := 0 }) else s

def execBootRetry (d : Nat) (s : State) : Host.Outcome State Fault Refusal := run (.bootRetry d) s (fun s => bootRetries s d)

/-- The event ring of a steward: 256 records in its data SRAM, at a place that the firmware chooses (log 39). -/
def stewardRingMade (s : State) (d : Nat) : State := ringMade s (8 + d) (4096 * (Config.stewardRing d).toNat) 8

/-- The firmware of a half is ready (R472): READY on the functions of its port, and the thermometer where both halves are (R479). -/
def firmwareReadyAt (s : State) (d : Nat) : State :=
  if !dieUp s d || (s.die d).boot.state != 2 || (s.func (4 * d)).ready then s
  else thermoRaise ((stewardRingMade s d).each (rangeL (4 * d) 4) (fun s f => s.modFunc f (fun x => { x with ready := true })))

def execFirmwareReady (d : Nat) (s : State) : Host.Outcome State Fault Refusal := run (.firmwareReady d) s (fun s => firmwareReadyAt s d)

/-! ### The reference clock and power failure (R420, R458) -/

/-- REFCLK is lost: the half's link ports go DOWN (R436, R458). -/
def refLostAt (s : State) (d : Nat) : State :=
  let s := s.modDie d (fun x => { x with refLost := true })
  (rangeL (2 * d) 2).foldl (fun s p =>
    if (s.port p).st = .disabled || (s.port p).st = .down then s else portLeaves portPw s p .down ((s.port p).st = .up)) s

def execRefclkLost (d : Nat) (s : State) : Host.Outcome State Fault Refusal := run (.refclkLost d) s (fun s => refLostAt s d)
def execRefclkRelock (d : Nat) (s : State) : Host.Outcome State Fault Refusal :=
  run (.refclkRelock d) s (fun s => s.modDie d (fun x => { x with refLost := false }))

/-- The half's flash region for its box can be reached and is erased: no saved copy stands in it unconsumed (R420, R481). -/
def maySave (s : State) (d : Nat) : Bool := !(s.die d).bbx.restored && (s.die d).bbx.copy.isNone && (d = 0 || backupFitted s || arcUp s)

/-- PFAIL_N asserts (R198, R419, R420): V1494, the PFAIL record and the freeze, and each half starts to save its box. -/
def pfailBegins (s : State) (samples : Nat) : State :=
  if s.pkg.pfail || !filterAccepts 2 samples then s
  else
    let s := vertexSet portPw (s.modPkg (fun p => { p with pfail := true })) 1494 true
    s.each [0, 1] (fun s d =>
      if !dieUp s d then s
      else
        let s := bbxFreezeBox (bbxRecord s d 0x15 0 []) d 3
        if maySave s d then s.modDie d (fun x => { x with bbx := { x.bbx with saving := true } }) else s)

def execPfailAsserted (samples : Nat) (s : State) : Host.Outcome State Fault Refusal := run (.pfailAsserted samples) s (fun s => pfailBegins s samples)

/-- The save of a box completes (R420, R425). -/
def saveDone (s : State) (d : Nat) : State :=
  if !(s.die d).bbx.saving || !halfLives s d then s
  else s.modDie d (fun x => { x with bbx := { x.bbx with
    saving := false, copy := some { records := x.bbx.records, newest := x.bbx.newest, seq := x.bbx.seq, wrapped := x.bbx.wrapped }
    savedRecords := if x.bbx.wrapped then 4096 else if x.bbx.written then x.bbx.newest.toNat + 1 else 0 } })

def execBlackboxSaveDone (d : Nat) (s : State) : Host.Outcome State Fault Refusal := run (.blackboxSaveDone d) s (fun s => saveDone s d)

/-! ### Sleep (R30, R242, R311, R459–R464) -/

/-- The regions and clusters whose sequencer serves a slot. -/
def slotBusyIn (s : State) (r : Nat) (e : Nat × Slot) : Bool :=
  e.2.st = .active && slotServer s e.1 / 4 = r

/-- Lane `n` has a command, or follows a lane that needs its clocks: a twin in shadow runs whenever the region of its primary does, and
one that serves its primary while that has a command (R400, R403). -/
def laneNeeds (s : State) (n : Nat) : Bool :=
  let busy (k : Nat) : Bool := (s.lane k).txn.isSome || !(s.lane k).queue.isEmpty
  let t := twinOf s n
  busy n || (t.valid && t.shadow && (if t.failedOver then busy t.other else decide ((s.region (laneRegion t.other)).power = .run)))

/-- A region has work (R30, R400, R459): a program ACTIVE or due to become so, a forwarded command, a running channel, a reset, a lane. -/
def regionBusy (s : State) (r : Nat) : Bool :=
  (s.region r).inReset || s.slots.any (slotBusyIn s r) || s.xfrs.any (fun e => e.1 / 16 = r && e.2.st = .running) ||
  (rangeL (4 * r) 4).any (fun c =>
    let x := s.cluster c
    !x.admits.isEmpty || !x.lostAdmit.isEmpty || !x.chords.isEmpty || !x.inbound.isEmpty) ||
  (rangeL (48 * r) 48).any (laneNeeds s)

/-- Ticks since a region or die has been idle, or asleep, reach a time of SLEEP_POLICY in µs; 0 never does (R463). -/
def sleepDue (s : State) (since lo : Nat) : Bool :=
  let us := wf s.pkg.sleep lo 16
  us != 0 && decide (since + 100 * us ≤ s.edges)

/-- DOZE (R461). -/
def regionDozes (s : State) (r : Nat) : State :=
  let x := s.region r
  if x.power = .run && dieUp s (r / 4) && !regionBusy s r && sleepDue s x.idleSince 0 then
    s.modRegion r (fun x => { x with power := .doze, idleSince := s.edges })
  else s

def execRegionDozeEntry (region : Nat) (s : State) : Host.Outcome State Fault Refusal :=
  run (.regionDozeEntry region) s (fun s => regionDozes s region)

/-- A region may be OFF (R461): REGION_OFF, and nothing of it held. A program's mirror lies in the region of the other half. -/
def regionMayOff (s : State) (r : Nat) : Bool :=
  wb s.pkg.sleep 35 && !s.tiles.any (fun e => e.1 / 512 = r && e.2.owner != .pool) && !s.slots.any (fun e => slotRegion e.1 = r ^^^ 4 && e.2.st != .free) &&
  !s.chords.any (fun e => chordRegion e.1 = r && e.2.st != .disarmed) && !s.lanes.any (fun e => laneRegion e.1 = r && laneOn e.2)

/-- GATED, or OFF where it is allowed (R461). -/
def regionGates (s : State) (r : Nat) : State :=
  let x := s.region r
  if !dieUp s (r / 4) || regionBusy s r then s
  else if x.power = .doze && sleepDue s x.idleSince 16 then s.modRegion r (fun x => { x with power := .gated })
  else if x.power = .gated && regionMayOff s r then s.modRegion r (fun x => { x with power := .off, cache := [] })
  else s

def execRegionGateEntry (region : Nat) (s : State) : Host.Outcome State Fault Refusal :=
  run (.regionGateEntry region) s (fun s => regionGates s region)

/-- Requests of a port's functions that firmware has not served: queue entries, mailbox requests (R462). -/
def unserved (s : State) (d : Nat) : Bool :=
  s.queues.any (fun e => e.1 / 512 = d && e.2.st = .running && (e.2.fetch != e.2.tail || e.2.flight.any (fun x => !x.effect))) ||
  (rangeL (4 * d) 4).any (fun f => match (s.func f).request with | some h => !h.effect | none => false)

/-- The steward of a die has no ready context, pending event or unserved request (R462). That firmware itself has no work is what
the command says (log 37). -/
def stewardIdle (s : State) (d : Nat) : Bool :=
  let x := (s.die d).stw.core
  !x.ctxs.any (fun e => 2 ≤ e.1 && e.2.st = .running) && x.running != 1 && (sourcesPending s (8 + d)).isEmpty && !unserved s d

/-- Doze (R462). -/
def dieDozes (s : State) (d : Nat) : State :=
  let x := s.die d
  if dieUp s d && x.power = .run && (rangeL (4 * d) 4).all (fun r => (s.region r).power != .run) && stewardIdle s d && sleepDue s x.idleSince 0 then
    s.modDie d (fun x => { x with power := .doze, stewardClock := false, idleSince := s.edges })
  else s

def execDieDozeEntry (d : Nat) (s : State) : Host.Outcome State Fault Refusal := run (.dieDozeEntry d) s (fun s => dieDozes s d)

/-- The request waits for a CLEAR, which has no data (R84, R248). -/
def waitsClear (s : State) : MeterWaiter → Bool
  | .entry _ _ => false
  | .slot n => match (s.slot n).exec with
    | some e => partsCount e.parts = 0
    | none => false

/-- The meter domain of a die stops: settings that wait apply at once, as they do while it is stopped, and what waits for them ends
(R245, R248). A CLEAR waits on. -/
def meterDomainStops (s : State) (d : Nat) : State :=
  let s := s.modDie d (fun x => { x with meterRun := false })
  ((s.meters.map Prod.fst).filter (fun m => m / 64 = d && (s.meter m).next.isSome)).foldl (fun s m =>
    let x := s.meter m
    let s := tripsTold (s.modMeter m (fun y => { meterTake y with waiters := y.waiters.filter (waitsClear s) })) m x
    (x.waiters.filter (fun w => !waitsClear s w)).foldl (waiterEnds m) s) s

/-- A meter on entry to Rest (R241, R242): its trips become inactive, which its vertex and its owner see. -/
def meterRests (s : State) (m : Nat) : State := tripsTold (s.modMeter m (fun x => { x with trip0 := false, trip1 := false })) m (s.meter m)

/-- Rest (R242, R311, R462). That the PCIe link is in L1 is not part of the state (log 37). -/
def dieRests (s : State) (d : Nat) : State :=
  let x := s.die d
  if dieUp s d && x.power = .doze && wb s.pkg.sleep (32 + d) &&
      (rangeL (4 * d) 4).all (fun r => (s.region r).power = .gated || (s.region r).power = .off) &&
      !x.bbx.saving && s.pkg.reloading != some d && !(wb s.pkg.sleep 34 && metersOn s d != 0) && sleepDue s x.idleSince 16 then
    let s := s.modDie d (fun x => { x with power := .rest, rested := true })
    meterDomainStops (((s.meters.map Prod.fst).filter (fun m => m / 64 = d)).foldl meterRests s) d
  else s

def execDieRestEntry (d : Nat) (s : State) : Host.Outcome State Fault Refusal := run (.dieRestEntry d) s (fun s => dieRests s d)

/-- The longest wake of a region and of a die in ticks (R460). -/
def regionWakeBound : RegionPower → Nat
  | .run => 0
  | .doze => 150
  | .gated => 1000
  | .off => 10000
def dieWakeBound : DiePower → Nat
  | .doze => 150
  | .rest => 1000
  | _ => 0

/-- The longest wake time of a die is kept (R486). -/
def wakeSeen (s : State) (d ticks : Nat) : State :=
  s.modDie d (fun x => { x with wakeMax := w16 (min 0xFFFF (max ticks x.wakeMax.toNat)) })

/-- Event state after a wake from Rest (R311): what was latched is written first, and LEVEL sources are sampled again. -/
def eventsWake (s : State) (d t : Nat) : State :=
  if targetDie t != d then s
  else
    let first := (sharedPending s t).filter (fun n => match (s.source n).pend with | some o => o.kind != kindLevel | none => false)
    let s := s.modTarget t (fun g => { g with replay := first })
    ((s.shared.map Prod.fst).filter (fun n => routeTarget (s.source n) = t)).foldl sampleLevel s

/-- A request stands for a fast domain of a die (R459, R462): a chord launch, a region's work, a doorbell, mailbox or submission, an
event for the steward, a context whose SYS.wait has ended, a flash access, or work that its running contexts left. -/
def dieAsked (s : State) (d : Nat) : Bool :=
  (s.die d).asked || !stewardIdle s d || (s.die d).bbx.saving || s.pkg.reloading = some d ||
  (s.die d).stw.core.ctxs.any (fun e => e.2.sysR.isSome) ||
  (rangeL (4 * d) 4).any (fun r => (s.region r).asked || ((s.region r).power != .run && regionBusy s r))

/-- A die runs again (R460, R462, R486) at a request for a fast domain of it. -/
def dieWakes (s : State) (d ticks : Nat) (access : Bool) : State :=
  let x := s.die d
  if !dieUp s d || !(access || dieAsked s d) || !(x.power = .doze || x.power = .rest) || dieWakeBound x.power < ticks then s
  else
    let s := wakeSeen (s.modDie d (fun x => { x with
      power := .run, stewardClock := x.boot.state = 2, wakes := x.wakes + 1, idleSince := s.edges, asked := false })) d ticks
    if x.power = .rest then s.each (List.range 10) (fun s t => eventsWake s d t) else s

/-- What a region that was OFF finds on waking (R461): its memories, channels and arbiter hold nothing (log 38). -/
def regionEmptied (s : State) (r : Nat) : State :=
  let s := s.modRegion r (fun x => { x with sram := [], cache := [], arb := {} })
  let s := { s with ecc := s.ecc.filter (fun e => !((e.1 = MemKind.regionSram && e.2.1 = r) || (e.1 = MemKind.clusterMem && e.2.1 / 4 = r))) }
  ((s.xfrs.map Prod.fst).filter (fun ch => ch / 16 = r)).foldl (fun s ch => s.modXfr ch (fun x => { unit := x.unit })) s

/-- A region runs again at a request for it (R459–R461); its die with it. -/
def regionWakes (s : State) (r ticks : Nat) (access : Bool) : State :=
  let x := s.region r
  if !dieUp s (r / 4) || x.power = .run || !(access || x.asked || regionBusy s r) || regionWakeBound x.power < ticks then s
  else
    let s := dieWakes s (r / 4) (min ticks (dieWakeBound (s.die (r / 4)).power)) true
    let s := if x.power = .off then regionEmptied s r else s
    wakeSeen (s.modRegion r (fun x => { x with power := .run, idleSince := s.edges, asked := false })) (r / 4) ticks

def execWakeComplete (t : WakeTarget) (ticks : Nat) (access : Bool) (s : State) : Host.Outcome State Fault Refusal :=
  run (.wakeComplete t ticks access) s (fun s => match t with
    | .region r => regionWakes s r ticks access
    | .die d => dieWakes s d ticks access)

end Sys2Proof.Machine
end

