-- ==== Sys2Proof/Machine/Clocks.lean ====
section
/-! DEFINITION. One tick of the pilot clock: what happens in it whatever is commanded (log 1): one-tick vertices release, counters
count, what waits for an idle point or for the next tick comes about (R31, R147, R197, R200, R201, R245, R302, R304, R341, R452, R466). -/

namespace Sys2Proof.Machine

/-! ### Vertices and lead segments -/

/-- The tick ends: one-tick sources release, and the next tick begins with no edge in it (R197, R452). -/
def nextEdge (s : State) : State :=
  let s := ticksReleased portPw s
  let s := { s with levels := s.ticking.foldl (fun t v => tset false t v false) s.levels, edgesNow := [] }
  pilotStep { s with edges := s.edges + 1 }

/-- Changes of inversion and of window mode that reach their vertex in this tick (R200, R231). -/
def turnsTaken (s : State) : State :=
  let now := s.turned.filter (fun t => decide (t.due ≤ s.edges))
  (now.map (·.vertex)).foldl (turnVertex portPw) { s with turned := s.turned.filter (fun t => decide (s.edges < t.due)) }

/-- Link vertices take the changes that wait, one each (R441). -/
def aliasesFollow (s : State) : State := (s.pkg.aliases.map Prod.fst).foldl (aliasStep portPw) s

/-- Lead segments past their last stroke end, and their lanes take up what waits (R205, R207). -/
def segmentsEnd (s : State) : State :=
  ((s.lanes.filter (fun e => match e.2.lead with | some x => x.closed | none => false)).map Prod.fst).foldl segmentEnds s

/-- Lead frames put their bits and clock edges on the pins (R209). -/
def framesRun (s : State) : State :=
  ((s.lanes.filter (fun e => match e.2.lead with | some x => x.frame | none => false)).map Prod.fst).foldl frameRuns s

/-- Running vertex timers count down (R201): timer `t` lies on die `t / 16`. -/
def timersCount (s : State) : State :=
  { s with timers := s.timers.map (fun e =>
      if e.2.run && e.2.left != 0 && dieUp s (e.1 / 16) then (e.1, { e.2 with left := e.2.left - 1 }) else e) }

/-! ### Counters and idle points -/

/-- EVC_STALLS counts the ticks in which a record waits for space (R302). -/
def stallsCount (s : State) : State :=
  (s.targets.map Prod.fst).foldl (fun s t =>
    let g := s.target t
    if g.live && ringFull g && dieUp s (targetDie t) && !(sourcesPending s t).isEmpty then s.modTarget t (fun g => { g with stalls := sat g.stalls })
    else s) s

/-- Function resets end (R147, log 11). -/
def functionResetsEnd (s : State) : State := s.each (List.range 8) functionResetOver

/-- A package warm reset that is due begins, its queue's head published, and takes effect once nothing holds it (R463, R466). -/
def warmResets (s : State) : State :=
  let s := if s.pkg.warmDue then
      let qs := (s.queues.filter (fun e => e.2.stopping)).map Prod.fst
      warmBegin portPw (qs.foldl (fun s n => headPublish s (n / 128) (n % 128)) s)
    else s
  if warmMay s then warmEffect portPw s else s

/-- A READ that runs on a lane whose bytes go to a channel ends (R321). -/
def streamReadEnds (s : State) (n : Nat) : State :=
  if laneStreamed s n && (match (s.lane n).txn with | some c => c.op = .read | none => false) then
    laneNext (laneDone portPw (laneAborts s n (some badPersonality) 0 0 0 [] (closingWire (s.lane n))) n) n
  else s

/-- Streams of lanes that no longer suit them end (R323), and READs on the lanes of the others. -/
def streamsChecked (s : State) : State :=
  ((s.xfrs.filter (fun e => e.2.st = .running && xfrStream e.2.cfg)).map (fun e => xfrLaneNo e.2.cfg)).foldl
    (fun s n => streamReadEnds (laneStreams s n) n) s

/-! ### Clocks and sleep (R30, R245, R341, R461, R462) -/

/-- A region of the die runs, so that its end of the Arc data path does. -/
def dataPathRuns (s : State) (d : Nat) : Bool := (rangeL (4 * d) 4).any (fun r => (s.region r).power = .run)

/-- The bridge's buffers drain; the side bands tell each half whether the other has power; the bridge is parked while both data paths are stopped, and leaves
that state when one runs (R341). -/
def bridgeTicks (s : State) : State :=
  let s := { s with
    die0 := { s.die0 with arc := { arcDrained s.die0.arc with sideband := s.die1.power != .off } }
    die1 := { s.die1 with arc := { arcDrained s.die1.arc with sideband := s.die0.power != .off } } }
  let run := dataPathRuns s 0 || dataPathRuns s 1
  if s.die0.arc.link = 2 && s.die1.arc.link = 2 && !run then arcLink (arcLink s 0 3) 1 3
  else if s.die0.arc.link = 3 && s.die1.arc.link = 3 && run then arcLink (arcLink s 0 2) 1 2
  else s

/-- After Rest the first slot of each enabled meter marks the gap (R242). -/
def meterWakes (s : State) (d : Nat) : State :=
  ((s.meters.map Prod.fst).filter (fun m => m / 64 = d)).foldl (fun s m =>
    s.modMeter m (fun x => { x with woke := setOp x.settings != 0 })) s

/-- The meter domain of a die runs while a meter of it is enabled, except in Rest (R31); it begins at the next pass start (R236). -/
def meterClock (s : State) (d : Nat) : State :=
  let x := s.die d
  let want := dieUp s d && x.power != .rest && metersOn s d != 0
  let s := if x.rested && x.power != .rest then (meterWakes s d).modDie d (fun x => { x with rested := false }) else s
  if want = x.meterRun then s
  else if want then meterAnchor (s.modDie d (fun x => { x with meterRun := true })) d
  else meterDomainStops s d

/-- A region in RUN that has work is not idle (R30). -/
def regionIdleSince (s : State) (r : Nat) : State :=
  if (s.region r).power = .run && regionBusy s r then s.modRegion r (fun x => { x with idleSince := s.edges }) else s

/-- A die in Run is not idle while a region of it runs or its steward has work (R462). -/
def dieIdleSince (s : State) (d : Nat) : State :=
  if (s.die d).power = .run && (dataPathRuns s d || !stewardIdle s d) then s.modDie d (fun x => { x with idleSince := s.edges }) else s

/-- All that one tick does. -/
def tickEffects (s : State) : State :=
  let s := stallsCount (timersCount (framesRun (segmentsEnd (turnsTaken (aliasesFollow (nextEdge (pairsJudged s)))))))
  let s := streamsChecked (warmResets (functionResetsEnd s))
  let s := meterClock (meterClock (bridgeTicks s) 0) 1
  s.each [0, 1] dieIdleSince |> fun s => s.each (List.range 8) regionIdleSince

/-- One tick on an empty queue (log 1): time passes by one pilot edge, and what only a cold reset changes stays. -/
def tick (s : State) : State := { settle s (tickEffects s) with edges := s.edges + 1 }

end Sys2Proof.Machine
end

