-- ==== Sys2Proof/Machine/Dispatch.lean ====
section
/-! DEFINITION. The meaning of every command: one arm per constructor of `Instr`. -/

namespace Sys2Proof.Machine

/-- The effect of a command on everything but the queue of waiting commands. -/
def exec (i : Instr) (s : State) : Host.Outcome State Fault Refusal :=
  match i with
  | .nop slot => Sys2Proof.Machine.execNop slot s
  | .write slot => Sys2Proof.Machine.execWrite slot s
  | .read slot => Sys2Proof.Machine.execRead slot s
  | .xact slot => Sys2Proof.Machine.execXact slot s
  | .laneReset slot => Sys2Proof.Machine.execLaneReset slot s
  | .busRecover slot => Sys2Proof.Machine.execBusRecover slot s
  | .release slot => Sys2Proof.Machine.execRelease slot s
  | .rxFlush slot => Sys2Proof.Machine.execRxFlush slot s
  | .uartBreak slot => Sys2Proof.Machine.execUartBreak slot s
  | .tachRestart slot => Sys2Proof.Machine.execTachRestart slot s
  | .pwmForce slot => Sys2Proof.Machine.execPwmForce slot s
  | .sense slot => Sys2Proof.Machine.execSense slot s
  | .gangWrite slot => Sys2Proof.Machine.execGangWrite slot s
  | .jump slot => Sys2Proof.Machine.execJump slot s
  | .test slot => Sys2Proof.Machine.execTest slot s
  | .wait slot => Sys2Proof.Machine.execWait slot s
  | .delay slot => Sys2Proof.Machine.execDelay slot s
  | .signal slot => Sys2Proof.Machine.execSignal slot s
  | .post slot => Sys2Proof.Machine.execPost slot s
  | .meterCcwRead slot => Sys2Proof.Machine.execMeterCcwRead slot s
  | .meterCcwLoad slot => Sys2Proof.Machine.execMeterCcwLoad slot s
  | .meterCcwClear slot => Sys2Proof.Machine.execMeterCcwClear slot s
  | .mark slot => Sys2Proof.Machine.execMark slot s
  | .copy slot => Sys2Proof.Machine.execCopy slot s
  | .halt slot => Sys2Proof.Machine.execHalt slot s
  | .ccwFetch slot => Sys2Proof.Machine.execCcwFetch slot s
  | .hostReadCompletion id addr data st => Sys2Proof.Machine.execHostReadCompletion id addr data st s
  | .completionTimeout id addr len => Sys2Proof.Machine.execCompletionTimeout id addr len s
  | .programAdmit cluster adopted => Sys2Proof.Machine.execProgramAdmit cluster adopted s
  | .laneTransactionEnd lane res => Sys2Proof.Machine.execLaneTransactionEnd lane res s
  | .forwardedCommand cluster => Sys2Proof.Machine.execForwardedCommand cluster s
  | .forwardedResult slot => Sys2Proof.Machine.execForwardedResult slot s
  | .pathPiece slot pos recv => Sys2Proof.Machine.execPathPiece slot pos recv s
  | .waitTimeout slot => Sys2Proof.Machine.execWaitTimeout slot s
  | .delayElapsed slot => Sys2Proof.Machine.execDelayElapsed slot s
  | .laneTimeout lane w => Sys2Proof.Machine.execLaneTimeout lane w s
  | .laneStallTimeout lane sent recv => Sys2Proof.Machine.execLaneStallTimeout lane sent recv s
  | .holdTimeout lane => Sys2Proof.Machine.execHoldTimeout lane s
  | .transactionCut lane sent recv => Sys2Proof.Machine.execTransactionCut lane sent recv s
  | .start src => Sys2Proof.Machine.execStart src s
  | .resume src => Sys2Proof.Machine.execResume src s
  | .haltProgram src => Sys2Proof.Machine.execHaltProgram src s
  | .armChord src => Sys2Proof.Machine.execArmChord src s
  | .disarmChord src => Sys2Proof.Machine.execDisarmChord src s
  | .signalWorkOrder src => Sys2Proof.Machine.execSignalWorkOrder src s
  | .meterSet src => Sys2Proof.Machine.execMeterSet src s
  | .meterRead src => Sys2Proof.Machine.execMeterRead src s
  | .bufferAlloc src => Sys2Proof.Machine.execBufferAlloc src s
  | .bufferFree src => Sys2Proof.Machine.execBufferFree src s
  | .laneConfigRegisters src => Sys2Proof.Machine.execLaneConfigRegisters src s
  | .laneConfigLaneSet src => Sys2Proof.Machine.execLaneConfigLaneSet src s
  | .nopWorkOrder src => Sys2Proof.Machine.execNopWorkOrder src s
  | .identify src => Sys2Proof.Machine.execIdentify src s
  | .createQueue src => Sys2Proof.Machine.execCreateQueue src s
  | .destroyQueue src => Sys2Proof.Machine.execDestroyQueue src s
  | .setChordReserve src => Sys2Proof.Machine.execSetChordReserve src s
  | .setSleepPolicy src => Sys2Proof.Machine.execSetSleepPolicy src s
  | .warmReset src => Sys2Proof.Machine.execWarmReset src s
  | .setMailboxNotify src => Sys2Proof.Machine.execSetMailboxNotify src s
  | .getFeature src => Sys2Proof.Machine.execGetFeature src s
  | .createEventRing src => Sys2Proof.Machine.execCreateEventRing src s
  | .destroyEventRing src => Sys2Proof.Machine.execDestroyEventRing src s
  | .firmwareStage src => Sys2Proof.Machine.execFirmwareStage src s
  | .firmwareActivate src => Sys2Proof.Machine.execFirmwareActivate src s
  | .liveActivation src => Sys2Proof.Machine.execLiveActivation src s
  | .halfReloadDone d ok => Sys2Proof.Machine.execHalfReloadDone d ok s
  | .otpCommit src verify0 verify1 => Sys2Proof.Machine.execOtpCommit src verify0 verify1 s
  | .blackboxRead src => Sys2Proof.Machine.execBlackboxRead src s
  | .policyLoad src => Sys2Proof.Machine.execPolicyLoad src s
  | .policyStart src => Sys2Proof.Machine.execPolicyStart src s
  | .policyStop src => Sys2Proof.Machine.execPolicyStop src s
  | .policyUnload src => Sys2Proof.Machine.execPolicyUnload src s
  | .policyStatus src => Sys2Proof.Machine.execPolicyStatus src s
  | .grantCapability src => Sys2Proof.Machine.execGrantCapability src s
  | .linkStatus src => Sys2Proof.Machine.execLinkStatus src s
  | .linkPorts src => Sys2Proof.Machine.execLinkPorts src s
  | .linkAlias src => Sys2Proof.Machine.execLinkAlias src s
  | .linkHandback src => Sys2Proof.Machine.execLinkHandback src s
  | .twinConfig src => Sys2Proof.Machine.execTwinConfig src s
  | .untwin src => Sys2Proof.Machine.execUntwin src s
  | .mailboxRequest who f value => Sys2Proof.Machine.execMailboxRequest who f value s
  | .doorbell f q value => Sys2Proof.Machine.execDoorbell f q value s
  | .entryFetch f => Sys2Proof.Machine.execEntryFetch f s
  | .headPublish f q => Sys2Proof.Machine.execHeadPublish f q s
  | .adminEnable f value => Sys2Proof.Machine.execAdminEnable f value s
  | .adminDisable f value => Sys2Proof.Machine.execAdminDisable f value s
  | .busMasterChange f d0 bme bar0 bar2 => Sys2Proof.Machine.execBusMasterChange f d0 bme bar0 bar2 s
  | .registerWrite who bar2 offset value high full => Sys2Proof.Machine.execRegisterWrite who bar2 offset value high full s
  | .idlePointApply b => Sys2Proof.Machine.execIdlePointApply b s
  | .lowDwordRead who bar2 offset => Sys2Proof.Machine.execLowDwordRead who bar2 offset s
  | .snapshotLatchRead meter => Sys2Proof.Machine.execSnapshotLatchRead meter s
  | .windowEntryWrite who d entry first bytes => Sys2Proof.Machine.execWindowEntryWrite who d entry first bytes s
  | .windowInvalidate who d value => Sys2Proof.Machine.execWindowInvalidate who d value s
  | .laneCfgWrite who lane value => Sys2Proof.Machine.execLaneCfgWrite who lane value s
  | .snsWinWrite who input w value => Sys2Proof.Machine.execSnsWinWrite who input w value s
  | .mtrSetWrite who meter w value => Sys2Proof.Machine.execMtrSetWrite who meter w value s
  | .mtrClear meter => Sys2Proof.Machine.execMtrClear meter s
  | .chdRearm who chord => Sys2Proof.Machine.execChdRearm who chord s
  | .chdClear chord => Sys2Proof.Machine.execChdClear chord s
  | .unitResetLane who d unit sent recv => Sys2Proof.Machine.execUnitResetLane who d unit sent recv s
  | .unitResetEngine who d unit => Sys2Proof.Machine.execUnitResetEngine who d unit s
  | .unitResetSlot who d unit => Sys2Proof.Machine.execUnitResetSlot who d unit s
  | .unitResetChannel who d unit => Sys2Proof.Machine.execUnitResetChannel who d unit s
  | .unitResetMeter who d unit => Sys2Proof.Machine.execUnitResetMeter who d unit s
  | .unitResetChord who d unit => Sys2Proof.Machine.execUnitResetChord who d unit s
  | .timerRun who timer periodic => Sys2Proof.Machine.execTimerRun who timer periodic s
  | .timerStop timer periodic => Sys2Proof.Machine.execTimerStop timer periodic s
  | .vertexTimerExpiry timer => Sys2Proof.Machine.execVertexTimerExpiry timer s
  | .calibrationStart d => Sys2Proof.Machine.execCalibrationStart d s
  | .calibrationDone d codes => Sys2Proof.Machine.execCalibrationDone d codes s
  | .xfrStart who ch => Sys2Proof.Machine.execXfrStart who ch s
  | .xfrStop ch => Sys2Proof.Machine.execXfrStop ch s
  | .xfrRunPiece ch => Sys2Proof.Machine.execXfrRunPiece ch s
  | .xfrCountEnd ch => Sys2Proof.Machine.execXfrCountEnd ch s
  | .arbClear region => Sys2Proof.Machine.execArbClear region s
  | .arbPhase region reqs withdraw => Sys2Proof.Machine.execArbPhase region reqs withdraw s
  | .regionReset who d q => Sys2Proof.Machine.execRegionReset who d q s
  | .resetLost who => Sys2Proof.Machine.execResetLost who s
  | .bbxFreeze d => Sys2Proof.Machine.execBbxFreeze d s
  | .bbxUnfreeze d => Sys2Proof.Machine.execBbxUnfreeze d s
  | .evcHeadWrite target value => Sys2Proof.Machine.execEvcHeadWrite target value s
  | .evcAck target value => Sys2Proof.Machine.execEvcAck target value s
  | .evcRouteWrite who d source value => Sys2Proof.Machine.execEvcRouteWrite who d source value s
  | .moderationWrite who target group value => Sys2Proof.Machine.execModerationWrite who target group value s
  | .msixUnmask f => Sys2Proof.Machine.execMsixUnmask f s
  | .eventRecordWrite target => Sys2Proof.Machine.execEventRecordWrite target s
  | .moderationTimer target group => Sys2Proof.Machine.execModerationTimer target group s
  | .lanePinChange lane pinB level samples openPhase => Sys2Proof.Machine.execLanePinChange lane pinB level samples openPhase s
  | .fastVertexChange fv level ns samples => Sys2Proof.Machine.execFastVertexChange fv level ns samples s
  | .comparatorCrossing input w code samples => Sys2Proof.Machine.execComparatorCrossing input w code samples s
  | .comparatorHoldEnd input w code => Sys2Proof.Machine.execComparatorHoldEnd input w code s
  | .thermalCrossing d celsius => Sys2Proof.Machine.execThermalCrossing d celsius s
  | .chordFire chord cuts => Sys2Proof.Machine.execChordFire chord cuts s
  | .leadStroke lane => Sys2Proof.Machine.execLeadStroke lane s
  | .pulseEnd lane => Sys2Proof.Machine.execPulseEnd lane s
  | .leadFrameStart lane => Sys2Proof.Machine.execLeadFrameStart lane s
  | .leadFrameEnd lane => Sys2Proof.Machine.execLeadFrameEnd lane s
  | .chordHoldoffEnd chord => Sys2Proof.Machine.execChordHoldoffEnd chord s
  | .adcConversion input code clip cmRange => Sys2Proof.Machine.execAdcConversion input code clip cmRange s
  | .meterSlot meter => Sys2Proof.Machine.execMeterSlot meter s
  | .smbusHostNotify lane address data => Sys2Proof.Machine.execSmbusHostNotify lane address data s
  | .inBandInterrupt lane address payload => Sys2Proof.Machine.execInBandInterrupt lane address payload s
  | .uartRxByte lane byte parity stop => Sys2Proof.Machine.execUartRxByte lane byte parity stop s
  | .tachEdge lane rising => Sys2Proof.Machine.execTachEdge lane rising s
  | .tachStall lane => Sys2Proof.Machine.execTachStall lane s
  | .targetMailboxTransfer lane req => Sys2Proof.Machine.execTargetMailboxTransfer lane req s
  | .bankFault cluster measured inRange => Sys2Proof.Machine.execBankFault cluster measured inRange s
  | .scrubRead mem inst word found => Sys2Proof.Machine.execScrubRead mem inst word found s
  | .engineFault cluster => Sys2Proof.Machine.execEngineFault cluster s
  | .spareTakeover cluster => Sys2Proof.Machine.execSpareTakeover cluster s
  | .laneUnitFault lane sent recv => Sys2Proof.Machine.execLaneUnitFault lane sent recv s
  | .lockstepMismatch d => Sys2Proof.Machine.execLockstepMismatch d s
  | .rollbackComplete d => Sys2Proof.Machine.execRollbackComplete d s
  | .fastClockFailure d => Sys2Proof.Machine.execFastClockFailure d s
  | .dieWatchdogExpiry d => Sys2Proof.Machine.execDieWatchdogExpiry d s
  | .supplyOutOfRange d => Sys2Proof.Machine.execSupplyOutOfRange d s
  | .aliveSilence d => Sys2Proof.Machine.execAliveSilence d s
  | .splitEntry => Sys2Proof.Machine.execSplitEntry s
  | .adoption lost => Sys2Proof.Machine.execAdoption lost s
  | .lostHalfReset d => Sys2Proof.Machine.execLostHalfReset d s
  | .halfRejoin d => Sys2Proof.Machine.execHalfRejoin d s
  | .arcFlitReceive d seq ok ch => Sys2Proof.Machine.execArcFlitReceive d seq ok ch s
  | .arcDown cause => Sys2Proof.Machine.execArcDown cause s
  | .arcRetrain ok => Sys2Proof.Machine.execArcRetrain ok s
  | .coldReset straps failed => Sys2Proof.Machine.execColdReset straps failed s
  | .packageWarmReset => Sys2Proof.Machine.execPackageWarmReset s
  | .pciePortReset port => Sys2Proof.Machine.execPciePortReset port s
  | .functionLevelReset f => Sys2Proof.Machine.execFunctionLevelReset f s
  | .bootImageLoad d image readOk => Sys2Proof.Machine.execBootImageLoad d image readOk s
  | .bootRetry d => Sys2Proof.Machine.execBootRetry d s
  | .firmwareReady d => Sys2Proof.Machine.execFirmwareReady d s
  | .peerEdgeTimeout d => Sys2Proof.Machine.execPeerEdgeTimeout d s
  | .refclkLost d => Sys2Proof.Machine.execRefclkLost d s
  | .refclkRelock d => Sys2Proof.Machine.execRefclkRelock d s
  | .pfailAsserted samples => Sys2Proof.Machine.execPfailAsserted samples s
  | .blackboxSaveDone d => Sys2Proof.Machine.execBlackboxSaveDone d s
  | .regionDozeEntry region => Sys2Proof.Machine.execRegionDozeEntry region s
  | .regionGateEntry region => Sys2Proof.Machine.execRegionGateEntry region s
  | .dieDozeEntry d => Sys2Proof.Machine.execDieDozeEntry d s
  | .dieRestEntry d => Sys2Proof.Machine.execDieRestEntry d s
  | .wakeComplete t ticks access => Sys2Proof.Machine.execWakeComplete t ticks access s
  | .lspLoadArrival d => Sys2Proof.Machine.execLspLoadArrival d s
  | .strStreamEnd d => Sys2Proof.Machine.execStrStreamEnd d s
  | .sysWaitEnd d ctx => Sys2Proof.Machine.execSysWaitEnd d ctx s
  | .stewardBundle d => Sys2Proof.Machine.execStewardBundle d s
  | .eventContextEntry d => Sys2Proof.Machine.execEventContextEntry d s
  | .userSliceEnd d => Sys2Proof.Machine.execUserSliceEnd d s
  | .heartbeatSend port => Sys2Proof.Machine.execHeartbeatSend port s
  | .heartbeatReceive port root hops attached epoch rootSeq time takesUs crcOk => Sys2Proof.Machine.execHeartbeatReceive port root hops attached epoch rootSeq time takesUs crcOk s
  | .delayBlock port response time trip crcOk => Sys2Proof.Machine.execDelayBlock port response time trip crcOk s
  | .ackBlock port nak block bseq seq p np cpl crcOk => Sys2Proof.Machine.execAckBlock port nak block bseq seq p np cpl crcOk s
  | .vertexBlock port dest bseq index level change src crcOk => Sys2Proof.Machine.execVertexBlock port dest bseq index level change src crcOk s
  | .signalBlock port dest bseq n data crcOk => Sys2Proof.Machine.execSignalBlock port dest bseq n data crcOk s
  | .blockResend port => Sys2Proof.Machine.execBlockResend port s
  | .helloPacket port sysId serial hops attached root epoch time => Sys2Proof.Machine.execHelloPacket port sysId serial hops attached root epoch time s
  | .joinPacket port hdr ids => Sys2Proof.Machine.execJoinPacket port hdr ids s
  | .laneCmdPacket port hdr cmd => Sys2Proof.Machine.execLaneCmdPacket port hdr cmd s
  | .laneDataPacket port hdr lane slot data => Sys2Proof.Machine.execLaneDataPacket port hdr lane slot data s
  | .laneResultPacket port hdr slot tag gen res data => Sys2Proof.Machine.execLaneResultPacket port hdr slot tag gen res data s
  | .subscribePacket port hdr index vertex on => Sys2Proof.Machine.execSubscribePacket port hdr index vertex on s
  | .handbackPacket port hdr => Sys2Proof.Machine.execHandbackPacket port hdr s
  | .linkPortDown port why => Sys2Proof.Machine.execLinkPortDown port why s
  | .linkTrainingRetry port => Sys2Proof.Machine.execLinkTrainingRetry port s
  | .pathLoss => Sys2Proof.Machine.execPathLoss s
  | .apexLoss => Sys2Proof.Machine.execApexLoss s
  | .pfailReleased samples => Sys2Proof.Machine.execPfailReleased samples s
  | .aliveRegained d => Sys2Proof.Machine.execAliveRegained d s
  | .regionResetDone region => Sys2Proof.Machine.execRegionResetDone region s
  | .unitResetDone utype unit pass => Sys2Proof.Machine.execUnitResetDone utype unit pass s
  | .pcieLinkDown port => Sys2Proof.Machine.execPcieLinkDown port s
  | .pcieLinkUp port => Sys2Proof.Machine.execPcieLinkUp port s
  | .vddAonLoss d => Sys2Proof.Machine.execVddAonLoss d s
  | .blockLock port => Sys2Proof.Machine.execBlockLock port s
  | .pwmPeriodStart lane => Sys2Proof.Machine.execPwmPeriodStart lane s
  | .windowCacheDrop region => Sys2Proof.Machine.execWindowCacheDrop region s

end Sys2Proof.Machine
end

