-- ==== Sys2Proof/Laws/Tables.lean ====
section
/-! SUPPORT. Laws of the tables that hold the numbered elements, and of memories, which are tables of bytes. -/

namespace Sys2Proof.Machine

/-! ### Reading what was written -/

@[simp] theorem tget_nil (d : α) (m : Nat) : tget d [] m = d := rfl

@[simp] theorem tget_cons (d : α) (k : Nat) (a : α) (t : Tab α) (m : Nat) :
    tget d ((k, a) :: t) m = if k = m then a else tget d t m := rfl

/-- Listing element `n` gives it back, and leaves every other. -/
theorem tget_tput (d a : α) (n m : Nat) (t : Tab α) : tget d (tput n a t) m = if m = n then a else tget d t m := by
  induction t with
  | nil => simp [tput, eq_comm]
  | cons e t ih =>
    obtain ⟨k, b⟩ := e
    simp only [tput]
    split
    · simp [eq_comm]
    · split
      · next h =>
        subst h; simp only [tget_cons]
        by_cases hm : m = n
        · subst hm; simp
        · rw [if_neg hm, if_neg (Ne.symm hm), if_neg (Ne.symm hm)]
      · simp only [tget_cons, ih]
        split
        · next h => subst h; rename_i h2; rw [if_neg (fun h => h2 h.symm)]
        · rfl

/-- Unlisting element `n` makes it the unlisted one, and leaves every other. -/
theorem tget_tdel (d : α) (n m : Nat) (t : Tab α) : tget d (tdel n t) m = if m = n then d else tget d t m := by
  induction t with
  | nil => simp [tdel]
  | cons e t ih =>
    obtain ⟨k, b⟩ := e
    simp only [tdel]
    split
    · next h =>
      subst h; rw [ih]; simp only [tget_cons]
      by_cases hm : m = n
      · subst hm; simp
      · rw [if_neg hm, if_neg (Ne.symm hm)]; simp [hm]
    · next h =>
      simp only [tget_cons, ih]
      split
      · next h2 => subst h2; rw [if_neg (fun h3 => h h3.symm)]
      · rfl

/-- A table answers what was last written, and what it held for every other number. -/
@[simp] theorem tget_tset [DecidableEq α] (d : α) (t : Tab α) (n m : Nat) (a : α) :
    tget d (tset d t n a) m = if m = n then a else tget d t m := by
  unfold tset
  split
  · next h => rw [tget_tdel, h]
  · exact tget_tput d a n m t

/-! ### The canonical form -/

/-- Every number of the table is above `lo`. -/
def tabAbove (lo : Option Nat) (t : Tab α) : Prop := ∀ e ∈ t, ∀ l, lo = some l → l < e.1

theorem tabRising_cons (lo : Option Nat) (k : Nat) (a : α) (t : Tab α) :
    tabRising lo ((k, a) :: t) = true ↔ (∀ l, lo = some l → l < k) ∧ tabRising (some k) t = true := by
  cases lo <;> simp [tabRising]

theorem tabRising_mono {lo : Option Nat} {k : Nat} (t : Tab α) (h : tabRising (some k) t = true) (hl : ∀ l, lo = some l → l ≤ k) :
    tabRising lo t = true := by
  cases t with
  | nil => cases lo <;> rfl
  | cons e t =>
    obtain ⟨j, a⟩ := e
    rw [tabRising_cons] at h ⊢
    exact ⟨fun l hl' => Nat.lt_of_le_of_lt (hl l hl') (h.1 k rfl), h.2⟩

theorem tabRising_tput (lo : Option Nat) (n : Nat) (a : α) (t : Tab α) (h : tabRising lo t = true) (hn : ∀ l, lo = some l → l < n) :
    tabRising lo (tput n a t) = true := by
  induction t generalizing lo with
  | nil => simp only [tput]; rw [tabRising_cons]; exact ⟨hn, rfl⟩
  | cons e t ih =>
    obtain ⟨k, b⟩ := e
    rw [tabRising_cons] at h
    simp only [tput]
    split
    · next hk => rw [tabRising_cons, tabRising_cons]; exact ⟨hn, fun l hl => by cases hl; exact hk, h.2⟩
    · split
      · next h2 => subst h2; rw [tabRising_cons]; exact ⟨hn, h.2⟩
      · next h1 h2 =>
        rw [tabRising_cons]
        exact ⟨h.1, ih (some k) h.2 (fun l hl => by cases hl; omega)⟩

theorem tabRising_tdel (lo : Option Nat) (n : Nat) (t : Tab α) (h : tabRising lo t = true) : tabRising lo (tdel n t) = true := by
  induction t generalizing lo with
  | nil => exact h
  | cons e t ih =>
    obtain ⟨k, b⟩ := e
    rw [tabRising_cons] at h
    simp only [tdel]
    split
    · exact tabRising_mono _ (ih (some k) h.2) (fun l hl => Nat.le_of_lt (h.1 l hl))
    · rw [tabRising_cons]; exact ⟨h.1, ih (some k) h.2⟩

theorem mem_tput {n : Nat} {a : α} {t : Tab α} {e : Nat × α} (h : e ∈ tput n a t) : e = (n, a) ∨ e ∈ t := by
  induction t with
  | nil => simpa [tput] using h
  | cons x t ih =>
    obtain ⟨k, b⟩ := x
    simp only [tput] at h
    split at h
    · rcases List.mem_cons.1 h with h | h
      · exact .inl h
      · exact .inr h
    · split at h
      · rcases List.mem_cons.1 h with h | h
        · exact .inl h
        · exact .inr (List.mem_cons_of_mem _ h)
      · rcases List.mem_cons.1 h with h | h
        · exact .inr (h ▸ List.mem_cons_self)
        · rcases ih h with h | h
          · exact .inl h
          · exact .inr (List.mem_cons_of_mem _ h)

theorem mem_tdel {n : Nat} {t : Tab α} {e : Nat × α} (h : e ∈ tdel n t) : e ∈ t := by
  induction t with
  | nil => exact h
  | cons x t ih =>
    obtain ⟨k, b⟩ := x
    simp only [tdel] at h
    split at h
    · exact List.mem_cons_of_mem _ (ih h)
    · rcases List.mem_cons.1 h with h | h
      · exact h ▸ List.mem_cons_self
      · exact List.mem_cons_of_mem _ (ih h)

/-- Writing an element keeps a table's canonical form. -/
theorem tabWf_tset [DecidableEq α] (d : α) (t : Tab α) (n : Nat) (a : α) (h : tabWf d t = true) : tabWf d (tset d t n a) = true := by
  simp only [tabWf, Bool.and_eq_true, List.all_eq_true, decide_eq_true_eq] at h ⊢
  unfold tset
  split
  · exact ⟨tabRising_tdel _ _ _ h.1, fun e he => h.2 e (mem_tdel he)⟩
  · next ha =>
    refine ⟨tabRising_tput _ _ _ _ h.1 (fun l hl => nomatch hl), fun e he => ?_⟩
    rcases mem_tput he with he | he
    · exact he ▸ ha
    · exact h.2 e he

/-! ### Memories -/

/-- A write keeps a memory's canonical form. -/
theorem memWf_memWrite (m : List Host.Cell) (a : Nat) (bs : List Byte) (h : memWf m = true) : memWf (memWrite m a bs) = true := by
  induction bs generalizing m a with
  | nil => exact h
  | cons b bs ih => exact ih _ _ (tabWf_tset 0 m a b h)

/-- Dropping a range keeps it as well. -/
theorem memWf_memClear (m : List Host.Cell) (lo hi : Nat) (h : memWf m = true) : memWf (memClear m lo hi) = true := by
  simp only [memWf, tabWf, memClear, Bool.and_eq_true, List.all_eq_true, decide_eq_true_eq] at h ⊢
  refine ⟨?_, fun e he => h.2 e (List.mem_filter.1 he).1⟩
  have key : ∀ (q : Nat × Byte → Bool) (t : Tab Byte) (l : Option Nat), tabRising l t = true → tabRising l (t.filter q) = true := by
    intro q t
    induction t with
    | nil => intro l hl; exact hl
    | cons e t ih =>
      intro l hl
      obtain ⟨k, b⟩ := e
      rw [tabRising_cons] at hl
      simp only [List.filter_cons]
      split
      · rw [tabRising_cons]; exact ⟨hl.1, ih _ hl.2⟩
      · exact tabRising_mono _ (ih _ hl.2) (fun j hj => Nat.le_of_lt (hl.1 j hj))
  exact key _ m none h.1

/-- A byte outside the bytes written reads as before. -/
theorem memRead_memWrite_other (m : List Host.Cell) (a : Nat) (bs : List Byte) (x : Nat) (h : x < a ∨ a + bs.length ≤ x) :
    memRead (memWrite m a bs) x = memRead m x := by
  induction bs generalizing m a with
  | nil => rfl
  | cons b bs ih =>
    simp only [List.length_cons] at h
    rw [memWrite, ih _ _ (by omega)]
    unfold memRead
    rw [tget_tset, if_neg (by omega)]

/-- The bytes written read back. -/
theorem memRead_memWrite_same (m : List Host.Cell) (a : Nat) (bs : List Byte) (i : Nat) (h : i < bs.length) :
    memRead (memWrite m a bs) (a + i) = bs.getD i 0 := by
  induction bs generalizing m a i with
  | nil => simp at h
  | cons b bs ih =>
    rw [memWrite]
    cases i with
    | zero => rw [Nat.add_zero, memRead_memWrite_other _ _ _ _ (by omega)]; simp [memRead]
    | succ i =>
      have hi : i < bs.length := by simpa using h
      rw [show a + (i + 1) = a + 1 + i by omega, ih _ _ _ hi]; simp

end Sys2Proof.Machine
end

