-- ==== Sys2Proof/Laws/State.lean ====
section
/-! SUPPORT. One law per field and update of the state: each holds by definition, so that no proof unfolds a record update. -/

namespace Sys2Proof.Machine

namespace State

/-! ### modRegion -/

@[simp] theorem modRegion_region (s : State) (n m : Nat) (f : Region → Region) :
    (s.modRegion n f).region m = if m = n then f (s.region n) else s.region m := by
  simp [modRegion, region]
@[simp] theorem modRegion_pending (s : State) (n : Nat) (f : Region → Region) : (s.modRegion n f).pending = s.pending := rfl
@[simp] theorem modRegion_free (s : State) (n : Nat) (f : Region → Region) : (s.modRegion n f).free = s.free := rfl
@[simp] theorem modRegion_edges (s : State) (n : Nat) (f : Region → Region) : (s.modRegion n f).edges = s.edges := rfl
@[simp] theorem modRegion_pilot (s : State) (n : Nat) (f : Region → Region) : (s.modRegion n f).pilot = s.pilot := rfl
@[simp] theorem modRegion_pkg (s : State) (n : Nat) (f : Region → Region) : (s.modRegion n f).pkg = s.pkg := rfl
@[simp] theorem modRegion_die0 (s : State) (n : Nat) (f : Region → Region) : (s.modRegion n f).die0 = s.die0 := rfl
@[simp] theorem modRegion_die1 (s : State) (n : Nat) (f : Region → Region) : (s.modRegion n f).die1 = s.die1 := rfl
@[simp] theorem modRegion_clusters (s : State) (n : Nat) (f : Region → Region) : (s.modRegion n f).clusters = s.clusters := rfl
@[simp] theorem modRegion_lanes (s : State) (n : Nat) (f : Region → Region) : (s.modRegion n f).lanes = s.lanes := rfl
@[simp] theorem modRegion_slots (s : State) (n : Nat) (f : Region → Region) : (s.modRegion n f).slots = s.slots := rfl
@[simp] theorem modRegion_chords (s : State) (n : Nat) (f : Region → Region) : (s.modRegion n f).chords = s.chords := rfl
@[simp] theorem modRegion_xfrs (s : State) (n : Nat) (f : Region → Region) : (s.modRegion n f).xfrs = s.xfrs := rfl
@[simp] theorem modRegion_meters (s : State) (n : Nat) (f : Region → Region) : (s.modRegion n f).meters = s.meters := rfl
@[simp] theorem modRegion_inputs (s : State) (n : Nat) (f : Region → Region) : (s.modRegion n f).inputs = s.inputs := rfl
@[simp] theorem modRegion_timers (s : State) (n : Nat) (f : Region → Region) : (s.modRegion n f).timers = s.timers := rfl
@[simp] theorem modRegion_fvRaw (s : State) (n : Nat) (f : Region → Region) : (s.modRegion n f).fvRaw = s.fvRaw := rfl
@[simp] theorem modRegion_fvCfg (s : State) (n : Nat) (f : Region → Region) : (s.modRegion n f).fvCfg = s.fvCfg := rfl
@[simp] theorem modRegion_pinPol (s : State) (n : Nat) (f : Region → Region) : (s.modRegion n f).pinPol = s.pinPol := rfl
@[simp] theorem modRegion_levels (s : State) (n : Nat) (f : Region → Region) : (s.modRegion n f).levels = s.levels := rfl
@[simp] theorem modRegion_ticking (s : State) (n : Nat) (f : Region → Region) : (s.modRegion n f).ticking = s.ticking := rfl
@[simp] theorem modRegion_edgesNow (s : State) (n : Nat) (f : Region → Region) : (s.modRegion n f).edgesNow = s.edgesNow := rfl
@[simp] theorem modRegion_turned (s : State) (n : Nat) (f : Region → Region) : (s.modRegion n f).turned = s.turned := rfl
@[simp] theorem modRegion_tiles (s : State) (n : Nat) (f : Region → Region) : (s.modRegion n f).tiles = s.tiles := rfl
@[simp] theorem modRegion_ecc (s : State) (n : Nat) (f : Region → Region) : (s.modRegion n f).ecc = s.ecc := rfl
@[simp] theorem modRegion_funcs (s : State) (n : Nat) (f : Region → Region) : (s.modRegion n f).funcs = s.funcs := rfl
@[simp] theorem modRegion_queues (s : State) (n : Nat) (f : Region → Region) : (s.modRegion n f).queues = s.queues := rfl
@[simp] theorem modRegion_targets (s : State) (n : Nat) (f : Region → Region) : (s.modRegion n f).targets = s.targets := rfl
@[simp] theorem modRegion_shared (s : State) (n : Nat) (f : Region → Region) : (s.modRegion n f).shared = s.shared := rfl
@[simp] theorem modRegion_ports (s : State) (n : Nat) (f : Region → Region) : (s.modRegion n f).ports = s.ports := rfl
@[simp] theorem modRegion_reads (s : State) (n : Nat) (f : Region → Region) : (s.modRegion n f).reads = s.reads := rfl
@[simp] theorem modRegion_nextRead (s : State) (n : Nat) (f : Region → Region) : (s.modRegion n f).nextRead = s.nextRead := rfl
@[simp] theorem modRegion_results (s : State) (n : Nat) (f : Region → Region) : (s.modRegion n f).results = s.results := rfl
@[simp] theorem modRegion_heldFinal (s : State) (n : Nat) (f : Region → Region) : (s.modRegion n f).heldFinal = s.heldFinal := rfl
@[simp] theorem modRegion_hostMem (s : State) (n : Nat) (f : Region → Region) : (s.modRegion n f).hostMem = s.hostMem := rfl
@[simp] theorem modRegion_hostFail (s : State) (n : Nat) (f : Region → Region) : (s.modRegion n f).hostFail = s.hostFail := rfl
@[simp] theorem modRegion_posted (s : State) (n : Nat) (f : Region → Region) : (s.modRegion n f).posted = s.posted := rfl

/-! ### modCluster -/

@[simp] theorem modCluster_cluster (s : State) (n m : Nat) (f : Cluster → Cluster) :
    (s.modCluster n f).cluster m = if m = n then f (s.cluster n) else s.cluster m := by
  simp [modCluster, cluster]
@[simp] theorem modCluster_pending (s : State) (n : Nat) (f : Cluster → Cluster) : (s.modCluster n f).pending = s.pending := rfl
@[simp] theorem modCluster_free (s : State) (n : Nat) (f : Cluster → Cluster) : (s.modCluster n f).free = s.free := rfl
@[simp] theorem modCluster_edges (s : State) (n : Nat) (f : Cluster → Cluster) : (s.modCluster n f).edges = s.edges := rfl
@[simp] theorem modCluster_pilot (s : State) (n : Nat) (f : Cluster → Cluster) : (s.modCluster n f).pilot = s.pilot := rfl
@[simp] theorem modCluster_pkg (s : State) (n : Nat) (f : Cluster → Cluster) : (s.modCluster n f).pkg = s.pkg := rfl
@[simp] theorem modCluster_die0 (s : State) (n : Nat) (f : Cluster → Cluster) : (s.modCluster n f).die0 = s.die0 := rfl
@[simp] theorem modCluster_die1 (s : State) (n : Nat) (f : Cluster → Cluster) : (s.modCluster n f).die1 = s.die1 := rfl
@[simp] theorem modCluster_regions (s : State) (n : Nat) (f : Cluster → Cluster) : (s.modCluster n f).regions = s.regions := rfl
@[simp] theorem modCluster_lanes (s : State) (n : Nat) (f : Cluster → Cluster) : (s.modCluster n f).lanes = s.lanes := rfl
@[simp] theorem modCluster_slots (s : State) (n : Nat) (f : Cluster → Cluster) : (s.modCluster n f).slots = s.slots := rfl
@[simp] theorem modCluster_chords (s : State) (n : Nat) (f : Cluster → Cluster) : (s.modCluster n f).chords = s.chords := rfl
@[simp] theorem modCluster_xfrs (s : State) (n : Nat) (f : Cluster → Cluster) : (s.modCluster n f).xfrs = s.xfrs := rfl
@[simp] theorem modCluster_meters (s : State) (n : Nat) (f : Cluster → Cluster) : (s.modCluster n f).meters = s.meters := rfl
@[simp] theorem modCluster_inputs (s : State) (n : Nat) (f : Cluster → Cluster) : (s.modCluster n f).inputs = s.inputs := rfl
@[simp] theorem modCluster_timers (s : State) (n : Nat) (f : Cluster → Cluster) : (s.modCluster n f).timers = s.timers := rfl
@[simp] theorem modCluster_fvRaw (s : State) (n : Nat) (f : Cluster → Cluster) : (s.modCluster n f).fvRaw = s.fvRaw := rfl
@[simp] theorem modCluster_fvCfg (s : State) (n : Nat) (f : Cluster → Cluster) : (s.modCluster n f).fvCfg = s.fvCfg := rfl
@[simp] theorem modCluster_pinPol (s : State) (n : Nat) (f : Cluster → Cluster) : (s.modCluster n f).pinPol = s.pinPol := rfl
@[simp] theorem modCluster_levels (s : State) (n : Nat) (f : Cluster → Cluster) : (s.modCluster n f).levels = s.levels := rfl
@[simp] theorem modCluster_ticking (s : State) (n : Nat) (f : Cluster → Cluster) : (s.modCluster n f).ticking = s.ticking := rfl
@[simp] theorem modCluster_edgesNow (s : State) (n : Nat) (f : Cluster → Cluster) : (s.modCluster n f).edgesNow = s.edgesNow := rfl
@[simp] theorem modCluster_turned (s : State) (n : Nat) (f : Cluster → Cluster) : (s.modCluster n f).turned = s.turned := rfl
@[simp] theorem modCluster_tiles (s : State) (n : Nat) (f : Cluster → Cluster) : (s.modCluster n f).tiles = s.tiles := rfl
@[simp] theorem modCluster_ecc (s : State) (n : Nat) (f : Cluster → Cluster) : (s.modCluster n f).ecc = s.ecc := rfl
@[simp] theorem modCluster_funcs (s : State) (n : Nat) (f : Cluster → Cluster) : (s.modCluster n f).funcs = s.funcs := rfl
@[simp] theorem modCluster_queues (s : State) (n : Nat) (f : Cluster → Cluster) : (s.modCluster n f).queues = s.queues := rfl
@[simp] theorem modCluster_targets (s : State) (n : Nat) (f : Cluster → Cluster) : (s.modCluster n f).targets = s.targets := rfl
@[simp] theorem modCluster_shared (s : State) (n : Nat) (f : Cluster → Cluster) : (s.modCluster n f).shared = s.shared := rfl
@[simp] theorem modCluster_ports (s : State) (n : Nat) (f : Cluster → Cluster) : (s.modCluster n f).ports = s.ports := rfl
@[simp] theorem modCluster_reads (s : State) (n : Nat) (f : Cluster → Cluster) : (s.modCluster n f).reads = s.reads := rfl
@[simp] theorem modCluster_nextRead (s : State) (n : Nat) (f : Cluster → Cluster) : (s.modCluster n f).nextRead = s.nextRead := rfl
@[simp] theorem modCluster_results (s : State) (n : Nat) (f : Cluster → Cluster) : (s.modCluster n f).results = s.results := rfl
@[simp] theorem modCluster_heldFinal (s : State) (n : Nat) (f : Cluster → Cluster) : (s.modCluster n f).heldFinal = s.heldFinal := rfl
@[simp] theorem modCluster_hostMem (s : State) (n : Nat) (f : Cluster → Cluster) : (s.modCluster n f).hostMem = s.hostMem := rfl
@[simp] theorem modCluster_hostFail (s : State) (n : Nat) (f : Cluster → Cluster) : (s.modCluster n f).hostFail = s.hostFail := rfl
@[simp] theorem modCluster_posted (s : State) (n : Nat) (f : Cluster → Cluster) : (s.modCluster n f).posted = s.posted := rfl

/-! ### modLane -/

@[simp] theorem modLane_lane (s : State) (n m : Nat) (f : Lane → Lane) :
    (s.modLane n f).lane m = if m = n then f (s.lane n) else s.lane m := by
  simp [modLane, lane]
@[simp] theorem modLane_pending (s : State) (n : Nat) (f : Lane → Lane) : (s.modLane n f).pending = s.pending := rfl
@[simp] theorem modLane_free (s : State) (n : Nat) (f : Lane → Lane) : (s.modLane n f).free = s.free := rfl
@[simp] theorem modLane_edges (s : State) (n : Nat) (f : Lane → Lane) : (s.modLane n f).edges = s.edges := rfl
@[simp] theorem modLane_pilot (s : State) (n : Nat) (f : Lane → Lane) : (s.modLane n f).pilot = s.pilot := rfl
@[simp] theorem modLane_pkg (s : State) (n : Nat) (f : Lane → Lane) : (s.modLane n f).pkg = s.pkg := rfl
@[simp] theorem modLane_die0 (s : State) (n : Nat) (f : Lane → Lane) : (s.modLane n f).die0 = s.die0 := rfl
@[simp] theorem modLane_die1 (s : State) (n : Nat) (f : Lane → Lane) : (s.modLane n f).die1 = s.die1 := rfl
@[simp] theorem modLane_regions (s : State) (n : Nat) (f : Lane → Lane) : (s.modLane n f).regions = s.regions := rfl
@[simp] theorem modLane_clusters (s : State) (n : Nat) (f : Lane → Lane) : (s.modLane n f).clusters = s.clusters := rfl
@[simp] theorem modLane_slots (s : State) (n : Nat) (f : Lane → Lane) : (s.modLane n f).slots = s.slots := rfl
@[simp] theorem modLane_chords (s : State) (n : Nat) (f : Lane → Lane) : (s.modLane n f).chords = s.chords := rfl
@[simp] theorem modLane_xfrs (s : State) (n : Nat) (f : Lane → Lane) : (s.modLane n f).xfrs = s.xfrs := rfl
@[simp] theorem modLane_meters (s : State) (n : Nat) (f : Lane → Lane) : (s.modLane n f).meters = s.meters := rfl
@[simp] theorem modLane_inputs (s : State) (n : Nat) (f : Lane → Lane) : (s.modLane n f).inputs = s.inputs := rfl
@[simp] theorem modLane_timers (s : State) (n : Nat) (f : Lane → Lane) : (s.modLane n f).timers = s.timers := rfl
@[simp] theorem modLane_fvRaw (s : State) (n : Nat) (f : Lane → Lane) : (s.modLane n f).fvRaw = s.fvRaw := rfl
@[simp] theorem modLane_fvCfg (s : State) (n : Nat) (f : Lane → Lane) : (s.modLane n f).fvCfg = s.fvCfg := rfl
@[simp] theorem modLane_pinPol (s : State) (n : Nat) (f : Lane → Lane) : (s.modLane n f).pinPol = s.pinPol := rfl
@[simp] theorem modLane_levels (s : State) (n : Nat) (f : Lane → Lane) : (s.modLane n f).levels = s.levels := rfl
@[simp] theorem modLane_ticking (s : State) (n : Nat) (f : Lane → Lane) : (s.modLane n f).ticking = s.ticking := rfl
@[simp] theorem modLane_edgesNow (s : State) (n : Nat) (f : Lane → Lane) : (s.modLane n f).edgesNow = s.edgesNow := rfl
@[simp] theorem modLane_turned (s : State) (n : Nat) (f : Lane → Lane) : (s.modLane n f).turned = s.turned := rfl
@[simp] theorem modLane_tiles (s : State) (n : Nat) (f : Lane → Lane) : (s.modLane n f).tiles = s.tiles := rfl
@[simp] theorem modLane_ecc (s : State) (n : Nat) (f : Lane → Lane) : (s.modLane n f).ecc = s.ecc := rfl
@[simp] theorem modLane_funcs (s : State) (n : Nat) (f : Lane → Lane) : (s.modLane n f).funcs = s.funcs := rfl
@[simp] theorem modLane_queues (s : State) (n : Nat) (f : Lane → Lane) : (s.modLane n f).queues = s.queues := rfl
@[simp] theorem modLane_targets (s : State) (n : Nat) (f : Lane → Lane) : (s.modLane n f).targets = s.targets := rfl
@[simp] theorem modLane_shared (s : State) (n : Nat) (f : Lane → Lane) : (s.modLane n f).shared = s.shared := rfl
@[simp] theorem modLane_ports (s : State) (n : Nat) (f : Lane → Lane) : (s.modLane n f).ports = s.ports := rfl
@[simp] theorem modLane_reads (s : State) (n : Nat) (f : Lane → Lane) : (s.modLane n f).reads = s.reads := rfl
@[simp] theorem modLane_nextRead (s : State) (n : Nat) (f : Lane → Lane) : (s.modLane n f).nextRead = s.nextRead := rfl
@[simp] theorem modLane_results (s : State) (n : Nat) (f : Lane → Lane) : (s.modLane n f).results = s.results := rfl
@[simp] theorem modLane_heldFinal (s : State) (n : Nat) (f : Lane → Lane) : (s.modLane n f).heldFinal = s.heldFinal := rfl
@[simp] theorem modLane_hostMem (s : State) (n : Nat) (f : Lane → Lane) : (s.modLane n f).hostMem = s.hostMem := rfl
@[simp] theorem modLane_hostFail (s : State) (n : Nat) (f : Lane → Lane) : (s.modLane n f).hostFail = s.hostFail := rfl
@[simp] theorem modLane_posted (s : State) (n : Nat) (f : Lane → Lane) : (s.modLane n f).posted = s.posted := rfl

/-! ### modSlot -/

@[simp] theorem modSlot_slot (s : State) (n m : Nat) (f : Slot → Slot) :
    (s.modSlot n f).slot m = if m = n then f (s.slot n) else s.slot m := by
  simp [modSlot, slot]
@[simp] theorem modSlot_pending (s : State) (n : Nat) (f : Slot → Slot) : (s.modSlot n f).pending = s.pending := rfl
@[simp] theorem modSlot_free (s : State) (n : Nat) (f : Slot → Slot) : (s.modSlot n f).free = s.free := rfl
@[simp] theorem modSlot_edges (s : State) (n : Nat) (f : Slot → Slot) : (s.modSlot n f).edges = s.edges := rfl
@[simp] theorem modSlot_pilot (s : State) (n : Nat) (f : Slot → Slot) : (s.modSlot n f).pilot = s.pilot := rfl
@[simp] theorem modSlot_pkg (s : State) (n : Nat) (f : Slot → Slot) : (s.modSlot n f).pkg = s.pkg := rfl
@[simp] theorem modSlot_die0 (s : State) (n : Nat) (f : Slot → Slot) : (s.modSlot n f).die0 = s.die0 := rfl
@[simp] theorem modSlot_die1 (s : State) (n : Nat) (f : Slot → Slot) : (s.modSlot n f).die1 = s.die1 := rfl
@[simp] theorem modSlot_regions (s : State) (n : Nat) (f : Slot → Slot) : (s.modSlot n f).regions = s.regions := rfl
@[simp] theorem modSlot_clusters (s : State) (n : Nat) (f : Slot → Slot) : (s.modSlot n f).clusters = s.clusters := rfl
@[simp] theorem modSlot_lanes (s : State) (n : Nat) (f : Slot → Slot) : (s.modSlot n f).lanes = s.lanes := rfl
@[simp] theorem modSlot_chords (s : State) (n : Nat) (f : Slot → Slot) : (s.modSlot n f).chords = s.chords := rfl
@[simp] theorem modSlot_xfrs (s : State) (n : Nat) (f : Slot → Slot) : (s.modSlot n f).xfrs = s.xfrs := rfl
@[simp] theorem modSlot_meters (s : State) (n : Nat) (f : Slot → Slot) : (s.modSlot n f).meters = s.meters := rfl
@[simp] theorem modSlot_inputs (s : State) (n : Nat) (f : Slot → Slot) : (s.modSlot n f).inputs = s.inputs := rfl
@[simp] theorem modSlot_timers (s : State) (n : Nat) (f : Slot → Slot) : (s.modSlot n f).timers = s.timers := rfl
@[simp] theorem modSlot_fvRaw (s : State) (n : Nat) (f : Slot → Slot) : (s.modSlot n f).fvRaw = s.fvRaw := rfl
@[simp] theorem modSlot_fvCfg (s : State) (n : Nat) (f : Slot → Slot) : (s.modSlot n f).fvCfg = s.fvCfg := rfl
@[simp] theorem modSlot_pinPol (s : State) (n : Nat) (f : Slot → Slot) : (s.modSlot n f).pinPol = s.pinPol := rfl
@[simp] theorem modSlot_levels (s : State) (n : Nat) (f : Slot → Slot) : (s.modSlot n f).levels = s.levels := rfl
@[simp] theorem modSlot_ticking (s : State) (n : Nat) (f : Slot → Slot) : (s.modSlot n f).ticking = s.ticking := rfl
@[simp] theorem modSlot_edgesNow (s : State) (n : Nat) (f : Slot → Slot) : (s.modSlot n f).edgesNow = s.edgesNow := rfl
@[simp] theorem modSlot_turned (s : State) (n : Nat) (f : Slot → Slot) : (s.modSlot n f).turned = s.turned := rfl
@[simp] theorem modSlot_tiles (s : State) (n : Nat) (f : Slot → Slot) : (s.modSlot n f).tiles = s.tiles := rfl
@[simp] theorem modSlot_ecc (s : State) (n : Nat) (f : Slot → Slot) : (s.modSlot n f).ecc = s.ecc := rfl
@[simp] theorem modSlot_funcs (s : State) (n : Nat) (f : Slot → Slot) : (s.modSlot n f).funcs = s.funcs := rfl
@[simp] theorem modSlot_queues (s : State) (n : Nat) (f : Slot → Slot) : (s.modSlot n f).queues = s.queues := rfl
@[simp] theorem modSlot_targets (s : State) (n : Nat) (f : Slot → Slot) : (s.modSlot n f).targets = s.targets := rfl
@[simp] theorem modSlot_shared (s : State) (n : Nat) (f : Slot → Slot) : (s.modSlot n f).shared = s.shared := rfl
@[simp] theorem modSlot_ports (s : State) (n : Nat) (f : Slot → Slot) : (s.modSlot n f).ports = s.ports := rfl
@[simp] theorem modSlot_reads (s : State) (n : Nat) (f : Slot → Slot) : (s.modSlot n f).reads = s.reads := rfl
@[simp] theorem modSlot_nextRead (s : State) (n : Nat) (f : Slot → Slot) : (s.modSlot n f).nextRead = s.nextRead := rfl
@[simp] theorem modSlot_results (s : State) (n : Nat) (f : Slot → Slot) : (s.modSlot n f).results = s.results := rfl
@[simp] theorem modSlot_heldFinal (s : State) (n : Nat) (f : Slot → Slot) : (s.modSlot n f).heldFinal = s.heldFinal := rfl
@[simp] theorem modSlot_hostMem (s : State) (n : Nat) (f : Slot → Slot) : (s.modSlot n f).hostMem = s.hostMem := rfl
@[simp] theorem modSlot_hostFail (s : State) (n : Nat) (f : Slot → Slot) : (s.modSlot n f).hostFail = s.hostFail := rfl
@[simp] theorem modSlot_posted (s : State) (n : Nat) (f : Slot → Slot) : (s.modSlot n f).posted = s.posted := rfl

/-! ### modChord -/

@[simp] theorem modChord_chord (s : State) (n m : Nat) (f : Chord → Chord) :
    (s.modChord n f).chord m = if m = n then f (s.chord n) else s.chord m := by
  simp [modChord, chord]
@[simp] theorem modChord_pending (s : State) (n : Nat) (f : Chord → Chord) : (s.modChord n f).pending = s.pending := rfl
@[simp] theorem modChord_free (s : State) (n : Nat) (f : Chord → Chord) : (s.modChord n f).free = s.free := rfl
@[simp] theorem modChord_edges (s : State) (n : Nat) (f : Chord → Chord) : (s.modChord n f).edges = s.edges := rfl
@[simp] theorem modChord_pilot (s : State) (n : Nat) (f : Chord → Chord) : (s.modChord n f).pilot = s.pilot := rfl
@[simp] theorem modChord_pkg (s : State) (n : Nat) (f : Chord → Chord) : (s.modChord n f).pkg = s.pkg := rfl
@[simp] theorem modChord_die0 (s : State) (n : Nat) (f : Chord → Chord) : (s.modChord n f).die0 = s.die0 := rfl
@[simp] theorem modChord_die1 (s : State) (n : Nat) (f : Chord → Chord) : (s.modChord n f).die1 = s.die1 := rfl
@[simp] theorem modChord_regions (s : State) (n : Nat) (f : Chord → Chord) : (s.modChord n f).regions = s.regions := rfl
@[simp] theorem modChord_clusters (s : State) (n : Nat) (f : Chord → Chord) : (s.modChord n f).clusters = s.clusters := rfl
@[simp] theorem modChord_lanes (s : State) (n : Nat) (f : Chord → Chord) : (s.modChord n f).lanes = s.lanes := rfl
@[simp] theorem modChord_slots (s : State) (n : Nat) (f : Chord → Chord) : (s.modChord n f).slots = s.slots := rfl
@[simp] theorem modChord_xfrs (s : State) (n : Nat) (f : Chord → Chord) : (s.modChord n f).xfrs = s.xfrs := rfl
@[simp] theorem modChord_meters (s : State) (n : Nat) (f : Chord → Chord) : (s.modChord n f).meters = s.meters := rfl
@[simp] theorem modChord_inputs (s : State) (n : Nat) (f : Chord → Chord) : (s.modChord n f).inputs = s.inputs := rfl
@[simp] theorem modChord_timers (s : State) (n : Nat) (f : Chord → Chord) : (s.modChord n f).timers = s.timers := rfl
@[simp] theorem modChord_fvRaw (s : State) (n : Nat) (f : Chord → Chord) : (s.modChord n f).fvRaw = s.fvRaw := rfl
@[simp] theorem modChord_fvCfg (s : State) (n : Nat) (f : Chord → Chord) : (s.modChord n f).fvCfg = s.fvCfg := rfl
@[simp] theorem modChord_pinPol (s : State) (n : Nat) (f : Chord → Chord) : (s.modChord n f).pinPol = s.pinPol := rfl
@[simp] theorem modChord_levels (s : State) (n : Nat) (f : Chord → Chord) : (s.modChord n f).levels = s.levels := rfl
@[simp] theorem modChord_ticking (s : State) (n : Nat) (f : Chord → Chord) : (s.modChord n f).ticking = s.ticking := rfl
@[simp] theorem modChord_edgesNow (s : State) (n : Nat) (f : Chord → Chord) : (s.modChord n f).edgesNow = s.edgesNow := rfl
@[simp] theorem modChord_turned (s : State) (n : Nat) (f : Chord → Chord) : (s.modChord n f).turned = s.turned := rfl
@[simp] theorem modChord_tiles (s : State) (n : Nat) (f : Chord → Chord) : (s.modChord n f).tiles = s.tiles := rfl
@[simp] theorem modChord_ecc (s : State) (n : Nat) (f : Chord → Chord) : (s.modChord n f).ecc = s.ecc := rfl
@[simp] theorem modChord_funcs (s : State) (n : Nat) (f : Chord → Chord) : (s.modChord n f).funcs = s.funcs := rfl
@[simp] theorem modChord_queues (s : State) (n : Nat) (f : Chord → Chord) : (s.modChord n f).queues = s.queues := rfl
@[simp] theorem modChord_targets (s : State) (n : Nat) (f : Chord → Chord) : (s.modChord n f).targets = s.targets := rfl
@[simp] theorem modChord_shared (s : State) (n : Nat) (f : Chord → Chord) : (s.modChord n f).shared = s.shared := rfl
@[simp] theorem modChord_ports (s : State) (n : Nat) (f : Chord → Chord) : (s.modChord n f).ports = s.ports := rfl
@[simp] theorem modChord_reads (s : State) (n : Nat) (f : Chord → Chord) : (s.modChord n f).reads = s.reads := rfl
@[simp] theorem modChord_nextRead (s : State) (n : Nat) (f : Chord → Chord) : (s.modChord n f).nextRead = s.nextRead := rfl
@[simp] theorem modChord_results (s : State) (n : Nat) (f : Chord → Chord) : (s.modChord n f).results = s.results := rfl
@[simp] theorem modChord_heldFinal (s : State) (n : Nat) (f : Chord → Chord) : (s.modChord n f).heldFinal = s.heldFinal := rfl
@[simp] theorem modChord_hostMem (s : State) (n : Nat) (f : Chord → Chord) : (s.modChord n f).hostMem = s.hostMem := rfl
@[simp] theorem modChord_hostFail (s : State) (n : Nat) (f : Chord → Chord) : (s.modChord n f).hostFail = s.hostFail := rfl
@[simp] theorem modChord_posted (s : State) (n : Nat) (f : Chord → Chord) : (s.modChord n f).posted = s.posted := rfl

/-! ### modXfr -/

@[simp] theorem modXfr_xfr (s : State) (n m : Nat) (f : Xfr → Xfr) :
    (s.modXfr n f).xfr m = if m = n then f (s.xfr n) else s.xfr m := by
  simp [modXfr, xfr]
@[simp] theorem modXfr_pending (s : State) (n : Nat) (f : Xfr → Xfr) : (s.modXfr n f).pending = s.pending := rfl
@[simp] theorem modXfr_free (s : State) (n : Nat) (f : Xfr → Xfr) : (s.modXfr n f).free = s.free := rfl
@[simp] theorem modXfr_edges (s : State) (n : Nat) (f : Xfr → Xfr) : (s.modXfr n f).edges = s.edges := rfl
@[simp] theorem modXfr_pilot (s : State) (n : Nat) (f : Xfr → Xfr) : (s.modXfr n f).pilot = s.pilot := rfl
@[simp] theorem modXfr_pkg (s : State) (n : Nat) (f : Xfr → Xfr) : (s.modXfr n f).pkg = s.pkg := rfl
@[simp] theorem modXfr_die0 (s : State) (n : Nat) (f : Xfr → Xfr) : (s.modXfr n f).die0 = s.die0 := rfl
@[simp] theorem modXfr_die1 (s : State) (n : Nat) (f : Xfr → Xfr) : (s.modXfr n f).die1 = s.die1 := rfl
@[simp] theorem modXfr_regions (s : State) (n : Nat) (f : Xfr → Xfr) : (s.modXfr n f).regions = s.regions := rfl
@[simp] theorem modXfr_clusters (s : State) (n : Nat) (f : Xfr → Xfr) : (s.modXfr n f).clusters = s.clusters := rfl
@[simp] theorem modXfr_lanes (s : State) (n : Nat) (f : Xfr → Xfr) : (s.modXfr n f).lanes = s.lanes := rfl
@[simp] theorem modXfr_slots (s : State) (n : Nat) (f : Xfr → Xfr) : (s.modXfr n f).slots = s.slots := rfl
@[simp] theorem modXfr_chords (s : State) (n : Nat) (f : Xfr → Xfr) : (s.modXfr n f).chords = s.chords := rfl
@[simp] theorem modXfr_meters (s : State) (n : Nat) (f : Xfr → Xfr) : (s.modXfr n f).meters = s.meters := rfl
@[simp] theorem modXfr_inputs (s : State) (n : Nat) (f : Xfr → Xfr) : (s.modXfr n f).inputs = s.inputs := rfl
@[simp] theorem modXfr_timers (s : State) (n : Nat) (f : Xfr → Xfr) : (s.modXfr n f).timers = s.timers := rfl
@[simp] theorem modXfr_fvRaw (s : State) (n : Nat) (f : Xfr → Xfr) : (s.modXfr n f).fvRaw = s.fvRaw := rfl
@[simp] theorem modXfr_fvCfg (s : State) (n : Nat) (f : Xfr → Xfr) : (s.modXfr n f).fvCfg = s.fvCfg := rfl
@[simp] theorem modXfr_pinPol (s : State) (n : Nat) (f : Xfr → Xfr) : (s.modXfr n f).pinPol = s.pinPol := rfl
@[simp] theorem modXfr_levels (s : State) (n : Nat) (f : Xfr → Xfr) : (s.modXfr n f).levels = s.levels := rfl
@[simp] theorem modXfr_ticking (s : State) (n : Nat) (f : Xfr → Xfr) : (s.modXfr n f).ticking = s.ticking := rfl
@[simp] theorem modXfr_edgesNow (s : State) (n : Nat) (f : Xfr → Xfr) : (s.modXfr n f).edgesNow = s.edgesNow := rfl
@[simp] theorem modXfr_turned (s : State) (n : Nat) (f : Xfr → Xfr) : (s.modXfr n f).turned = s.turned := rfl
@[simp] theorem modXfr_tiles (s : State) (n : Nat) (f : Xfr → Xfr) : (s.modXfr n f).tiles = s.tiles := rfl
@[simp] theorem modXfr_ecc (s : State) (n : Nat) (f : Xfr → Xfr) : (s.modXfr n f).ecc = s.ecc := rfl
@[simp] theorem modXfr_funcs (s : State) (n : Nat) (f : Xfr → Xfr) : (s.modXfr n f).funcs = s.funcs := rfl
@[simp] theorem modXfr_queues (s : State) (n : Nat) (f : Xfr → Xfr) : (s.modXfr n f).queues = s.queues := rfl
@[simp] theorem modXfr_targets (s : State) (n : Nat) (f : Xfr → Xfr) : (s.modXfr n f).targets = s.targets := rfl
@[simp] theorem modXfr_shared (s : State) (n : Nat) (f : Xfr → Xfr) : (s.modXfr n f).shared = s.shared := rfl
@[simp] theorem modXfr_ports (s : State) (n : Nat) (f : Xfr → Xfr) : (s.modXfr n f).ports = s.ports := rfl
@[simp] theorem modXfr_reads (s : State) (n : Nat) (f : Xfr → Xfr) : (s.modXfr n f).reads = s.reads := rfl
@[simp] theorem modXfr_nextRead (s : State) (n : Nat) (f : Xfr → Xfr) : (s.modXfr n f).nextRead = s.nextRead := rfl
@[simp] theorem modXfr_results (s : State) (n : Nat) (f : Xfr → Xfr) : (s.modXfr n f).results = s.results := rfl
@[simp] theorem modXfr_heldFinal (s : State) (n : Nat) (f : Xfr → Xfr) : (s.modXfr n f).heldFinal = s.heldFinal := rfl
@[simp] theorem modXfr_hostMem (s : State) (n : Nat) (f : Xfr → Xfr) : (s.modXfr n f).hostMem = s.hostMem := rfl
@[simp] theorem modXfr_hostFail (s : State) (n : Nat) (f : Xfr → Xfr) : (s.modXfr n f).hostFail = s.hostFail := rfl
@[simp] theorem modXfr_posted (s : State) (n : Nat) (f : Xfr → Xfr) : (s.modXfr n f).posted = s.posted := rfl

/-! ### modMeter -/

@[simp] theorem modMeter_meter (s : State) (n m : Nat) (f : Meter → Meter) :
    (s.modMeter n f).meter m = if m = n then f (s.meter n) else s.meter m := by
  simp [modMeter, meter]
@[simp] theorem modMeter_pending (s : State) (n : Nat) (f : Meter → Meter) : (s.modMeter n f).pending = s.pending := rfl
@[simp] theorem modMeter_free (s : State) (n : Nat) (f : Meter → Meter) : (s.modMeter n f).free = s.free := rfl
@[simp] theorem modMeter_edges (s : State) (n : Nat) (f : Meter → Meter) : (s.modMeter n f).edges = s.edges := rfl
@[simp] theorem modMeter_pilot (s : State) (n : Nat) (f : Meter → Meter) : (s.modMeter n f).pilot = s.pilot := rfl
@[simp] theorem modMeter_pkg (s : State) (n : Nat) (f : Meter → Meter) : (s.modMeter n f).pkg = s.pkg := rfl
@[simp] theorem modMeter_die0 (s : State) (n : Nat) (f : Meter → Meter) : (s.modMeter n f).die0 = s.die0 := rfl
@[simp] theorem modMeter_die1 (s : State) (n : Nat) (f : Meter → Meter) : (s.modMeter n f).die1 = s.die1 := rfl
@[simp] theorem modMeter_regions (s : State) (n : Nat) (f : Meter → Meter) : (s.modMeter n f).regions = s.regions := rfl
@[simp] theorem modMeter_clusters (s : State) (n : Nat) (f : Meter → Meter) : (s.modMeter n f).clusters = s.clusters := rfl
@[simp] theorem modMeter_lanes (s : State) (n : Nat) (f : Meter → Meter) : (s.modMeter n f).lanes = s.lanes := rfl
@[simp] theorem modMeter_slots (s : State) (n : Nat) (f : Meter → Meter) : (s.modMeter n f).slots = s.slots := rfl
@[simp] theorem modMeter_chords (s : State) (n : Nat) (f : Meter → Meter) : (s.modMeter n f).chords = s.chords := rfl
@[simp] theorem modMeter_xfrs (s : State) (n : Nat) (f : Meter → Meter) : (s.modMeter n f).xfrs = s.xfrs := rfl
@[simp] theorem modMeter_inputs (s : State) (n : Nat) (f : Meter → Meter) : (s.modMeter n f).inputs = s.inputs := rfl
@[simp] theorem modMeter_timers (s : State) (n : Nat) (f : Meter → Meter) : (s.modMeter n f).timers = s.timers := rfl
@[simp] theorem modMeter_fvRaw (s : State) (n : Nat) (f : Meter → Meter) : (s.modMeter n f).fvRaw = s.fvRaw := rfl
@[simp] theorem modMeter_fvCfg (s : State) (n : Nat) (f : Meter → Meter) : (s.modMeter n f).fvCfg = s.fvCfg := rfl
@[simp] theorem modMeter_pinPol (s : State) (n : Nat) (f : Meter → Meter) : (s.modMeter n f).pinPol = s.pinPol := rfl
@[simp] theorem modMeter_levels (s : State) (n : Nat) (f : Meter → Meter) : (s.modMeter n f).levels = s.levels := rfl
@[simp] theorem modMeter_ticking (s : State) (n : Nat) (f : Meter → Meter) : (s.modMeter n f).ticking = s.ticking := rfl
@[simp] theorem modMeter_edgesNow (s : State) (n : Nat) (f : Meter → Meter) : (s.modMeter n f).edgesNow = s.edgesNow := rfl
@[simp] theorem modMeter_turned (s : State) (n : Nat) (f : Meter → Meter) : (s.modMeter n f).turned = s.turned := rfl
@[simp] theorem modMeter_tiles (s : State) (n : Nat) (f : Meter → Meter) : (s.modMeter n f).tiles = s.tiles := rfl
@[simp] theorem modMeter_ecc (s : State) (n : Nat) (f : Meter → Meter) : (s.modMeter n f).ecc = s.ecc := rfl
@[simp] theorem modMeter_funcs (s : State) (n : Nat) (f : Meter → Meter) : (s.modMeter n f).funcs = s.funcs := rfl
@[simp] theorem modMeter_queues (s : State) (n : Nat) (f : Meter → Meter) : (s.modMeter n f).queues = s.queues := rfl
@[simp] theorem modMeter_targets (s : State) (n : Nat) (f : Meter → Meter) : (s.modMeter n f).targets = s.targets := rfl
@[simp] theorem modMeter_shared (s : State) (n : Nat) (f : Meter → Meter) : (s.modMeter n f).shared = s.shared := rfl
@[simp] theorem modMeter_ports (s : State) (n : Nat) (f : Meter → Meter) : (s.modMeter n f).ports = s.ports := rfl
@[simp] theorem modMeter_reads (s : State) (n : Nat) (f : Meter → Meter) : (s.modMeter n f).reads = s.reads := rfl
@[simp] theorem modMeter_nextRead (s : State) (n : Nat) (f : Meter → Meter) : (s.modMeter n f).nextRead = s.nextRead := rfl
@[simp] theorem modMeter_results (s : State) (n : Nat) (f : Meter → Meter) : (s.modMeter n f).results = s.results := rfl
@[simp] theorem modMeter_heldFinal (s : State) (n : Nat) (f : Meter → Meter) : (s.modMeter n f).heldFinal = s.heldFinal := rfl
@[simp] theorem modMeter_hostMem (s : State) (n : Nat) (f : Meter → Meter) : (s.modMeter n f).hostMem = s.hostMem := rfl
@[simp] theorem modMeter_hostFail (s : State) (n : Nat) (f : Meter → Meter) : (s.modMeter n f).hostFail = s.hostFail := rfl
@[simp] theorem modMeter_posted (s : State) (n : Nat) (f : Meter → Meter) : (s.modMeter n f).posted = s.posted := rfl

/-! ### modInput -/

@[simp] theorem modInput_input (s : State) (n m : Nat) (f : Input → Input) :
    (s.modInput n f).input m = if m = n then f (s.input n) else s.input m := by
  simp [modInput, input]
@[simp] theorem modInput_pending (s : State) (n : Nat) (f : Input → Input) : (s.modInput n f).pending = s.pending := rfl
@[simp] theorem modInput_free (s : State) (n : Nat) (f : Input → Input) : (s.modInput n f).free = s.free := rfl
@[simp] theorem modInput_edges (s : State) (n : Nat) (f : Input → Input) : (s.modInput n f).edges = s.edges := rfl
@[simp] theorem modInput_pilot (s : State) (n : Nat) (f : Input → Input) : (s.modInput n f).pilot = s.pilot := rfl
@[simp] theorem modInput_pkg (s : State) (n : Nat) (f : Input → Input) : (s.modInput n f).pkg = s.pkg := rfl
@[simp] theorem modInput_die0 (s : State) (n : Nat) (f : Input → Input) : (s.modInput n f).die0 = s.die0 := rfl
@[simp] theorem modInput_die1 (s : State) (n : Nat) (f : Input → Input) : (s.modInput n f).die1 = s.die1 := rfl
@[simp] theorem modInput_regions (s : State) (n : Nat) (f : Input → Input) : (s.modInput n f).regions = s.regions := rfl
@[simp] theorem modInput_clusters (s : State) (n : Nat) (f : Input → Input) : (s.modInput n f).clusters = s.clusters := rfl
@[simp] theorem modInput_lanes (s : State) (n : Nat) (f : Input → Input) : (s.modInput n f).lanes = s.lanes := rfl
@[simp] theorem modInput_slots (s : State) (n : Nat) (f : Input → Input) : (s.modInput n f).slots = s.slots := rfl
@[simp] theorem modInput_chords (s : State) (n : Nat) (f : Input → Input) : (s.modInput n f).chords = s.chords := rfl
@[simp] theorem modInput_xfrs (s : State) (n : Nat) (f : Input → Input) : (s.modInput n f).xfrs = s.xfrs := rfl
@[simp] theorem modInput_meters (s : State) (n : Nat) (f : Input → Input) : (s.modInput n f).meters = s.meters := rfl
@[simp] theorem modInput_timers (s : State) (n : Nat) (f : Input → Input) : (s.modInput n f).timers = s.timers := rfl
@[simp] theorem modInput_fvRaw (s : State) (n : Nat) (f : Input → Input) : (s.modInput n f).fvRaw = s.fvRaw := rfl
@[simp] theorem modInput_fvCfg (s : State) (n : Nat) (f : Input → Input) : (s.modInput n f).fvCfg = s.fvCfg := rfl
@[simp] theorem modInput_pinPol (s : State) (n : Nat) (f : Input → Input) : (s.modInput n f).pinPol = s.pinPol := rfl
@[simp] theorem modInput_levels (s : State) (n : Nat) (f : Input → Input) : (s.modInput n f).levels = s.levels := rfl
@[simp] theorem modInput_ticking (s : State) (n : Nat) (f : Input → Input) : (s.modInput n f).ticking = s.ticking := rfl
@[simp] theorem modInput_edgesNow (s : State) (n : Nat) (f : Input → Input) : (s.modInput n f).edgesNow = s.edgesNow := rfl
@[simp] theorem modInput_turned (s : State) (n : Nat) (f : Input → Input) : (s.modInput n f).turned = s.turned := rfl
@[simp] theorem modInput_tiles (s : State) (n : Nat) (f : Input → Input) : (s.modInput n f).tiles = s.tiles := rfl
@[simp] theorem modInput_ecc (s : State) (n : Nat) (f : Input → Input) : (s.modInput n f).ecc = s.ecc := rfl
@[simp] theorem modInput_funcs (s : State) (n : Nat) (f : Input → Input) : (s.modInput n f).funcs = s.funcs := rfl
@[simp] theorem modInput_queues (s : State) (n : Nat) (f : Input → Input) : (s.modInput n f).queues = s.queues := rfl
@[simp] theorem modInput_targets (s : State) (n : Nat) (f : Input → Input) : (s.modInput n f).targets = s.targets := rfl
@[simp] theorem modInput_shared (s : State) (n : Nat) (f : Input → Input) : (s.modInput n f).shared = s.shared := rfl
@[simp] theorem modInput_ports (s : State) (n : Nat) (f : Input → Input) : (s.modInput n f).ports = s.ports := rfl
@[simp] theorem modInput_reads (s : State) (n : Nat) (f : Input → Input) : (s.modInput n f).reads = s.reads := rfl
@[simp] theorem modInput_nextRead (s : State) (n : Nat) (f : Input → Input) : (s.modInput n f).nextRead = s.nextRead := rfl
@[simp] theorem modInput_results (s : State) (n : Nat) (f : Input → Input) : (s.modInput n f).results = s.results := rfl
@[simp] theorem modInput_heldFinal (s : State) (n : Nat) (f : Input → Input) : (s.modInput n f).heldFinal = s.heldFinal := rfl
@[simp] theorem modInput_hostMem (s : State) (n : Nat) (f : Input → Input) : (s.modInput n f).hostMem = s.hostMem := rfl
@[simp] theorem modInput_hostFail (s : State) (n : Nat) (f : Input → Input) : (s.modInput n f).hostFail = s.hostFail := rfl
@[simp] theorem modInput_posted (s : State) (n : Nat) (f : Input → Input) : (s.modInput n f).posted = s.posted := rfl

/-! ### modTimer -/

@[simp] theorem modTimer_timer (s : State) (n m : Nat) (f : Timer → Timer) :
    (s.modTimer n f).timer m = if m = n then f (s.timer n) else s.timer m := by
  simp [modTimer, timer]
@[simp] theorem modTimer_pending (s : State) (n : Nat) (f : Timer → Timer) : (s.modTimer n f).pending = s.pending := rfl
@[simp] theorem modTimer_free (s : State) (n : Nat) (f : Timer → Timer) : (s.modTimer n f).free = s.free := rfl
@[simp] theorem modTimer_edges (s : State) (n : Nat) (f : Timer → Timer) : (s.modTimer n f).edges = s.edges := rfl
@[simp] theorem modTimer_pilot (s : State) (n : Nat) (f : Timer → Timer) : (s.modTimer n f).pilot = s.pilot := rfl
@[simp] theorem modTimer_pkg (s : State) (n : Nat) (f : Timer → Timer) : (s.modTimer n f).pkg = s.pkg := rfl
@[simp] theorem modTimer_die0 (s : State) (n : Nat) (f : Timer → Timer) : (s.modTimer n f).die0 = s.die0 := rfl
@[simp] theorem modTimer_die1 (s : State) (n : Nat) (f : Timer → Timer) : (s.modTimer n f).die1 = s.die1 := rfl
@[simp] theorem modTimer_regions (s : State) (n : Nat) (f : Timer → Timer) : (s.modTimer n f).regions = s.regions := rfl
@[simp] theorem modTimer_clusters (s : State) (n : Nat) (f : Timer → Timer) : (s.modTimer n f).clusters = s.clusters := rfl
@[simp] theorem modTimer_lanes (s : State) (n : Nat) (f : Timer → Timer) : (s.modTimer n f).lanes = s.lanes := rfl
@[simp] theorem modTimer_slots (s : State) (n : Nat) (f : Timer → Timer) : (s.modTimer n f).slots = s.slots := rfl
@[simp] theorem modTimer_chords (s : State) (n : Nat) (f : Timer → Timer) : (s.modTimer n f).chords = s.chords := rfl
@[simp] theorem modTimer_xfrs (s : State) (n : Nat) (f : Timer → Timer) : (s.modTimer n f).xfrs = s.xfrs := rfl
@[simp] theorem modTimer_meters (s : State) (n : Nat) (f : Timer → Timer) : (s.modTimer n f).meters = s.meters := rfl
@[simp] theorem modTimer_inputs (s : State) (n : Nat) (f : Timer → Timer) : (s.modTimer n f).inputs = s.inputs := rfl
@[simp] theorem modTimer_fvRaw (s : State) (n : Nat) (f : Timer → Timer) : (s.modTimer n f).fvRaw = s.fvRaw := rfl
@[simp] theorem modTimer_fvCfg (s : State) (n : Nat) (f : Timer → Timer) : (s.modTimer n f).fvCfg = s.fvCfg := rfl
@[simp] theorem modTimer_pinPol (s : State) (n : Nat) (f : Timer → Timer) : (s.modTimer n f).pinPol = s.pinPol := rfl
@[simp] theorem modTimer_levels (s : State) (n : Nat) (f : Timer → Timer) : (s.modTimer n f).levels = s.levels := rfl
@[simp] theorem modTimer_ticking (s : State) (n : Nat) (f : Timer → Timer) : (s.modTimer n f).ticking = s.ticking := rfl
@[simp] theorem modTimer_edgesNow (s : State) (n : Nat) (f : Timer → Timer) : (s.modTimer n f).edgesNow = s.edgesNow := rfl
@[simp] theorem modTimer_turned (s : State) (n : Nat) (f : Timer → Timer) : (s.modTimer n f).turned = s.turned := rfl
@[simp] theorem modTimer_tiles (s : State) (n : Nat) (f : Timer → Timer) : (s.modTimer n f).tiles = s.tiles := rfl
@[simp] theorem modTimer_ecc (s : State) (n : Nat) (f : Timer → Timer) : (s.modTimer n f).ecc = s.ecc := rfl
@[simp] theorem modTimer_funcs (s : State) (n : Nat) (f : Timer → Timer) : (s.modTimer n f).funcs = s.funcs := rfl
@[simp] theorem modTimer_queues (s : State) (n : Nat) (f : Timer → Timer) : (s.modTimer n f).queues = s.queues := rfl
@[simp] theorem modTimer_targets (s : State) (n : Nat) (f : Timer → Timer) : (s.modTimer n f).targets = s.targets := rfl
@[simp] theorem modTimer_shared (s : State) (n : Nat) (f : Timer → Timer) : (s.modTimer n f).shared = s.shared := rfl
@[simp] theorem modTimer_ports (s : State) (n : Nat) (f : Timer → Timer) : (s.modTimer n f).ports = s.ports := rfl
@[simp] theorem modTimer_reads (s : State) (n : Nat) (f : Timer → Timer) : (s.modTimer n f).reads = s.reads := rfl
@[simp] theorem modTimer_nextRead (s : State) (n : Nat) (f : Timer → Timer) : (s.modTimer n f).nextRead = s.nextRead := rfl
@[simp] theorem modTimer_results (s : State) (n : Nat) (f : Timer → Timer) : (s.modTimer n f).results = s.results := rfl
@[simp] theorem modTimer_heldFinal (s : State) (n : Nat) (f : Timer → Timer) : (s.modTimer n f).heldFinal = s.heldFinal := rfl
@[simp] theorem modTimer_hostMem (s : State) (n : Nat) (f : Timer → Timer) : (s.modTimer n f).hostMem = s.hostMem := rfl
@[simp] theorem modTimer_hostFail (s : State) (n : Nat) (f : Timer → Timer) : (s.modTimer n f).hostFail = s.hostFail := rfl
@[simp] theorem modTimer_posted (s : State) (n : Nat) (f : Timer → Timer) : (s.modTimer n f).posted = s.posted := rfl

/-! ### modTile -/

@[simp] theorem modTile_tile (s : State) (n m : Nat) (f : Tile → Tile) :
    (s.modTile n f).tile m = if m = n then f (s.tile n) else s.tile m := by
  simp [modTile, tile]
@[simp] theorem modTile_pending (s : State) (n : Nat) (f : Tile → Tile) : (s.modTile n f).pending = s.pending := rfl
@[simp] theorem modTile_free (s : State) (n : Nat) (f : Tile → Tile) : (s.modTile n f).free = s.free := rfl
@[simp] theorem modTile_edges (s : State) (n : Nat) (f : Tile → Tile) : (s.modTile n f).edges = s.edges := rfl
@[simp] theorem modTile_pilot (s : State) (n : Nat) (f : Tile → Tile) : (s.modTile n f).pilot = s.pilot := rfl
@[simp] theorem modTile_pkg (s : State) (n : Nat) (f : Tile → Tile) : (s.modTile n f).pkg = s.pkg := rfl
@[simp] theorem modTile_die0 (s : State) (n : Nat) (f : Tile → Tile) : (s.modTile n f).die0 = s.die0 := rfl
@[simp] theorem modTile_die1 (s : State) (n : Nat) (f : Tile → Tile) : (s.modTile n f).die1 = s.die1 := rfl
@[simp] theorem modTile_regions (s : State) (n : Nat) (f : Tile → Tile) : (s.modTile n f).regions = s.regions := rfl
@[simp] theorem modTile_clusters (s : State) (n : Nat) (f : Tile → Tile) : (s.modTile n f).clusters = s.clusters := rfl
@[simp] theorem modTile_lanes (s : State) (n : Nat) (f : Tile → Tile) : (s.modTile n f).lanes = s.lanes := rfl
@[simp] theorem modTile_slots (s : State) (n : Nat) (f : Tile → Tile) : (s.modTile n f).slots = s.slots := rfl
@[simp] theorem modTile_chords (s : State) (n : Nat) (f : Tile → Tile) : (s.modTile n f).chords = s.chords := rfl
@[simp] theorem modTile_xfrs (s : State) (n : Nat) (f : Tile → Tile) : (s.modTile n f).xfrs = s.xfrs := rfl
@[simp] theorem modTile_meters (s : State) (n : Nat) (f : Tile → Tile) : (s.modTile n f).meters = s.meters := rfl
@[simp] theorem modTile_inputs (s : State) (n : Nat) (f : Tile → Tile) : (s.modTile n f).inputs = s.inputs := rfl
@[simp] theorem modTile_timers (s : State) (n : Nat) (f : Tile → Tile) : (s.modTile n f).timers = s.timers := rfl
@[simp] theorem modTile_fvRaw (s : State) (n : Nat) (f : Tile → Tile) : (s.modTile n f).fvRaw = s.fvRaw := rfl
@[simp] theorem modTile_fvCfg (s : State) (n : Nat) (f : Tile → Tile) : (s.modTile n f).fvCfg = s.fvCfg := rfl
@[simp] theorem modTile_pinPol (s : State) (n : Nat) (f : Tile → Tile) : (s.modTile n f).pinPol = s.pinPol := rfl
@[simp] theorem modTile_levels (s : State) (n : Nat) (f : Tile → Tile) : (s.modTile n f).levels = s.levels := rfl
@[simp] theorem modTile_ticking (s : State) (n : Nat) (f : Tile → Tile) : (s.modTile n f).ticking = s.ticking := rfl
@[simp] theorem modTile_edgesNow (s : State) (n : Nat) (f : Tile → Tile) : (s.modTile n f).edgesNow = s.edgesNow := rfl
@[simp] theorem modTile_turned (s : State) (n : Nat) (f : Tile → Tile) : (s.modTile n f).turned = s.turned := rfl
@[simp] theorem modTile_ecc (s : State) (n : Nat) (f : Tile → Tile) : (s.modTile n f).ecc = s.ecc := rfl
@[simp] theorem modTile_funcs (s : State) (n : Nat) (f : Tile → Tile) : (s.modTile n f).funcs = s.funcs := rfl
@[simp] theorem modTile_queues (s : State) (n : Nat) (f : Tile → Tile) : (s.modTile n f).queues = s.queues := rfl
@[simp] theorem modTile_targets (s : State) (n : Nat) (f : Tile → Tile) : (s.modTile n f).targets = s.targets := rfl
@[simp] theorem modTile_shared (s : State) (n : Nat) (f : Tile → Tile) : (s.modTile n f).shared = s.shared := rfl
@[simp] theorem modTile_ports (s : State) (n : Nat) (f : Tile → Tile) : (s.modTile n f).ports = s.ports := rfl
@[simp] theorem modTile_reads (s : State) (n : Nat) (f : Tile → Tile) : (s.modTile n f).reads = s.reads := rfl
@[simp] theorem modTile_nextRead (s : State) (n : Nat) (f : Tile → Tile) : (s.modTile n f).nextRead = s.nextRead := rfl
@[simp] theorem modTile_results (s : State) (n : Nat) (f : Tile → Tile) : (s.modTile n f).results = s.results := rfl
@[simp] theorem modTile_heldFinal (s : State) (n : Nat) (f : Tile → Tile) : (s.modTile n f).heldFinal = s.heldFinal := rfl
@[simp] theorem modTile_hostMem (s : State) (n : Nat) (f : Tile → Tile) : (s.modTile n f).hostMem = s.hostMem := rfl
@[simp] theorem modTile_hostFail (s : State) (n : Nat) (f : Tile → Tile) : (s.modTile n f).hostFail = s.hostFail := rfl
@[simp] theorem modTile_posted (s : State) (n : Nat) (f : Tile → Tile) : (s.modTile n f).posted = s.posted := rfl

/-! ### modFunc -/

@[simp] theorem modFunc_func (s : State) (n m : Nat) (f : Func → Func) :
    (s.modFunc n f).func m = if m = n then f (s.func n) else s.func m := by
  simp [modFunc, func]
@[simp] theorem modFunc_pending (s : State) (n : Nat) (f : Func → Func) : (s.modFunc n f).pending = s.pending := rfl
@[simp] theorem modFunc_free (s : State) (n : Nat) (f : Func → Func) : (s.modFunc n f).free = s.free := rfl
@[simp] theorem modFunc_edges (s : State) (n : Nat) (f : Func → Func) : (s.modFunc n f).edges = s.edges := rfl
@[simp] theorem modFunc_pilot (s : State) (n : Nat) (f : Func → Func) : (s.modFunc n f).pilot = s.pilot := rfl
@[simp] theorem modFunc_pkg (s : State) (n : Nat) (f : Func → Func) : (s.modFunc n f).pkg = s.pkg := rfl
@[simp] theorem modFunc_die0 (s : State) (n : Nat) (f : Func → Func) : (s.modFunc n f).die0 = s.die0 := rfl
@[simp] theorem modFunc_die1 (s : State) (n : Nat) (f : Func → Func) : (s.modFunc n f).die1 = s.die1 := rfl
@[simp] theorem modFunc_regions (s : State) (n : Nat) (f : Func → Func) : (s.modFunc n f).regions = s.regions := rfl
@[simp] theorem modFunc_clusters (s : State) (n : Nat) (f : Func → Func) : (s.modFunc n f).clusters = s.clusters := rfl
@[simp] theorem modFunc_lanes (s : State) (n : Nat) (f : Func → Func) : (s.modFunc n f).lanes = s.lanes := rfl
@[simp] theorem modFunc_slots (s : State) (n : Nat) (f : Func → Func) : (s.modFunc n f).slots = s.slots := rfl
@[simp] theorem modFunc_chords (s : State) (n : Nat) (f : Func → Func) : (s.modFunc n f).chords = s.chords := rfl
@[simp] theorem modFunc_xfrs (s : State) (n : Nat) (f : Func → Func) : (s.modFunc n f).xfrs = s.xfrs := rfl
@[simp] theorem modFunc_meters (s : State) (n : Nat) (f : Func → Func) : (s.modFunc n f).meters = s.meters := rfl
@[simp] theorem modFunc_inputs (s : State) (n : Nat) (f : Func → Func) : (s.modFunc n f).inputs = s.inputs := rfl
@[simp] theorem modFunc_timers (s : State) (n : Nat) (f : Func → Func) : (s.modFunc n f).timers = s.timers := rfl
@[simp] theorem modFunc_fvRaw (s : State) (n : Nat) (f : Func → Func) : (s.modFunc n f).fvRaw = s.fvRaw := rfl
@[simp] theorem modFunc_fvCfg (s : State) (n : Nat) (f : Func → Func) : (s.modFunc n f).fvCfg = s.fvCfg := rfl
@[simp] theorem modFunc_pinPol (s : State) (n : Nat) (f : Func → Func) : (s.modFunc n f).pinPol = s.pinPol := rfl
@[simp] theorem modFunc_levels (s : State) (n : Nat) (f : Func → Func) : (s.modFunc n f).levels = s.levels := rfl
@[simp] theorem modFunc_ticking (s : State) (n : Nat) (f : Func → Func) : (s.modFunc n f).ticking = s.ticking := rfl
@[simp] theorem modFunc_edgesNow (s : State) (n : Nat) (f : Func → Func) : (s.modFunc n f).edgesNow = s.edgesNow := rfl
@[simp] theorem modFunc_turned (s : State) (n : Nat) (f : Func → Func) : (s.modFunc n f).turned = s.turned := rfl
@[simp] theorem modFunc_tiles (s : State) (n : Nat) (f : Func → Func) : (s.modFunc n f).tiles = s.tiles := rfl
@[simp] theorem modFunc_ecc (s : State) (n : Nat) (f : Func → Func) : (s.modFunc n f).ecc = s.ecc := rfl
@[simp] theorem modFunc_queues (s : State) (n : Nat) (f : Func → Func) : (s.modFunc n f).queues = s.queues := rfl
@[simp] theorem modFunc_targets (s : State) (n : Nat) (f : Func → Func) : (s.modFunc n f).targets = s.targets := rfl
@[simp] theorem modFunc_shared (s : State) (n : Nat) (f : Func → Func) : (s.modFunc n f).shared = s.shared := rfl
@[simp] theorem modFunc_ports (s : State) (n : Nat) (f : Func → Func) : (s.modFunc n f).ports = s.ports := rfl
@[simp] theorem modFunc_reads (s : State) (n : Nat) (f : Func → Func) : (s.modFunc n f).reads = s.reads := rfl
@[simp] theorem modFunc_nextRead (s : State) (n : Nat) (f : Func → Func) : (s.modFunc n f).nextRead = s.nextRead := rfl
@[simp] theorem modFunc_results (s : State) (n : Nat) (f : Func → Func) : (s.modFunc n f).results = s.results := rfl
@[simp] theorem modFunc_heldFinal (s : State) (n : Nat) (f : Func → Func) : (s.modFunc n f).heldFinal = s.heldFinal := rfl
@[simp] theorem modFunc_hostMem (s : State) (n : Nat) (f : Func → Func) : (s.modFunc n f).hostMem = s.hostMem := rfl
@[simp] theorem modFunc_hostFail (s : State) (n : Nat) (f : Func → Func) : (s.modFunc n f).hostFail = s.hostFail := rfl
@[simp] theorem modFunc_posted (s : State) (n : Nat) (f : Func → Func) : (s.modFunc n f).posted = s.posted := rfl

/-! ### modTarget -/

@[simp] theorem modTarget_target (s : State) (n m : Nat) (f : Target → Target) :
    (s.modTarget n f).target m = if m = n then f (s.target n) else s.target m := by
  simp [modTarget, target]
@[simp] theorem modTarget_pending (s : State) (n : Nat) (f : Target → Target) : (s.modTarget n f).pending = s.pending := rfl
@[simp] theorem modTarget_free (s : State) (n : Nat) (f : Target → Target) : (s.modTarget n f).free = s.free := rfl
@[simp] theorem modTarget_edges (s : State) (n : Nat) (f : Target → Target) : (s.modTarget n f).edges = s.edges := rfl
@[simp] theorem modTarget_pilot (s : State) (n : Nat) (f : Target → Target) : (s.modTarget n f).pilot = s.pilot := rfl
@[simp] theorem modTarget_pkg (s : State) (n : Nat) (f : Target → Target) : (s.modTarget n f).pkg = s.pkg := rfl
@[simp] theorem modTarget_die0 (s : State) (n : Nat) (f : Target → Target) : (s.modTarget n f).die0 = s.die0 := rfl
@[simp] theorem modTarget_die1 (s : State) (n : Nat) (f : Target → Target) : (s.modTarget n f).die1 = s.die1 := rfl
@[simp] theorem modTarget_regions (s : State) (n : Nat) (f : Target → Target) : (s.modTarget n f).regions = s.regions := rfl
@[simp] theorem modTarget_clusters (s : State) (n : Nat) (f : Target → Target) : (s.modTarget n f).clusters = s.clusters := rfl
@[simp] theorem modTarget_lanes (s : State) (n : Nat) (f : Target → Target) : (s.modTarget n f).lanes = s.lanes := rfl
@[simp] theorem modTarget_slots (s : State) (n : Nat) (f : Target → Target) : (s.modTarget n f).slots = s.slots := rfl
@[simp] theorem modTarget_chords (s : State) (n : Nat) (f : Target → Target) : (s.modTarget n f).chords = s.chords := rfl
@[simp] theorem modTarget_xfrs (s : State) (n : Nat) (f : Target → Target) : (s.modTarget n f).xfrs = s.xfrs := rfl
@[simp] theorem modTarget_meters (s : State) (n : Nat) (f : Target → Target) : (s.modTarget n f).meters = s.meters := rfl
@[simp] theorem modTarget_inputs (s : State) (n : Nat) (f : Target → Target) : (s.modTarget n f).inputs = s.inputs := rfl
@[simp] theorem modTarget_timers (s : State) (n : Nat) (f : Target → Target) : (s.modTarget n f).timers = s.timers := rfl
@[simp] theorem modTarget_fvRaw (s : State) (n : Nat) (f : Target → Target) : (s.modTarget n f).fvRaw = s.fvRaw := rfl
@[simp] theorem modTarget_fvCfg (s : State) (n : Nat) (f : Target → Target) : (s.modTarget n f).fvCfg = s.fvCfg := rfl
@[simp] theorem modTarget_pinPol (s : State) (n : Nat) (f : Target → Target) : (s.modTarget n f).pinPol = s.pinPol := rfl
@[simp] theorem modTarget_levels (s : State) (n : Nat) (f : Target → Target) : (s.modTarget n f).levels = s.levels := rfl
@[simp] theorem modTarget_ticking (s : State) (n : Nat) (f : Target → Target) : (s.modTarget n f).ticking = s.ticking := rfl
@[simp] theorem modTarget_edgesNow (s : State) (n : Nat) (f : Target → Target) : (s.modTarget n f).edgesNow = s.edgesNow := rfl
@[simp] theorem modTarget_turned (s : State) (n : Nat) (f : Target → Target) : (s.modTarget n f).turned = s.turned := rfl
@[simp] theorem modTarget_tiles (s : State) (n : Nat) (f : Target → Target) : (s.modTarget n f).tiles = s.tiles := rfl
@[simp] theorem modTarget_ecc (s : State) (n : Nat) (f : Target → Target) : (s.modTarget n f).ecc = s.ecc := rfl
@[simp] theorem modTarget_funcs (s : State) (n : Nat) (f : Target → Target) : (s.modTarget n f).funcs = s.funcs := rfl
@[simp] theorem modTarget_queues (s : State) (n : Nat) (f : Target → Target) : (s.modTarget n f).queues = s.queues := rfl
@[simp] theorem modTarget_shared (s : State) (n : Nat) (f : Target → Target) : (s.modTarget n f).shared = s.shared := rfl
@[simp] theorem modTarget_ports (s : State) (n : Nat) (f : Target → Target) : (s.modTarget n f).ports = s.ports := rfl
@[simp] theorem modTarget_reads (s : State) (n : Nat) (f : Target → Target) : (s.modTarget n f).reads = s.reads := rfl
@[simp] theorem modTarget_nextRead (s : State) (n : Nat) (f : Target → Target) : (s.modTarget n f).nextRead = s.nextRead := rfl
@[simp] theorem modTarget_results (s : State) (n : Nat) (f : Target → Target) : (s.modTarget n f).results = s.results := rfl
@[simp] theorem modTarget_heldFinal (s : State) (n : Nat) (f : Target → Target) : (s.modTarget n f).heldFinal = s.heldFinal := rfl
@[simp] theorem modTarget_hostMem (s : State) (n : Nat) (f : Target → Target) : (s.modTarget n f).hostMem = s.hostMem := rfl
@[simp] theorem modTarget_hostFail (s : State) (n : Nat) (f : Target → Target) : (s.modTarget n f).hostFail = s.hostFail := rfl
@[simp] theorem modTarget_posted (s : State) (n : Nat) (f : Target → Target) : (s.modTarget n f).posted = s.posted := rfl

/-! ### modSource -/

@[simp] theorem modSource_source (s : State) (n m : Nat) (f : Shared → Shared) :
    (s.modSource n f).source m = if m = n then f (s.source n) else s.source m := by
  simp [modSource, source]
@[simp] theorem modSource_pending (s : State) (n : Nat) (f : Shared → Shared) : (s.modSource n f).pending = s.pending := rfl
@[simp] theorem modSource_free (s : State) (n : Nat) (f : Shared → Shared) : (s.modSource n f).free = s.free := rfl
@[simp] theorem modSource_edges (s : State) (n : Nat) (f : Shared → Shared) : (s.modSource n f).edges = s.edges := rfl
@[simp] theorem modSource_pilot (s : State) (n : Nat) (f : Shared → Shared) : (s.modSource n f).pilot = s.pilot := rfl
@[simp] theorem modSource_pkg (s : State) (n : Nat) (f : Shared → Shared) : (s.modSource n f).pkg = s.pkg := rfl
@[simp] theorem modSource_die0 (s : State) (n : Nat) (f : Shared → Shared) : (s.modSource n f).die0 = s.die0 := rfl
@[simp] theorem modSource_die1 (s : State) (n : Nat) (f : Shared → Shared) : (s.modSource n f).die1 = s.die1 := rfl
@[simp] theorem modSource_regions (s : State) (n : Nat) (f : Shared → Shared) : (s.modSource n f).regions = s.regions := rfl
@[simp] theorem modSource_clusters (s : State) (n : Nat) (f : Shared → Shared) : (s.modSource n f).clusters = s.clusters := rfl
@[simp] theorem modSource_lanes (s : State) (n : Nat) (f : Shared → Shared) : (s.modSource n f).lanes = s.lanes := rfl
@[simp] theorem modSource_slots (s : State) (n : Nat) (f : Shared → Shared) : (s.modSource n f).slots = s.slots := rfl
@[simp] theorem modSource_chords (s : State) (n : Nat) (f : Shared → Shared) : (s.modSource n f).chords = s.chords := rfl
@[simp] theorem modSource_xfrs (s : State) (n : Nat) (f : Shared → Shared) : (s.modSource n f).xfrs = s.xfrs := rfl
@[simp] theorem modSource_meters (s : State) (n : Nat) (f : Shared → Shared) : (s.modSource n f).meters = s.meters := rfl
@[simp] theorem modSource_inputs (s : State) (n : Nat) (f : Shared → Shared) : (s.modSource n f).inputs = s.inputs := rfl
@[simp] theorem modSource_timers (s : State) (n : Nat) (f : Shared → Shared) : (s.modSource n f).timers = s.timers := rfl
@[simp] theorem modSource_fvRaw (s : State) (n : Nat) (f : Shared → Shared) : (s.modSource n f).fvRaw = s.fvRaw := rfl
@[simp] theorem modSource_fvCfg (s : State) (n : Nat) (f : Shared → Shared) : (s.modSource n f).fvCfg = s.fvCfg := rfl
@[simp] theorem modSource_pinPol (s : State) (n : Nat) (f : Shared → Shared) : (s.modSource n f).pinPol = s.pinPol := rfl
@[simp] theorem modSource_levels (s : State) (n : Nat) (f : Shared → Shared) : (s.modSource n f).levels = s.levels := rfl
@[simp] theorem modSource_ticking (s : State) (n : Nat) (f : Shared → Shared) : (s.modSource n f).ticking = s.ticking := rfl
@[simp] theorem modSource_edgesNow (s : State) (n : Nat) (f : Shared → Shared) : (s.modSource n f).edgesNow = s.edgesNow := rfl
@[simp] theorem modSource_turned (s : State) (n : Nat) (f : Shared → Shared) : (s.modSource n f).turned = s.turned := rfl
@[simp] theorem modSource_tiles (s : State) (n : Nat) (f : Shared → Shared) : (s.modSource n f).tiles = s.tiles := rfl
@[simp] theorem modSource_ecc (s : State) (n : Nat) (f : Shared → Shared) : (s.modSource n f).ecc = s.ecc := rfl
@[simp] theorem modSource_funcs (s : State) (n : Nat) (f : Shared → Shared) : (s.modSource n f).funcs = s.funcs := rfl
@[simp] theorem modSource_queues (s : State) (n : Nat) (f : Shared → Shared) : (s.modSource n f).queues = s.queues := rfl
@[simp] theorem modSource_targets (s : State) (n : Nat) (f : Shared → Shared) : (s.modSource n f).targets = s.targets := rfl
@[simp] theorem modSource_ports (s : State) (n : Nat) (f : Shared → Shared) : (s.modSource n f).ports = s.ports := rfl
@[simp] theorem modSource_reads (s : State) (n : Nat) (f : Shared → Shared) : (s.modSource n f).reads = s.reads := rfl
@[simp] theorem modSource_nextRead (s : State) (n : Nat) (f : Shared → Shared) : (s.modSource n f).nextRead = s.nextRead := rfl
@[simp] theorem modSource_results (s : State) (n : Nat) (f : Shared → Shared) : (s.modSource n f).results = s.results := rfl
@[simp] theorem modSource_heldFinal (s : State) (n : Nat) (f : Shared → Shared) : (s.modSource n f).heldFinal = s.heldFinal := rfl
@[simp] theorem modSource_hostMem (s : State) (n : Nat) (f : Shared → Shared) : (s.modSource n f).hostMem = s.hostMem := rfl
@[simp] theorem modSource_hostFail (s : State) (n : Nat) (f : Shared → Shared) : (s.modSource n f).hostFail = s.hostFail := rfl
@[simp] theorem modSource_posted (s : State) (n : Nat) (f : Shared → Shared) : (s.modSource n f).posted = s.posted := rfl

/-! ### modPort -/

@[simp] theorem modPort_port (s : State) (n m : Nat) (f : LinkPort → LinkPort) :
    (s.modPort n f).port m = if m = n then f (s.port n) else s.port m := by
  simp [modPort, port]
@[simp] theorem modPort_pending (s : State) (n : Nat) (f : LinkPort → LinkPort) : (s.modPort n f).pending = s.pending := rfl
@[simp] theorem modPort_free (s : State) (n : Nat) (f : LinkPort → LinkPort) : (s.modPort n f).free = s.free := rfl
@[simp] theorem modPort_edges (s : State) (n : Nat) (f : LinkPort → LinkPort) : (s.modPort n f).edges = s.edges := rfl
@[simp] theorem modPort_pilot (s : State) (n : Nat) (f : LinkPort → LinkPort) : (s.modPort n f).pilot = s.pilot := rfl
@[simp] theorem modPort_pkg (s : State) (n : Nat) (f : LinkPort → LinkPort) : (s.modPort n f).pkg = s.pkg := rfl
@[simp] theorem modPort_die0 (s : State) (n : Nat) (f : LinkPort → LinkPort) : (s.modPort n f).die0 = s.die0 := rfl
@[simp] theorem modPort_die1 (s : State) (n : Nat) (f : LinkPort → LinkPort) : (s.modPort n f).die1 = s.die1 := rfl
@[simp] theorem modPort_regions (s : State) (n : Nat) (f : LinkPort → LinkPort) : (s.modPort n f).regions = s.regions := rfl
@[simp] theorem modPort_clusters (s : State) (n : Nat) (f : LinkPort → LinkPort) : (s.modPort n f).clusters = s.clusters := rfl
@[simp] theorem modPort_lanes (s : State) (n : Nat) (f : LinkPort → LinkPort) : (s.modPort n f).lanes = s.lanes := rfl
@[simp] theorem modPort_slots (s : State) (n : Nat) (f : LinkPort → LinkPort) : (s.modPort n f).slots = s.slots := rfl
@[simp] theorem modPort_chords (s : State) (n : Nat) (f : LinkPort → LinkPort) : (s.modPort n f).chords = s.chords := rfl
@[simp] theorem modPort_xfrs (s : State) (n : Nat) (f : LinkPort → LinkPort) : (s.modPort n f).xfrs = s.xfrs := rfl
@[simp] theorem modPort_meters (s : State) (n : Nat) (f : LinkPort → LinkPort) : (s.modPort n f).meters = s.meters := rfl
@[simp] theorem modPort_inputs (s : State) (n : Nat) (f : LinkPort → LinkPort) : (s.modPort n f).inputs = s.inputs := rfl
@[simp] theorem modPort_timers (s : State) (n : Nat) (f : LinkPort → LinkPort) : (s.modPort n f).timers = s.timers := rfl
@[simp] theorem modPort_fvRaw (s : State) (n : Nat) (f : LinkPort → LinkPort) : (s.modPort n f).fvRaw = s.fvRaw := rfl
@[simp] theorem modPort_fvCfg (s : State) (n : Nat) (f : LinkPort → LinkPort) : (s.modPort n f).fvCfg = s.fvCfg := rfl
@[simp] theorem modPort_pinPol (s : State) (n : Nat) (f : LinkPort → LinkPort) : (s.modPort n f).pinPol = s.pinPol := rfl
@[simp] theorem modPort_levels (s : State) (n : Nat) (f : LinkPort → LinkPort) : (s.modPort n f).levels = s.levels := rfl
@[simp] theorem modPort_ticking (s : State) (n : Nat) (f : LinkPort → LinkPort) : (s.modPort n f).ticking = s.ticking := rfl
@[simp] theorem modPort_edgesNow (s : State) (n : Nat) (f : LinkPort → LinkPort) : (s.modPort n f).edgesNow = s.edgesNow := rfl
@[simp] theorem modPort_turned (s : State) (n : Nat) (f : LinkPort → LinkPort) : (s.modPort n f).turned = s.turned := rfl
@[simp] theorem modPort_tiles (s : State) (n : Nat) (f : LinkPort → LinkPort) : (s.modPort n f).tiles = s.tiles := rfl
@[simp] theorem modPort_ecc (s : State) (n : Nat) (f : LinkPort → LinkPort) : (s.modPort n f).ecc = s.ecc := rfl
@[simp] theorem modPort_funcs (s : State) (n : Nat) (f : LinkPort → LinkPort) : (s.modPort n f).funcs = s.funcs := rfl
@[simp] theorem modPort_queues (s : State) (n : Nat) (f : LinkPort → LinkPort) : (s.modPort n f).queues = s.queues := rfl
@[simp] theorem modPort_targets (s : State) (n : Nat) (f : LinkPort → LinkPort) : (s.modPort n f).targets = s.targets := rfl
@[simp] theorem modPort_shared (s : State) (n : Nat) (f : LinkPort → LinkPort) : (s.modPort n f).shared = s.shared := rfl
@[simp] theorem modPort_reads (s : State) (n : Nat) (f : LinkPort → LinkPort) : (s.modPort n f).reads = s.reads := rfl
@[simp] theorem modPort_nextRead (s : State) (n : Nat) (f : LinkPort → LinkPort) : (s.modPort n f).nextRead = s.nextRead := rfl
@[simp] theorem modPort_results (s : State) (n : Nat) (f : LinkPort → LinkPort) : (s.modPort n f).results = s.results := rfl
@[simp] theorem modPort_heldFinal (s : State) (n : Nat) (f : LinkPort → LinkPort) : (s.modPort n f).heldFinal = s.heldFinal := rfl
@[simp] theorem modPort_hostMem (s : State) (n : Nat) (f : LinkPort → LinkPort) : (s.modPort n f).hostMem = s.hostMem := rfl
@[simp] theorem modPort_hostFail (s : State) (n : Nat) (f : LinkPort → LinkPort) : (s.modPort n f).hostFail = s.hostFail := rfl
@[simp] theorem modPort_posted (s : State) (n : Nat) (f : LinkPort → LinkPort) : (s.modPort n f).posted = s.posted := rfl

/-! ### modPkg -/

@[simp] theorem modPkg_pkg (s : State) (f : Pkg → Pkg) : (s.modPkg f).pkg = f s.pkg := rfl
@[simp] theorem modPkg_pending (s : State) (f : Pkg → Pkg) : (s.modPkg f).pending = s.pending := rfl
@[simp] theorem modPkg_free (s : State) (f : Pkg → Pkg) : (s.modPkg f).free = s.free := rfl
@[simp] theorem modPkg_edges (s : State) (f : Pkg → Pkg) : (s.modPkg f).edges = s.edges := rfl
@[simp] theorem modPkg_pilot (s : State) (f : Pkg → Pkg) : (s.modPkg f).pilot = s.pilot := rfl
@[simp] theorem modPkg_die0 (s : State) (f : Pkg → Pkg) : (s.modPkg f).die0 = s.die0 := rfl
@[simp] theorem modPkg_die1 (s : State) (f : Pkg → Pkg) : (s.modPkg f).die1 = s.die1 := rfl
@[simp] theorem modPkg_regions (s : State) (f : Pkg → Pkg) : (s.modPkg f).regions = s.regions := rfl
@[simp] theorem modPkg_clusters (s : State) (f : Pkg → Pkg) : (s.modPkg f).clusters = s.clusters := rfl
@[simp] theorem modPkg_lanes (s : State) (f : Pkg → Pkg) : (s.modPkg f).lanes = s.lanes := rfl
@[simp] theorem modPkg_slots (s : State) (f : Pkg → Pkg) : (s.modPkg f).slots = s.slots := rfl
@[simp] theorem modPkg_chords (s : State) (f : Pkg → Pkg) : (s.modPkg f).chords = s.chords := rfl
@[simp] theorem modPkg_xfrs (s : State) (f : Pkg → Pkg) : (s.modPkg f).xfrs = s.xfrs := rfl
@[simp] theorem modPkg_meters (s : State) (f : Pkg → Pkg) : (s.modPkg f).meters = s.meters := rfl
@[simp] theorem modPkg_inputs (s : State) (f : Pkg → Pkg) : (s.modPkg f).inputs = s.inputs := rfl
@[simp] theorem modPkg_timers (s : State) (f : Pkg → Pkg) : (s.modPkg f).timers = s.timers := rfl
@[simp] theorem modPkg_fvRaw (s : State) (f : Pkg → Pkg) : (s.modPkg f).fvRaw = s.fvRaw := rfl
@[simp] theorem modPkg_fvCfg (s : State) (f : Pkg → Pkg) : (s.modPkg f).fvCfg = s.fvCfg := rfl
@[simp] theorem modPkg_pinPol (s : State) (f : Pkg → Pkg) : (s.modPkg f).pinPol = s.pinPol := rfl
@[simp] theorem modPkg_levels (s : State) (f : Pkg → Pkg) : (s.modPkg f).levels = s.levels := rfl
@[simp] theorem modPkg_ticking (s : State) (f : Pkg → Pkg) : (s.modPkg f).ticking = s.ticking := rfl
@[simp] theorem modPkg_edgesNow (s : State) (f : Pkg → Pkg) : (s.modPkg f).edgesNow = s.edgesNow := rfl
@[simp] theorem modPkg_turned (s : State) (f : Pkg → Pkg) : (s.modPkg f).turned = s.turned := rfl
@[simp] theorem modPkg_tiles (s : State) (f : Pkg → Pkg) : (s.modPkg f).tiles = s.tiles := rfl
@[simp] theorem modPkg_ecc (s : State) (f : Pkg → Pkg) : (s.modPkg f).ecc = s.ecc := rfl
@[simp] theorem modPkg_funcs (s : State) (f : Pkg → Pkg) : (s.modPkg f).funcs = s.funcs := rfl
@[simp] theorem modPkg_queues (s : State) (f : Pkg → Pkg) : (s.modPkg f).queues = s.queues := rfl
@[simp] theorem modPkg_targets (s : State) (f : Pkg → Pkg) : (s.modPkg f).targets = s.targets := rfl
@[simp] theorem modPkg_shared (s : State) (f : Pkg → Pkg) : (s.modPkg f).shared = s.shared := rfl
@[simp] theorem modPkg_ports (s : State) (f : Pkg → Pkg) : (s.modPkg f).ports = s.ports := rfl
@[simp] theorem modPkg_reads (s : State) (f : Pkg → Pkg) : (s.modPkg f).reads = s.reads := rfl
@[simp] theorem modPkg_nextRead (s : State) (f : Pkg → Pkg) : (s.modPkg f).nextRead = s.nextRead := rfl
@[simp] theorem modPkg_results (s : State) (f : Pkg → Pkg) : (s.modPkg f).results = s.results := rfl
@[simp] theorem modPkg_heldFinal (s : State) (f : Pkg → Pkg) : (s.modPkg f).heldFinal = s.heldFinal := rfl
@[simp] theorem modPkg_hostMem (s : State) (f : Pkg → Pkg) : (s.modPkg f).hostMem = s.hostMem := rfl
@[simp] theorem modPkg_hostFail (s : State) (f : Pkg → Pkg) : (s.modPkg f).hostFail = s.hostFail := rfl
@[simp] theorem modPkg_posted (s : State) (f : Pkg → Pkg) : (s.modPkg f).posted = s.posted := rfl

/-! ### modQueue -/

@[simp] theorem modQueue_pending (s : State) (f q : Nat) (g : Queue → Queue) : (s.modQueue f q g).pending = s.pending := rfl
@[simp] theorem modQueue_free (s : State) (f q : Nat) (g : Queue → Queue) : (s.modQueue f q g).free = s.free := rfl
@[simp] theorem modQueue_edges (s : State) (f q : Nat) (g : Queue → Queue) : (s.modQueue f q g).edges = s.edges := rfl
@[simp] theorem modQueue_pilot (s : State) (f q : Nat) (g : Queue → Queue) : (s.modQueue f q g).pilot = s.pilot := rfl
@[simp] theorem modQueue_pkg (s : State) (f q : Nat) (g : Queue → Queue) : (s.modQueue f q g).pkg = s.pkg := rfl
@[simp] theorem modQueue_die0 (s : State) (f q : Nat) (g : Queue → Queue) : (s.modQueue f q g).die0 = s.die0 := rfl
@[simp] theorem modQueue_die1 (s : State) (f q : Nat) (g : Queue → Queue) : (s.modQueue f q g).die1 = s.die1 := rfl
@[simp] theorem modQueue_regions (s : State) (f q : Nat) (g : Queue → Queue) : (s.modQueue f q g).regions = s.regions := rfl
@[simp] theorem modQueue_clusters (s : State) (f q : Nat) (g : Queue → Queue) : (s.modQueue f q g).clusters = s.clusters := rfl
@[simp] theorem modQueue_lanes (s : State) (f q : Nat) (g : Queue → Queue) : (s.modQueue f q g).lanes = s.lanes := rfl
@[simp] theorem modQueue_slots (s : State) (f q : Nat) (g : Queue → Queue) : (s.modQueue f q g).slots = s.slots := rfl
@[simp] theorem modQueue_chords (s : State) (f q : Nat) (g : Queue → Queue) : (s.modQueue f q g).chords = s.chords := rfl
@[simp] theorem modQueue_xfrs (s : State) (f q : Nat) (g : Queue → Queue) : (s.modQueue f q g).xfrs = s.xfrs := rfl
@[simp] theorem modQueue_meters (s : State) (f q : Nat) (g : Queue → Queue) : (s.modQueue f q g).meters = s.meters := rfl
@[simp] theorem modQueue_inputs (s : State) (f q : Nat) (g : Queue → Queue) : (s.modQueue f q g).inputs = s.inputs := rfl
@[simp] theorem modQueue_timers (s : State) (f q : Nat) (g : Queue → Queue) : (s.modQueue f q g).timers = s.timers := rfl
@[simp] theorem modQueue_fvRaw (s : State) (f q : Nat) (g : Queue → Queue) : (s.modQueue f q g).fvRaw = s.fvRaw := rfl
@[simp] theorem modQueue_fvCfg (s : State) (f q : Nat) (g : Queue → Queue) : (s.modQueue f q g).fvCfg = s.fvCfg := rfl
@[simp] theorem modQueue_pinPol (s : State) (f q : Nat) (g : Queue → Queue) : (s.modQueue f q g).pinPol = s.pinPol := rfl
@[simp] theorem modQueue_levels (s : State) (f q : Nat) (g : Queue → Queue) : (s.modQueue f q g).levels = s.levels := rfl
@[simp] theorem modQueue_ticking (s : State) (f q : Nat) (g : Queue → Queue) : (s.modQueue f q g).ticking = s.ticking := rfl
@[simp] theorem modQueue_edgesNow (s : State) (f q : Nat) (g : Queue → Queue) : (s.modQueue f q g).edgesNow = s.edgesNow := rfl
@[simp] theorem modQueue_turned (s : State) (f q : Nat) (g : Queue → Queue) : (s.modQueue f q g).turned = s.turned := rfl
@[simp] theorem modQueue_tiles (s : State) (f q : Nat) (g : Queue → Queue) : (s.modQueue f q g).tiles = s.tiles := rfl
@[simp] theorem modQueue_ecc (s : State) (f q : Nat) (g : Queue → Queue) : (s.modQueue f q g).ecc = s.ecc := rfl
@[simp] theorem modQueue_funcs (s : State) (f q : Nat) (g : Queue → Queue) : (s.modQueue f q g).funcs = s.funcs := rfl
@[simp] theorem modQueue_targets (s : State) (f q : Nat) (g : Queue → Queue) : (s.modQueue f q g).targets = s.targets := rfl
@[simp] theorem modQueue_shared (s : State) (f q : Nat) (g : Queue → Queue) : (s.modQueue f q g).shared = s.shared := rfl
@[simp] theorem modQueue_ports (s : State) (f q : Nat) (g : Queue → Queue) : (s.modQueue f q g).ports = s.ports := rfl
@[simp] theorem modQueue_reads (s : State) (f q : Nat) (g : Queue → Queue) : (s.modQueue f q g).reads = s.reads := rfl
@[simp] theorem modQueue_nextRead (s : State) (f q : Nat) (g : Queue → Queue) : (s.modQueue f q g).nextRead = s.nextRead := rfl
@[simp] theorem modQueue_results (s : State) (f q : Nat) (g : Queue → Queue) : (s.modQueue f q g).results = s.results := rfl
@[simp] theorem modQueue_heldFinal (s : State) (f q : Nat) (g : Queue → Queue) : (s.modQueue f q g).heldFinal = s.heldFinal := rfl
@[simp] theorem modQueue_hostMem (s : State) (f q : Nat) (g : Queue → Queue) : (s.modQueue f q g).hostMem = s.hostMem := rfl
@[simp] theorem modQueue_hostFail (s : State) (f q : Nat) (g : Queue → Queue) : (s.modQueue f q g).hostFail = s.hostFail := rfl
@[simp] theorem modQueue_posted (s : State) (f q : Nat) (g : Queue → Queue) : (s.modQueue f q g).posted = s.posted := rfl

/-! ### modDie -/

/-- The dies after a change of die `d`, which is die 0 or any other number for die 1. -/
@[simp] theorem modDie_die (s : State) (d e : Nat) (f : Die → Die) :
    (s.modDie d f).die e = if (e = 0) = (d = 0) then f (s.die d) else s.die e := by
  by_cases h : d = 0 <;> by_cases h' : e = 0 <;> simp [modDie, setDie, die, h, h']
@[simp] theorem modDie_pending (s : State) (d : Nat) (f : Die → Die) : (s.modDie d f).pending = s.pending := by
  simp only [modDie, setDie]; split <;> rfl
@[simp] theorem modDie_free (s : State) (d : Nat) (f : Die → Die) : (s.modDie d f).free = s.free := by
  simp only [modDie, setDie]; split <;> rfl
@[simp] theorem modDie_edges (s : State) (d : Nat) (f : Die → Die) : (s.modDie d f).edges = s.edges := by
  simp only [modDie, setDie]; split <;> rfl
@[simp] theorem modDie_pilot (s : State) (d : Nat) (f : Die → Die) : (s.modDie d f).pilot = s.pilot := by
  simp only [modDie, setDie]; split <;> rfl
@[simp] theorem modDie_pkg (s : State) (d : Nat) (f : Die → Die) : (s.modDie d f).pkg = s.pkg := by
  simp only [modDie, setDie]; split <;> rfl
@[simp] theorem modDie_regions (s : State) (d : Nat) (f : Die → Die) : (s.modDie d f).regions = s.regions := by
  simp only [modDie, setDie]; split <;> rfl
@[simp] theorem modDie_clusters (s : State) (d : Nat) (f : Die → Die) : (s.modDie d f).clusters = s.clusters := by
  simp only [modDie, setDie]; split <;> rfl
@[simp] theorem modDie_lanes (s : State) (d : Nat) (f : Die → Die) : (s.modDie d f).lanes = s.lanes := by
  simp only [modDie, setDie]; split <;> rfl
@[simp] theorem modDie_slots (s : State) (d : Nat) (f : Die → Die) : (s.modDie d f).slots = s.slots := by
  simp only [modDie, setDie]; split <;> rfl
@[simp] theorem modDie_chords (s : State) (d : Nat) (f : Die → Die) : (s.modDie d f).chords = s.chords := by
  simp only [modDie, setDie]; split <;> rfl
@[simp] theorem modDie_xfrs (s : State) (d : Nat) (f : Die → Die) : (s.modDie d f).xfrs = s.xfrs := by
  simp only [modDie, setDie]; split <;> rfl
@[simp] theorem modDie_meters (s : State) (d : Nat) (f : Die → Die) : (s.modDie d f).meters = s.meters := by
  simp only [modDie, setDie]; split <;> rfl
@[simp] theorem modDie_inputs (s : State) (d : Nat) (f : Die → Die) : (s.modDie d f).inputs = s.inputs := by
  simp only [modDie, setDie]; split <;> rfl
@[simp] theorem modDie_timers (s : State) (d : Nat) (f : Die → Die) : (s.modDie d f).timers = s.timers := by
  simp only [modDie, setDie]; split <;> rfl
@[simp] theorem modDie_fvRaw (s : State) (d : Nat) (f : Die → Die) : (s.modDie d f).fvRaw = s.fvRaw := by
  simp only [modDie, setDie]; split <;> rfl
@[simp] theorem modDie_fvCfg (s : State) (d : Nat) (f : Die → Die) : (s.modDie d f).fvCfg = s.fvCfg := by
  simp only [modDie, setDie]; split <;> rfl
@[simp] theorem modDie_pinPol (s : State) (d : Nat) (f : Die → Die) : (s.modDie d f).pinPol = s.pinPol := by
  simp only [modDie, setDie]; split <;> rfl
@[simp] theorem modDie_levels (s : State) (d : Nat) (f : Die → Die) : (s.modDie d f).levels = s.levels := by
  simp only [modDie, setDie]; split <;> rfl
@[simp] theorem modDie_ticking (s : State) (d : Nat) (f : Die → Die) : (s.modDie d f).ticking = s.ticking := by
  simp only [modDie, setDie]; split <;> rfl
@[simp] theorem modDie_edgesNow (s : State) (d : Nat) (f : Die → Die) : (s.modDie d f).edgesNow = s.edgesNow := by
  simp only [modDie, setDie]; split <;> rfl
@[simp] theorem modDie_turned (s : State) (d : Nat) (f : Die → Die) : (s.modDie d f).turned = s.turned := by
  simp only [modDie, setDie]; split <;> rfl
@[simp] theorem modDie_tiles (s : State) (d : Nat) (f : Die → Die) : (s.modDie d f).tiles = s.tiles := by
  simp only [modDie, setDie]; split <;> rfl
@[simp] theorem modDie_ecc (s : State) (d : Nat) (f : Die → Die) : (s.modDie d f).ecc = s.ecc := by
  simp only [modDie, setDie]; split <;> rfl
@[simp] theorem modDie_funcs (s : State) (d : Nat) (f : Die → Die) : (s.modDie d f).funcs = s.funcs := by
  simp only [modDie, setDie]; split <;> rfl
@[simp] theorem modDie_queues (s : State) (d : Nat) (f : Die → Die) : (s.modDie d f).queues = s.queues := by
  simp only [modDie, setDie]; split <;> rfl
@[simp] theorem modDie_targets (s : State) (d : Nat) (f : Die → Die) : (s.modDie d f).targets = s.targets := by
  simp only [modDie, setDie]; split <;> rfl
@[simp] theorem modDie_shared (s : State) (d : Nat) (f : Die → Die) : (s.modDie d f).shared = s.shared := by
  simp only [modDie, setDie]; split <;> rfl
@[simp] theorem modDie_ports (s : State) (d : Nat) (f : Die → Die) : (s.modDie d f).ports = s.ports := by
  simp only [modDie, setDie]; split <;> rfl
@[simp] theorem modDie_reads (s : State) (d : Nat) (f : Die → Die) : (s.modDie d f).reads = s.reads := by
  simp only [modDie, setDie]; split <;> rfl
@[simp] theorem modDie_nextRead (s : State) (d : Nat) (f : Die → Die) : (s.modDie d f).nextRead = s.nextRead := by
  simp only [modDie, setDie]; split <;> rfl
@[simp] theorem modDie_results (s : State) (d : Nat) (f : Die → Die) : (s.modDie d f).results = s.results := by
  simp only [modDie, setDie]; split <;> rfl
@[simp] theorem modDie_heldFinal (s : State) (d : Nat) (f : Die → Die) : (s.modDie d f).heldFinal = s.heldFinal := by
  simp only [modDie, setDie]; split <;> rfl
@[simp] theorem modDie_hostMem (s : State) (d : Nat) (f : Die → Die) : (s.modDie d f).hostMem = s.hostMem := by
  simp only [modDie, setDie]; split <;> rfl
@[simp] theorem modDie_hostFail (s : State) (d : Nat) (f : Die → Die) : (s.modDie d f).hostFail = s.hostFail := by
  simp only [modDie, setDie]; split <;> rfl
@[simp] theorem modDie_posted (s : State) (d : Nat) (f : Die → Die) : (s.modDie d f).posted = s.posted := by
  simp only [modDie, setDie]; split <;> rfl

end State

/-! ### settle -/

@[simp] theorem settle_pending (s t : State) : (settle s t).pending = s.pending := rfl
@[simp] theorem settle_free (s t : State) : (settle s t).free = t.free := rfl
@[simp] theorem settle_edges (s t : State) : (settle s t).edges = s.edges := rfl
@[simp] theorem settle_pilot (s t : State) : (settle s t).pilot = t.pilot := rfl
@[simp] theorem settle_regions (s t : State) : (settle s t).regions = t.regions := rfl
@[simp] theorem settle_clusters (s t : State) : (settle s t).clusters = t.clusters := rfl
@[simp] theorem settle_lanes (s t : State) : (settle s t).lanes = t.lanes := rfl
@[simp] theorem settle_slots (s t : State) : (settle s t).slots = t.slots := rfl
@[simp] theorem settle_chords (s t : State) : (settle s t).chords = t.chords := rfl
@[simp] theorem settle_xfrs (s t : State) : (settle s t).xfrs = t.xfrs := rfl
@[simp] theorem settle_meters (s t : State) : (settle s t).meters = t.meters := rfl
@[simp] theorem settle_inputs (s t : State) : (settle s t).inputs = t.inputs := rfl
@[simp] theorem settle_timers (s t : State) : (settle s t).timers = t.timers := rfl
@[simp] theorem settle_fvRaw (s t : State) : (settle s t).fvRaw = t.fvRaw := rfl
@[simp] theorem settle_fvCfg (s t : State) : (settle s t).fvCfg = t.fvCfg := rfl
@[simp] theorem settle_pinPol (s t : State) : (settle s t).pinPol = t.pinPol := rfl
@[simp] theorem settle_levels (s t : State) : (settle s t).levels = t.levels := rfl
@[simp] theorem settle_ticking (s t : State) : (settle s t).ticking = t.ticking := rfl
@[simp] theorem settle_edgesNow (s t : State) : (settle s t).edgesNow = t.edgesNow := rfl
@[simp] theorem settle_turned (s t : State) : (settle s t).turned = t.turned := rfl
@[simp] theorem settle_tiles (s t : State) : (settle s t).tiles = t.tiles := rfl
@[simp] theorem settle_ecc (s t : State) : (settle s t).ecc = t.ecc := rfl
@[simp] theorem settle_funcs (s t : State) : (settle s t).funcs = t.funcs := rfl
@[simp] theorem settle_queues (s t : State) : (settle s t).queues = t.queues := rfl
@[simp] theorem settle_targets (s t : State) : (settle s t).targets = t.targets := rfl
@[simp] theorem settle_shared (s t : State) : (settle s t).shared = t.shared := rfl
@[simp] theorem settle_ports (s t : State) : (settle s t).ports = t.ports := rfl
@[simp] theorem settle_reads (s t : State) : (settle s t).reads = t.reads := rfl
@[simp] theorem settle_nextRead (s t : State) : (settle s t).nextRead = t.nextRead := rfl
@[simp] theorem settle_results (s t : State) : (settle s t).results = t.results := rfl
@[simp] theorem settle_heldFinal (s t : State) : (settle s t).heldFinal = t.heldFinal := rfl
@[simp] theorem settle_hostMem (s t : State) : (settle s t).hostMem = t.hostMem := rfl
@[simp] theorem settle_hostFail (s t : State) : (settle s t).hostFail = t.hostFail := rfl
@[simp] theorem settle_posted (s t : State) : (settle s t).posted = t.posted := rfl
@[simp] theorem settle_pkg_sysId (s t : State) : (settle s t).pkg.sysId = s.pkg.sysId := rfl
@[simp] theorem settle_pkg_standby (s t : State) : (settle s t).pkg.standby = s.pkg.standby := rfl
@[simp] theorem settle_pkg_tiebreak (s t : State) : (settle s t).pkg.tiebreak = s.pkg.tiebreak := rfl
@[simp] theorem settle_die0_otp_inForce (s t : State) : (settle s t).die0.otp.inForce = s.die0.otp.inForce := rfl
@[simp] theorem settle_die0_otp_skipped (s t : State) : (settle s t).die0.otp.skipped = s.die0.otp.skipped := rfl
@[simp] theorem settle_die1_otp_inForce (s t : State) : (settle s t).die1.otp.inForce = s.die1.otp.inForce := rfl
@[simp] theorem settle_die1_otp_skipped (s t : State) : (settle s t).die1.otp.skipped = s.die1.otp.skipped := rfl
@[simp] theorem settle_region (s t : State) (n : Nat) : (settle s t).region n = t.region n := rfl
@[simp] theorem settle_cluster (s t : State) (n : Nat) : (settle s t).cluster n = t.cluster n := rfl
@[simp] theorem settle_lane (s t : State) (n : Nat) : (settle s t).lane n = t.lane n := rfl
@[simp] theorem settle_slot (s t : State) (n : Nat) : (settle s t).slot n = t.slot n := rfl
@[simp] theorem settle_chord (s t : State) (n : Nat) : (settle s t).chord n = t.chord n := rfl
@[simp] theorem settle_xfr (s t : State) (n : Nat) : (settle s t).xfr n = t.xfr n := rfl
@[simp] theorem settle_meter (s t : State) (n : Nat) : (settle s t).meter n = t.meter n := rfl
@[simp] theorem settle_input (s t : State) (n : Nat) : (settle s t).input n = t.input n := rfl
@[simp] theorem settle_timer (s t : State) (n : Nat) : (settle s t).timer n = t.timer n := rfl
@[simp] theorem settle_tile (s t : State) (n : Nat) : (settle s t).tile n = t.tile n := rfl
@[simp] theorem settle_func (s t : State) (n : Nat) : (settle s t).func n = t.func n := rfl
@[simp] theorem settle_target (s t : State) (n : Nat) : (settle s t).target n = t.target n := rfl
@[simp] theorem settle_source (s t : State) (n : Nat) : (settle s t).source n = t.source n := rfl
@[simp] theorem settle_port (s t : State) (n : Nat) : (settle s t).port n = t.port n := rfl
@[simp] theorem settle_level (s t : State) (n : Nat) : (settle s t).level n = t.level n := rfl
@[simp] theorem settle_queue (s t : State) (f q : Nat) : (settle s t).queue f q = t.queue f q := rfl
/-- A state that keeps what a command keeps is not changed by `settle`. -/
theorem settle_eq (s t : State) (h1 : t.pending = s.pending) (h2 : t.edges = s.edges) (h3 : t.pkg.sysId = s.pkg.sysId)
    (h4 : t.pkg.standby = s.pkg.standby) (h5 : t.pkg.tiebreak = s.pkg.tiebreak) (h6 : t.die0.otp.inForce = s.die0.otp.inForce)
    (h7 : t.die0.otp.skipped = s.die0.otp.skipped) (h8 : t.die1.otp.inForce = s.die1.otp.inForce)
    (h9 : t.die1.otp.skipped = s.die1.otp.skipped) : settle s t = t := by
  simp only [settle, ← h1, ← h2, ← h3, ← h4, ← h5, ← h6, ← h7, ← h8, ← h9]

end Sys2Proof.Machine
end

