-- ==== Sys2Proof/Safety.lean ====
section
/-! DEFINITION. What a safe run is, in the terms statements use: every step answers a next state, the memories keep their canonical
form, and what only a cold reset may change stays. -/

namespace Sys2Proof.Machine

/-- A step answers a next state. -/
def stepRuns (s : State) : Prop := ∃ t, step s = .next t

/-- Every memory of the machine is in its canonical form: host memory, region SRAM, and the steward pairs' two spaces. -/
def State.memoriesWf (s : State) : Bool :=
  memWf s.hostMem && s.regions.all (fun e => memWf e.2.sram) && memWf s.die0.stw.core.iram && memWf s.die0.stw.core.dram &&
  memWf s.die1.stw.core.iram && memWf s.die1.stw.core.dram

/-- The straps (R473) and the OTP generation in force on both dies (R484) are the same in two states. -/
def sameIdentity (s t : State) : Prop :=
  t.pkg.sysId = s.pkg.sysId ∧ t.pkg.standby = s.pkg.standby ∧ t.pkg.tiebreak = s.pkg.tiebreak ∧
  t.die0.otp.inForce = s.die0.otp.inForce ∧ t.die0.otp.skipped = s.die0.otp.skipped ∧
  t.die1.otp.inForce = s.die1.otp.inForce ∧ t.die1.otp.skipped = s.die1.otp.skipped

/-- The command is a cold reset. -/
def isColdReset : Instr → Bool
  | .coldReset _ _ => true
  | _ => false

end Sys2Proof.Machine
end

