-- ==== Sys2Proof/Certificates/Slice0/Obligations.lean ====
section
/-! DEFINITION. The statements about the model, for the provers, and the predicates they are written in. -/

namespace Sys2Proof.Machine.Claims

/-! ### Words the statements share -/

/-- The state in which the sequencer of slot `n` has taken its turn: the round of its cluster has gone on to it, and nothing else has
changed (R125). -/
def turn (s : State) (n : Nat) : State := (takesTurn s n).getD s

/-- The states differ in the program slots and the outstanding host reads alone. -/
def OnlySlots (s t : State) : Prop := t = { s with slots := t.slots, reads := t.reads }

/-- CCW `c` at address `a` stands ready in slot `n`, whose turn it is in the round of its cluster (R125), with no fetch error
and no PAUSE to honour (R96), and passes the checks 1 to 3 of R77. -/
def Stands (s : State) (n : Nat) (c : Ccw) (a : DWord) : Prop :=
  n < 2048 ∧ (takesTurn s n).isSome = true ∧ ∃ e, readyCcw s n = some e ∧ e.fail = none ∧ ccwOf e.bytes = c ∧ e.addr = a ∧
    (pauseOf c.flags && (s.slot n).honour) = false ∧ ccwForm c = none

/-- The state in which the CCW executes: it has left the buffer, and its slot knows its address and flags. -/
def taken (s : State) (n : Nat) (c : Ccw) (a : DWord) : State :=
  (turn s n).modSlot n (fun x => { x with ccw := a, begun := a, flags := w8 c.flags, buf := x.buf.tail, jumped := none })

/-- The chain of slot `n` goes on by NEXT with no status post and no halt in its way (R93, R97, R135). -/
def GoesOn (s : State) (n : Nat) (c : Ccw) : Prop := noteOf c.flags = false ∧ nextOf c.flags = true ∧ (s.slot n).halt = none

/-- Slot `n` has gone on from the CCW at `a` to address `next`; no other slot, and nothing but slots, reads and the round of the cluster,
has changed. -/
def ChainsTo (s t : State) (n : Nat) (c : Ccw) (a next : DWord) (f : Slot → Slot) : Prop :=
  OnlySlots (turn s n) t ∧ (∀ m, m ≠ n → t.slot m = s.slot m) ∧
  t.slot n = f { s.slot n with
    ccw := a, begun := a, flags := w8 c.flags, last := a, exec := none, wait := none, st := .active, pc := next
    buf := keepFrom next (s.slot n).buf.tail, honour := true, jumped := none }

/-- The local lane command `c` begins with the lanes that its LANE field names: its own rules hold, the first checks of its data
pass and leave state `u`, and the CCW is the first part `w` of its data. -/
def LaneBegins (s u : State) (n : Nat) (c : Ccw) (a : DWord) (lf : LaneField) (w : Walk) : Prop :=
  let op := opOf c.cmd
  let v := taken s n c a
  let wlen := if op = .xact then fld c.target 0 8 else 0
  Stands s n c a ∧ laneField v (v.slot n).fn c.lane = .inr lf ∧ lf.device = 0 ∧
  ((op = .write && lf.isSet) || (op = .gang && !lf.isSet)) = false ∧ (op = .control && 16 < c.count) = false ∧
  (op = .read && dropOf c.flags && c.addr != 0) = false ∧
  formFails v op c.count c.target (spanOf c.flags) (lf.lanes.filter (fun l => !laneGone v l)) = none ∧
  partData v (partyOf v n) (listOf c.flags) c.addr (sendBytes op c.count wlen)
    (if dropOf c.flags then 0 else storeBytes op c.count wlen lf.lanes.length) = (w, none, u)

/-- The command as it then stands in its slot (R94, R107), with `out` the parameters of a CONTROL. -/
def begunExec (c : Ccw) (a : DWord) (lf : LaneField) (w : Walk) (out : List Byte) : Exec :=
  { code := w8 c.cmd, op := opOf c.cmd, parts := [⟨a, w8 c.flags, c.count, w.pieces, w.fail⟩]
    wlen := if opOf c.cmd = .xact then fld c.target 0 8 else 0, target := w16 c.target, device := lf.device, isSet := lf.isSet
    members := lf.lanes, out := out }

/-- The state after a lane command has begun: it stands in its slot, and its members begin at their lanes in position order (R107). -/
def begun (s : State) (n : Nat) (c : Ccw) (a : DWord) (lf : LaneField) (w : Walk) (out : List Byte) : State :=
  membersBegin n (begunExec c a lf w out) c.count (spanOf c.flags) (s.modSlot n (fun x => { x with exec := some (begunExec c a lf w out) }))
    (enumL 0 lf.lanes)

/-! ### Requests -/

/-- Request `r` is the one that takes effect next at source `src`, which takes its opcode `op` (R263, R265, R272, R280, R283). -/
def Asks (s : State) (src : EntrySrc) (op : Nat) (r : Req) : Prop :=
  src.ok = true ∧ nextReq s src = some r ∧ eOpcode r.bytes = op ∧ opAccepted src op = true

/-- The tag of a request. -/
def tagOf (r : Req) : Half := w16 (eTag r.bytes)

/-- The program that a START places (R119, R142, R280, R281): its chain and body tile. A program of a queue that is being destroyed
is to be halted (R278). -/
def startProg (s : State) (r : Req) (chain : DWord) (body : Option Nat) : Prog :=
  { owner := .entry r.src r.idx, fn := r.fn, tag := tagOf r, gen := tagGen s r.fn (tagOf r) + 1, chain := chain, status := w64 (eB r.bytes)
    body := body, enforce := wb s.pkg.enforce r.fn
    halt := match r.src with
      | .queue f q => if (s.queue f q).st = .destroying then some haltProgramReason else none
      | _ => none
    order := fetchOrder s r }

/-- A START has taken its GEN and put its tag into quarantine (R141, R142). -/
def startTagged (s : State) (r : Req) : State :=
  tookEffect (s.modFunc r.fn (fun x => { x with
    gens := tset 0 x.gens (tagOf r).toNat (tagGen s r.fn (tagOf r) + 1), quar := x.quar ++ [⟨tagOf r, r.src, r.idx⟩] })) r

/-- A START that passes its checks for home cluster `c` (R280, R281): its fields, its tag, its half and its list. -/
def StartOk (s : State) (src : EntrySrc) (r : Req) (c : Nat) : Prop :=
  Asks s src 0x01 r ∧ par r 0 5 = c ∧ fieldsOk r 0x1F true true false 32 32 = true ∧ eB r.bytes % 32 = 0 ∧
  (s.func r.fn).quar.any (fun e => e.tag = tagOf r) = false ∧ mustWait s r (c / 16) = false ∧ listLength s c < 256

/-- The checks of an ARM-CHORD for chord `c` whose record is `rec'` (R213); `u` is the state once the record has been read. -/
def ArmOk (s u : State) (src : EntrySrc) (r : Req) (c : Nat) (rec' : List Byte) : Prop :=
  Asks s src 0x04 r ∧ par r 0 12 = c ∧ fieldsOk r 0xFFF true false false 32 32 = true ∧
  (if eA r.bytes = 0 then r.variable_ = true ∧ 3 ≤ eLen r.bytes ∧ r.body.take 128 = rec' ∧ u = s
   else eA r.bytes % 16 = 0 ∧ reqGet s r (eA r.bytes) 128 = (.ok rec', u)) ∧
  mustWait s r (chordDie c) = false ∧ isLost s (chordDie c) = false ∧ (s.chord c).unit ≠ .retired ∧ (s.chord c).unit ≠ .resetting ∧
  chordOpen s r.fn c = true ∧ recordOk u r.fn rec' = true ∧
  recordNames u rec' = true ∧ (recClaims rec').all (fun e => claimSuits u rec' e.1 e.2) = true ∧
  (recPersist rec' && !hasCap u r.fn 0) = false ∧ chainOk u r.fn c (recChain rec') = true

/-- Request `r` of opcode `op`, which an admin command needs, has its unused fields 0 and the right it needs (R257, R267). -/
def AdminAsks (s : State) (src : EntrySrc) (op : Nat) (r : Req) (fields right : Bool) : Prop :=
  Asks s src op r ∧ fields = true ∧ right = true

/-- A generation for OTP-COMMIT passes its checks against each half that is there, and each has an unused place (R485). -/
def CommitOk (s u : State) (src : EntrySrc) (r : Req) (g : List Byte) : Prop :=
  AdminAsks s src 0x89 r (fieldsOk r 0 false false true 32 32) (isPrimary r) ∧ s.pkg.split = false ∧ mustWait s r (1 - reqDie r) = false ∧
  streamOf s r 384 = (.inr g, u) ∧ 384 ≤ g.length ∧
  (∀ d, d < 2 → isLost u d = false → generationOk (u.die d).otp g = true ∧ gensUnused (u.die d).otp ≠ [])

/-- Half `d`, where it is there, has programmed the generation into place `k` (R485). -/
def otpDone (s : State) (d : Nat) (g : List Byte) (verify : List Bool) : Nat × State :=
  if isLost s d then (0, s)
  else
    let p := otpProgram g (gensUnused (s.die d).otp) verify (s.die d).otp
    (p.1, s.modDie d (fun x => { x with otp := p.2 }))

/-- A POLICY-CONTROL of action `k` on context `c` of die `d`, which holds a policy (R382). -/
def PolicyAsks (s : State) (src : EntrySrc) (r : Req) (k d c : Nat) : Prop :=
  AdminAsks s src 0x8C r (fieldsOk r 0x3F false false false 32 32) (hasCap s r.fn 4) ∧ par r 4 2 = k ∧ par r 0 1 = d ∧ par r 1 3 = c ∧
  mustWait s r d = false ∧ isLost s d = false ∧ (k ≠ 3 → (userCtx (s.die d).stw.core c).st ≠ .empty)

/-- The completion of a POLICY-CONTROL: the context's state in RESULT (R382, R386). -/
def policyDone (s : State) (r : Req) (d c : Nat) : State :=
  replyWith s r ccSuccess 0 [w8 (ctxCode (userCtx (s.die d).stw.core c).st)]

/-- A LINK-CONFIG of action `k` (R440, R451, R454). -/
def LinkAsks (s : State) (src : EntrySrc) (r : Req) (k pmask : Nat) (stream : Bool) : Prop :=
  AdminAsks s src 0x8E r (fieldsOk r pmask false false stream 32 32) (isPrimary r) ∧ par r 0 8 = k

/-- A TWIN-CONFIG or an UNTWIN whose two lanes exist, lie on different dies and may be acted on now (R37, R398). -/
def TwinAsks (s : State) (src : EntrySrc) (r : Req) (pmask l t : Nat) : Prop :=
  AdminAsks s src 0x8F r (fieldsOk r pmask false false false 32 32) (isPrimary r) ∧ par r 0 9 = l ∧ par r 9 9 = t ∧
  noLane s l = false ∧ noLane s t = false ∧ laneDie l ≠ laneDie t ∧ twinWaits s r l t = false

/-- The queue with a fetched entry in flight, its place among the work orders fetched and its tick (R22, R271, R272, R287). -/
def inFlight (x : Queue) (e body : List Byte) (len order tick : Nat) : Queue :=
  { x with flight := x.flight ++ [{ order := order, tick := tick, idx := x.fetch, len := len, bytes := e, body := body, effect := false, done := false }]
           fetch := (x.fetch + len) % 2 ^ x.sizeLog2 }

/-- EVC_HEAD moves to `h`: the records before it are consumed (R302). -/
def headAt (h : Nat) (x : Target) : Target := { x with head := h, unread := x.unread.drop ((h + 2 ^ x.sizeLog2 - x.head) % 2 ^ x.sizeLog2) }

/-- The record of occurrence `o` of source `n` stands in the ring of target `t`; the ring's index, phase and SEQ have gone on and the
group counts it (R300, R302–R304). -/
def recordStands (u : State) (t n : Nat) (g : Target) (o : Occ) : State :=
  let tail := (g.tail + 1) % 2 ^ g.sizeLog2
  (ringWrite u t (recordBytes g n o)).modTarget t (fun x => { x with
    tail := tail, phase := if tail = 0 then !x.phase else x.phase, seq := x.seq + 1
    unread := x.unread ++ [n / 16], wroteAt := some (ringWrite u t (recordBytes g n o)).edges
    paces := tset {} x.paces (n / 16) { tget {} x.paces (n / 16) with
      count := (tget {} x.paces (n / 16)).count + 1
      since := match (tget {} x.paces (n / 16)).since with | some b => some b | none => some (ringWrite u t (recordBytes g n o)).edges } })

/-- The sequencer of slot `n` may read ahead at address `a` (R126, R127). -/
def Fetches (s : State) (n : Nat) (a : DWord) : Prop :=
  n < 2048 ∧ ((s.slot n).st = .active ∨ (s.slot n).st = .waiting) ∧ (s.slot n).ended = none ∧ (s.region (slotServer s n / 4)).power = .run ∧
  (s.region (slotServer s n / 4)).inReset = false ∧ dieUp s (slotServer s n / 16) = true ∧
  s.reads.any (fun q => q.slot = n && readMatches s q && !q.void) = false ∧
  prefetchAt (s.slot n) = some a ∧ a.toNat % 16 = 0

/-- What a successful read of host memory says the memory holds (R144). -/
def hostKnown (s : State) (a : DWord) (data : List Byte) : State :=
  { s with hostMem := memWrite s.hostMem a.toNat data
           hostFail := s.hostFail.filter (fun r => !(r.1 < a.toNat + data.length && a.toNat < r.1 + r.2)) }

/-- The result of a member that ended with DEVICE STATUS `dev` and the failure `f` (R115–R117, R140). -/
def memberRes (c : LaneCmd) (dev : Half) (f : Option Fail) (resid : Nat) (recv : List Byte) : MemberRes :=
  { pos := c.pos, dev := dev, chan := match f with | some f => f.1 | none => 0, reason := match f with | some f => f.2 | none => 0
    resid := if c.op = .control then 0 else resid, recv := recv, cut := c.cut }

/-- DEVICE STATUS of a command that its lane's timeout ends: class 8 at the byte reached (R117). -/
def timeoutAt (l : Lane) (c : LaneCmd) (sent : Nat) (recv : List Byte) : Half :=
  devStatus 8 (BitVec.ofNat 12 (cutSent l c sent + c.got + (endBytes l c recv).1.length))

/-- The running command `c` of lane `n` is cut with what it moved, what it put on the bus followed by `tail`, and the commands that wait
there follow (R90, R134, R188). -/
def cutThenNext (s : State) (n : Nat) (c : LaneCmd) (f : Option Fail) (dev : Half) (errs sent : Nat) (recv : List Byte) (tail : List Wire) :
    State :=
  let l := s.lane n
  let out := cutSent l c sent
  let (got, l') := endBytes l c recv
  let put_ := if l.begun then commandWire l c { cls := 9, sent := out, recv := c.seen ++ got, cont := l.held.isSome, closed := false } else []
  laneNext (laneDone portPw (some (c, memberRes c dev f (c.count - (out + c.got + got.length)) got),
    txnOver (s.modLane n (fun _ => { l' with wire := put_ ++ tail })) n { c with target := put c.target 14 1 0 } dev errs) n) n

/-- The transaction of command `c` on lane `n` ends with class `cls` at byte `at_`, with `sent` bytes sent and `recv` received since the last
piece; the lane is `l` with the class's LANE_ERR bits set and what went over the bus, and what waits there follows. -/
def EndsWith (s : State) (n : Nat) (r : BusResult) (c : LaneCmd) (cls at_ sent : Nat) (recv : List Byte) (l : Lane) : Prop :=
  let p := personality (s.lane n)
  let dev := if cls = 0 then 0 else devStatus (BitVec.ofNat 4 cls) (BitVec.ofNat 12 at_)
  let errs := classErr p cls + (if r.recovered ∨ (cls = 0 ∧ c.op = .control ∧ c.target = 1) then 0x100 else 0)
  let t := s.modLane n (fun _ => { l with wire := endWire (s.lane n) c r recv (cls = 0 && cmdHolds p c) })
  exec (.laneTransactionEnd n r) s = .next (settle s (laneDone portPw
    (some (c, memberRes c dev (classFail (BitVec.ofNat 4 cls)) (c.count - (sent + c.got + recv.length)) recv),
      laneNext (txnOver t n c dev errs) n) n))

/-! ### The steward -/

/-- The pair of die `d` is about to issue a bundle of context `c`; `t` is the state once the results due have landed (R360, R365). -/
def Fetching (s : State) (d c : Nat) (t : State) : Prop :=
  pairRuns s d = true ∧ c = (coreOf (schedule s d) d).running ∧ c ≠ 15 ∧ wb (coreOf (schedule s d) d).units.ctl 5 = false ∧
  ((isUser c && 1024 ≤ ((schedule s d).die d).stw.slice && (ctxOf (schedule s d) d c).delay.isNone) = false) ∧
  t = modUnits (schedule s d) d (fun u => resultsLand u (coreOf (schedule s d) d).issued)

/-- The bundle `b` at the PC of context `c` is fetched and passes the checks that need no guard; `ms` are its moves whose guards are true (R354–R357). -/
def Issues (s : State) (d c : Nat) (t : State) (b : Nat) (ms : List Move) : Prop :=
  Fetching s d c t ∧ (isUser c && (ctxOf t d c).codeLen ≤ (ctxOf t d c).pc) = false ∧ (ctxOf t d c).squash = false ∧
  stwPoisoned t d false (16 * (if isUser c then (ctxOf t d c).codeBase + (ctxOf t d c).pc else (ctxOf t d c).pc)) 16 = false ∧
  b = leNat ((rangeL (16 * (if isUser c then (ctxOf t d c).codeBase + (ctxOf t d c).pc else (ctxOf t d c).pc)) 16).map
    (fetchByte t d (coreOf t d).issued)) ∧
  decodeFault (!isUser c) ((ctxOf t d c).delay.isSome || (ctxOf t d c).rfe) b = none ∧
  ms = (movesOf b).filter (guardOf (ctxOf t d c))

/-! ### Links -/

/-- A VERTEX or SIGNAL block of SEQ `b` is accepted on port `p`, which leaves state `t` (R434). -/
def TakesBlock (s : State) (p : Nat) (b : BitVec 3) (t : State) : Prop :=
  p < 4 ∧ portAlive s p = true ∧ (s.port p).st = .up ∧ b = (s.port p).bRx ∧
  t = ackBlocks (s.modPort p (fun x => { x with bRx := x.bRx + 1 })) p

/-- A packet with header `h` that carries `it` is accepted on port `p`, whose receive buffer has a place for it, which leaves state `t`:
the credit goes back at once unless the packet waits there for the port it goes on by (R21, R434, R435). -/
def TakesPacket (s : State) (p : Nat) (h : PktHdr) (it : LinkItem) (t : State) : Prop :=
  p < 4 ∧ portAlive s p = true ∧ (s.port p).st = .up ∧ h.crcOk = true ∧ h.seq = (s.port p).rxSeq ∧
  rxRoom s p ((itemChannel it).getD 0) = true ∧
  t = packetTaken s p ((itemChannel it).getD 0) (decide (h.dest = s.pkg.sysId) || !relayWaits s p h.dest.toNat it)

/-! ### Runs -/

/-- `n` steps lead from `s` to `t`. -/
def Runs : Nat → State → State → Prop
  | 0, s, t => s = t
  | n + 1, s, t => ∃ u, step s = .next u ∧ Runs n u t

/-- The straps of a machine (R473) and the OTP generations in force on its dies (R484). -/
def Identity (k : Straps) (g0 g1 : Nat) (s : State) : Prop :=
  s.pkg.sysId = k.devid ∧ s.pkg.standby = k.standby ∧ s.pkg.tiebreak = k.tiebreak ∧
  s.die0.otp.inForce = g0 ∧ s.die0.otp.skipped = k.otpSkip ∧ s.die1.otp.inForce = g1 ∧ s.die1.otp.skipped = k.otpSkip

end Sys2Proof.Machine.Claims

open Sys2Proof Sys2Proof.Machine Sys2Proof.Machine.Claims

/-! ### Channel command words -/

/-- R93: NOP and JUMP continue the chain, NOP at the next CCW and JUMP at ADDRESS; NOP with CRC loads the accumulator (R114). R101: TEST compares
(VALUE AND MASK) with OPERAND and skips a CCW when it is true. -/
def Obligations.NopJumpAndTest : Prop :=
  (∀ s n c a, Stands s n c a → c.cmd = 0x00 → GoesOn s n c → crcOf c.flags = false →
    ∃ t, exec (.nop n) s = .next t ∧ ChainsTo s t n c a (a + 16) id) ∧
  (∀ s n c a k, Stands s n c a → c.cmd = 0x00 → GoesOn s n c → crcOf c.flags = true → nopAcc c = some k →
    ∃ t, exec (.nop n) s = .next t ∧ ChainsTo s t n c a (a + 16) (fun x => { x with acc := k })) ∧
  (∀ s n c a, Stands s n c a → c.cmd = 0x08 → (s.slot n).jumped = none → (s.slot n).halt = none →
    ∃ t, exec (.jump n) s = .next t ∧ ChainsTo s t n c a (w64 c.addr) (fun x => { x with jumped := some a })) ∧
  (∀ s n c a b s1, Stands s n c a → c.cmd = 0x09 → c.addr % 8 = 0 →
    tableGet (taken s n c a) (partyOf (taken s n c a) n) c.addr 32 = (.ok b, s1) → testFault s1 b = none → u8 b 0 ≠ 1 →
    exec (.test n) s = .next (settle s (ccwEnded portPw s1 n a (noteOf c.flags)
      (some (if testTrue (u8 b 1) (w32 (leNat (leBytes 4 (testValue s1 (slotServer s1 n / 16) (s1.slot n) (u8 b 0) (u16 b 2)).toNat)) &&&
          w32 (u32 b 4)) (w32 (u32 b 8))
        then a + 32 else a + 16)))))

/-- R103–R105: WAIT and DELAY put the program into WAITING with the deadline that ADDRESS gives, counted from the tick of the step; a vertex that
fires in that tick, or a DELAY of 0, lets the chain go on at once. R103, R105: a WAIT whose deadline has passed goes on under TO_CONTINUE at the
second CCW after it, and ends its program with TIMEOUT otherwise; an elapsed DELAY goes on. -/
def Obligations.WaitsAndDelays : Prop :=
  (∀ s n c a, Stands s n c a → c.cmd = 0x0A → fld c.target 11 3 = 0 → c.addr < 2 ^ 48 → vertexExists (fld c.target 0 11) = true →
    (bit c.target 15 && s.level (fld c.target 0 11)) = false → s.edgesNow.contains (fld c.target 0 11, true) = false → (s.slot n).halt = none →
    ∃ t, exec (.wait n) s = .next t ∧ OnlySlots (turn s n) t ∧ (∀ m, m ≠ n → t.slot m = s.slot m) ∧
      t.slot n = { s.slot n with
        ccw := a, begun := a, flags := w8 c.flags, buf := (s.slot n).buf.tail, jumped := none, st := .waiting
        wait := some { vertex := some (fld c.target 0 11), regTick := s.edges
                       deadline := if c.addr = 0 then none else some (s.edges + c.addr), toContinue := bit c.target 14 } }) ∧
  (∀ s n c a, Stands s n c a → c.cmd = 0x0A → fld c.target 11 3 = 0 → c.addr < 2 ^ 48 → vertexExists (fld c.target 0 11) = true →
    s.edgesNow.contains (fld c.target 0 11, true) = true → GoesOn s n c →
    ∃ t, exec (.wait n) s = .next t ∧ ChainsTo s t n c a (a + 16) id) ∧
  (∀ s n c a, Stands s n c a → c.cmd = 0x0B → c.addr < 2 ^ 48 → c.addr ≠ 0 → (s.slot n).halt = none →
    ∃ t, exec (.delay n) s = .next t ∧ OnlySlots (turn s n) t ∧ (∀ m, m ≠ n → t.slot m = s.slot m) ∧
      t.slot n = { s.slot n with
        ccw := a, begun := a, flags := w8 c.flags, buf := (s.slot n).buf.tail, jumped := none, st := .waiting
        wait := some { vertex := none, regTick := s.edges, deadline := some (s.edges + c.addr), toContinue := false } }) ∧
  (∀ s n v r d, n < 2048 → (s.slot n).wait = some { vertex := some v, regTick := r, deadline := some d, toContinue := true } →
    (s.slot n).st = .waiting → d < s.edges → dieUp s (slotServer s n / 16) = true →
    exec (.waitTimeout n) s = .next (settle s (ccwEnded portPw s n (s.slot n).ccw (noteOf (s.slot n).flags.toNat)
      (some ((s.slot n).ccw + 32))))) ∧
  (∀ s n v r d, n < 2048 → (s.slot n).wait = some { vertex := some v, regTick := r, deadline := some d, toContinue := false } →
    (s.slot n).st = .waiting → d < s.edges → dieUp s (slotServer s n / 16) = true →
    exec (.waitTimeout n) s = .next (settle s (checkEnd portPw s n (0x0040, 0x70) (s.slot n).ccw))) ∧
  (∀ s n r d k, n < 2048 → (s.slot n).wait = some { vertex := none, regTick := r, deadline := some d, toContinue := k } →
    (s.slot n).st = .waiting → d ≤ s.edges → dieUp s (slotServer s n / 16) = true →
    exec (.delayElapsed n) s = .next (settle s (ccwEnded portPw s n (s.slot n).ccw (noteOf (s.slot n).flags.toNat)
      (byNext (s.slot n).flags.toNat (s.slot n).ccw))))

/-- R85, R86, R89: SIGNAL to this device fires soft vertex V(1056 + n) with its data, MARK writes a black-box record with the code and ADDRESS, HALT
ends the program HALTED with DEVICE STATUS set from TARGET; the first two then end as any CCW does. R87, R120: POST writes an interim status, with CRC
after the check result has been stored at ADDRESS, and the chain goes on. -/
def Obligations.SignalMarkHaltAndPost : Prop :=
  (∀ s n c a, Stands s n c a → c.cmd = 0x0C → fld c.target 13 3 = 0 → c.addr < 2 ^ 32 → localDevice (taken s n c a) (fld c.target 8 5) = true →
    exec (.signal n) s = .next (settle s
      (ccwEnded portPw (fireSoft portPw (taken s n c a) (fld c.target 0 8) (w32 c.addr)) n a (noteOf c.flags) (byNext c.flags a)))) ∧
  (∀ s n c a, Stands s n c a → c.cmd = 0x0F →
    exec (.mark n) s = .next (settle s
      (ccwEnded portPw (bbxRecord (taken s n c a) (partyOf (taken s n c a) n).die 0x01 (markArg ((taken s n c a).slot n) 0)
        (leBytes 2 c.target ++ zeros 6 ++ leBytes 8 c.addr)) n a (noteOf c.flags) (byNext c.flags a)))) ∧
  (∀ s n c a, Stands s n c a → c.cmd = 0xFF →
    exec (.halt n) s = .next (settle s
      (haltEnd portPw ((taken s n c a).modSlot n (fun x => { x with dev := w16 c.target })) n 0x80 a))) ∧
  (∀ s n c a u, Stands s n c a → c.cmd = 0x0D → crcOf c.flags = false → interimPost portPw (taken s n c a) n a = (true, u) →
    exec (.post n) s = .next (settle s (ccwEnded portPw u n a false (byNext c.flags a)))) ∧
  (∀ s n c a v u, Stands s n c a → c.cmd = 0x0D → crcOf c.flags = true →
    memPut portPw (taken s n c a) (partyOf (taken s n c a) n) c.addr
      (leBytes 4 (accResult ((taken s n c a).slot n).acc).toNat) .data false = (none, v) →
    interimPost portPw (dropOverlap v n c.addr 4) n a = (true, u) →
    exec (.post n) s = .next (settle s (ccwEnded portPw u n a false (byNext c.flags a))))

/-- R84: METER READ stores the meter's snapshot at ADDRESS; LOAD takes settings that pass the checks and, while the meter domain runs, waits for the
meter's slot; CLEAR asks for the clear and waits. R88: COPY whose descriptor and ranges pass every check stands in its slot and moves nothing yet.
R88, R114, R315: a piece of a COPY moves up to 256 bytes, feeds the accumulator under CRC, and at COUNT ends the CCW. -/
def Obligations.MeterCommandsAndCopy : Prop :=
  (∀ s n c a u, Stands s n c a → c.cmd = 0x0E → fld c.target 12 4 = 0 → fld c.target 7 5 = 0 → c.count = 32 →
    ((taken s n c a).meter (fld c.target 0 7)).unit ≠ .retired → meterReach (taken s n c a) (partyOf (taken s n c a) n).die (fld c.target 0 7) = true →
    memPut portPw (taken s n c a) (partyOf (taken s n c a) n) c.addr (snapRead (taken s n c a) (fld c.target 0 7)) .data false = (none, u) →
    exec (.meterCcwRead n) s = .next (settle s (ccwEnded portPw (dropOverlap u n c.addr 32) n a (noteOf c.flags) (byNext c.flags a)))) ∧
  (∀ s n c a b u, Stands s n c a → c.cmd = 0x0E → fld c.target 12 4 = 1 → fld c.target 7 5 = 0 → c.count = 32 →
    ((taken s n c a).meter (fld c.target 0 7)).unit ≠ .retired →
    meterRights (taken s n c a) (partyOf (taken s n c a) n).fn (fld c.target 0 7) = true →
    meterReach (taken s n c a) (partyOf (taken s n c a) n).die (fld c.target 0 7) = true →
    memGet (taken s n c a) (partyOf (taken s n c a) n) c.addr 32 = (.ok b, u) → settingsOk (fld c.target 0 7 / 64) b = true →
    (u.die (fld c.target 0 7 / 64)).meterRun = true →
    exec (.meterCcwLoad n) s = .next (settle s (meterAwait (meterCommit u (fld c.target 0 7) b) n (fld c.target 0 7) c a))) ∧
  (∀ s n c a, Stands s n c a → c.cmd = 0x0E → fld c.target 12 4 = 2 → fld c.target 7 5 = 0 → c.count = 0 → c.addr = 0 →
    ((taken s n c a).meter (fld c.target 0 7)).unit ≠ .retired →
    meterRights (taken s n c a) (partyOf (taken s n c a) n).fn (fld c.target 0 7) = true →
    meterReach (taken s n c a) (partyOf (taken s n c a) n).die (fld c.target 0 7) = true →
    exec (.meterCcwClear n) s = .next (settle s
      (meterAwait (meterClearRequest (taken s n c a) (fld c.target 0 7)) n (fld c.target 0 7) c a))) ∧
  (∀ s n c a b s1 s2 s3, Stands s n c a → c.cmd = 0x11 → c.addr % 16 = 0 →
    tableGet (taken s n c a) (partyOf (taken s n c a) n) c.addr 16 = (.ok b, s1) →
    u64 b 0 % 8 = 0 → u64 b 8 % 8 = 0 → c.count ≠ 0 → c.count % 8 = 0 → ¬(u64 b 0 < u64 b 8 + c.count ∧ u64 b 8 < u64 b 0 + c.count) →
    accessFail s1 (partyOf (taken s n c a) n) (u64 b 0) c.count rightRead = (none, s2) →
    accessFail s2 (partyOf (taken s n c a) n) (u64 b 8) c.count rightWrite = (none, s3) →
    exec (.copy n) s = .next (settle s (s3.modSlot n (fun x => { x with exec := some {
      code := 0x11, op := .write, parts := [⟨a, w8 c.flags, c.count, [], none⟩], copySrc := w64 (u64 b 0), copyDst := w64 (u64 b 8) } })))) ∧
  (∀ s u v n e k bs, n < 2048 → (s.slot n).exec = some e → e.code = 0x11 → (s.region (slotServer s n / 4)).power = .run →
    (s.region (slotServer s n / 4)).inReset = false → dieUp s (slotServer s n / 16) = true →
    (pathChannel s (slotServer s n / 4)).isSome = true → e.op ≠ .read → k = min 256 (partsCount e.parts - e.moved) →
    rawRead s (partyOf s n) (e.copySrc.toNat + e.moved) k = (.ok bs, u) →
    rawWrite portPw u (partyOf s n) (e.copyDst.toNat + e.moved) bs .data false = (none, v) → (v.slot n).exec = some e → ∀ t,
    t = (dropOverlap v n (e.copyDst.toNat + e.moved) k).modSlot n (fun x => { x with
      exec := some { e with moved := e.moved + k }, acc := if crcOf x.flags.toNat then accFeed x.acc bs else x.acc }) →
    (e.moved + k < partsCount e.parts → exec (.pathPiece n 0 []) s = .next (settle s t)) ∧
    (partsCount e.parts ≤ e.moved + k → exec (.pathPiece n 0 []) s = .next (settle s
      (ccwEnded portPw (t.modSlot n (fun x => { x with dev := 0, resid := 0, laneRes := 0 })) n (s.slot n).ccw
        (noteOf (s.slot n).flags.toNat) (byNext (s.slot n).flags.toNat (s.slot n).ccw)))))

/-- R78–R82, R107: WRITE, READ, XACT, SENSE and GANG WRITE to lanes of this device begin at every lane that LANE names. R83: a CONTROL begins with its
parameters read, at every lane that LANE names. -/
def Obligations.LaneAndControlCommandsBegin : Prop :=
  (∀ s u n c a lf w, LaneBegins s u n c a lf w →
    (c.cmd = 0x01 → exec (.write n) s = .next (settle s (begun u n c a lf w []))) ∧
    (c.cmd = 0x02 → exec (.read n) s = .next (settle s (begun u n c a lf w []))) ∧
    (c.cmd = 0x03 → exec (.xact n) s = .next (settle s (begun u n c a lf w []))) ∧
    (c.cmd = 0x05 → exec (.sense n) s = .next (settle s (begun u n c a lf w []))) ∧
    (c.cmd = 0x06 → exec (.gangWrite n) s = .next (settle s (begun u n c a lf w [])))) ∧
  (∀ s u n c a lf w v out, LaneBegins s u n c a lf w → c.cmd = 0x04 → controlData u (partyOf (taken s n c a) n) .control w.pieces = ((out, none), v) →
    dataFails v .control c.target out (lf.lanes.filter (fun l => !laneGone (taken s n c a) l)) = none →
    (c.target = 0x0000 → exec (.laneReset n) s = .next (settle s (begun v n c a lf w out))) ∧
    (c.target = 0x0001 → exec (.busRecover n) s = .next (settle s (begun v n c a lf w out))) ∧
    (c.target = 0x0002 → exec (.release n) s = .next (settle s (begun v n c a lf w out))) ∧
    (c.target = 0x0100 → exec (.rxFlush n) s = .next (settle s (begun v n c a lf w out))) ∧
    (c.target = 0x0110 → exec (.uartBreak n) s = .next (settle s (begun v n c a lf w out))) ∧
    (c.target = 0x0120 → exec (.tachRestart n) s = .next (settle s (begun v n c a lf w out))) ∧
    (c.target = 0x0130 → exec (.pwmForce n) s = .next (settle s (begun v n c a lf w out))))

/-! ### Programs, fetches and lane transactions -/

/-- R126, R127, R144: the next prefetch read of a slot is an on-chip read of one CCW, which joins the buffer, or a host read that is outstanding until
its completion comes. R143, R144: a read that succeeds fills the buffer of the program that made it; one that fails or times out puts a failed CCW
there, but for a read whose CCWs the program no longer awaits; either is counted stale where the slot holds another program. -/
def Obligations.FetchesAndHostReads : Prop :=
  (∀ s u v n a bs, Fetches s n a → onChip a.toNat = true → accessFail s (partyOf s n) a.toNat 16 rightFetch = (none, u) →
    rawRead u (partyOf s n) a.toNat 16 = (.ok bs, v) →
    exec (.ccwFetch n) s = .next (settle s (pushFetched v n [{ addr := a, bytes := bs, fail := none }]))) ∧
  (∀ s u n a, Fetches s n a → onChip a.toNat = false →
    accessFail s (partyOf s n) a.toNat (fetchLen (s.slot n) a.toNat) rightFetch = (none, u) → hostOpen u (partyOf s n) = true →
    (fnPort (s.slot n).fn = slotServer s n / 16 ∨ npFree u (slotServer s n / 16) = true) →
    exec (.ccwFetch n) s = .next (settle s { u with
      reads := u.reads ++ [{ id := u.nextRead, kind := .fetch, slot := n, fn := (s.slot n).fn, tag := (s.slot n).tag, gen := (s.slot n).gen
                             addr := a, len := fetchLen (s.slot n) a.toNat }]
      nextRead := u.nextRead + 1 })) ∧
  (∀ s id a data r, a.toNat + data.length ≤ 2 ^ 63 → readOf (hostKnown s a data) id a data.length = some r →
    (readMatches (readGone (hostKnown s a data) r) r = true → r.void = true →
      exec (.hostReadCompletion id a data .success) s = .next (settle s (readGone (hostKnown s a data) r))) ∧
    (readMatches (readGone (hostKnown s a data) r) r = true → r.void = false →
      exec (.hostReadCompletion id a data .success) s =
        .next (settle s (pushFetched (readGone (hostKnown s a data) r) r.slot (ccwsFrom 4 a data)))) ∧
    (readMatches (readGone (hostKnown s a data) r) r = false →
      exec (.hostReadCompletion id a data .success) s = .next (settle s
        (countStale (readGone (hostKnown s a data) r) (slotServer (readGone (hostKnown s a data) r) r.slot))))) ∧
  (∀ s id a len r, a.toNat + len ≤ 2 ^ 63 → readOf s id a len = some r →
    (readMatches (readGone s r) r = true → r.void = false →
      exec (.completionTimeout id a len) s =
        .next (settle s (pushFetched (readGone s r) r.slot [{ addr := a, bytes := [], fail := some fetchFailed }]))) ∧
    (readMatches (readGone s r) r = false →
      exec (.completionTimeout id a len) s = .next (settle s (countStale (readGone s r) (slotServer (readGone s r) r.slot)))))

/-- R22, R124, R406: the oldest program of a cluster's admission list takes the lowest free slot while more slots are free than are kept for chords, a
follow-on chain before it takes any; a program that has no status block and no halt request begins there at its chain. R43, R140, R143, R163, R338:
the oldest command in flight to a cluster arrives at its lane; the oldest result in flight to a slot ends its member there, or is counted stale where
the slot holds another program. -/
def Obligations.ProgramsAndForwardedCommands : Prop :=
  (∀ s c n e es, c < 32 → clusterRuns s c = true → (s.cluster c).chords = e :: es → freeSlot s c = some n →
    exec (.programAdmit c false) s = .next (settle s (takeChain portPw (s.modCluster c (fun x => { x with chords := es })) n e))) ∧
  (∀ s c n g gs, c < 32 → clusterRuns s c = true → (s.cluster c).chords = [] → (s.cluster c).admits = g :: gs → freeSlot s c = some n →
    reserveOf s c < freeSlots s c →
    exec (.programAdmit c false) s = .next (settle s (takeSlot portPw (s.modCluster c (fun x => { x with admits := gs })) n g false)) ∧
    (g.status = 0 → g.halt = none → ∃ t, exec (.programAdmit c false) s = .next t ∧
      t = { s with clusters := t.clusters, slots := t.slots } ∧ (∀ k, k ≠ c → t.cluster k = s.cluster k) ∧ (t.cluster c).admits = gs ∧
      (∀ m, m ≠ n → t.slot m = s.slot m) ∧
      t.slot n = { unit := (s.slot n).unit, st := .active, owner := g.owner, fn := g.fn, tag := g.tag, gen := g.gen, pc := g.chain
                   body := g.body, enforce := g.enforce })) ∧
  (∀ s c l n g gs, c < 32 → clusterRuns s c = true → (s.cluster c).adopts = some l → (s.cluster c).lostAdmit = g :: gs →
    freeSlot s l = some n → reserveOf s c < freeSlots s l →
    exec (.programAdmit c true) s = .next (settle s (takeSlot portPw (s.modCluster c (fun x => { x with lostAdmit := gs })) n g true))) ∧
  (∀ s c e es, c < 32 → (s.cluster c).inbound = e :: es → laneServed s e.lane = true →
    (npCmd s (slotServer s e.cmd.user.slot / 16) e.lane e.cmd = false ∨ npFree s (slotServer s e.cmd.user.slot / 16) = true) →
    exec (.forwardedCommand c) s = .next (settle s
      (laneDone portPw (laneArrive (s.modCluster c (fun x => { x with inbound := es })) e.lane e.cmd) e.lane))) ∧
  (∀ s n r t, n < 2048 → s.results.find? (fun r => r.slot = n) = some r → dieUp s (slotServer s n / 16) = true →
    t = { s with results := s.results.erase r } →
    (slotMatches t { device := 0, slot := n, fn := r.fn, tag := r.tag, gen := r.gen } = true →
      exec (.forwardedResult n) s = .next (settle s (memberEnds portPw t n r.res))) ∧
    (slotMatches t { device := 0, slot := n, fn := r.fn, tag := r.tag, gen := r.gen } = false →
      exec (.forwardedResult n) s = .next (settle s (countStale t (slotServer t n)))))

/-- R80, R109, R115–R117, R140, R175, R176, R179, R181, R185, R196: a lane command ends as the bus says. A condition that the bus shows gives DEVICE
STATUS its class and the byte at which it arose, the class's failure and LANE_ERR bits, and what was not moved. Where it shows none every byte moved,
with the data that the personality gives, and the lane compares: a PEC that differs is class 5 at the last byte, a frame's answer without its pattern
class 2 at its first. A GPIO byte or PWM period that another device sends is checked first. R81, R134, R148, R187–R191: an expired lane timeout ends
the command with TIMEOUT at the byte reached and the bus recovered or stuck, or ends a UART READ well under READ_END; a pause of 10 ms ends one on
SMBus and PMBus; an expired hold is lost; a halted byte stream, and a transaction 35 ms into a reset but for a chain that persists through it, are
cut. -/
def Obligations.LaneCommandsEnd : Prop :=
  (∀ s n r c, n < 384 → (s.lane n).txn = some c → endFits s.edges (s.lane n) c r = true → laneServed s n = true →
    let l := s.lane n
    let p := personality l
    let got := (endBytes l c r.recv).1
    let l' := (endBytes l c r.recv).2
    let all := c.seen ++ r.recv
    (∀ f, r.cls = 0 → isRemoteCmd c = true → laneData l c.op c.target.toNat c.out = some f →
      exec (.laneTransactionEnd n r) s = .next (settle s (laneDone portPw
        (some (c, memberRes c 0 (some f) (c.count - c.got) []), laneNext (txnOver s n { c with target := put c.target 14 1 0 } 0 0) n) n))) ∧
    (isRemoteCmd c = false ∨ laneData l c.op c.target.toNat c.out = none →
      (r.cls = 0 → isInner p = true → c.op = .read → EndsWith s n r c 0 0 0 (innerData l c.count) l) ∧
      (r.cls = 0 → isInner p = true → c.op = .write ∨ c.op = .gang → EndsWith s n r c 0 0 c.count [] (innerWrite l c.out)) ∧
      (r.cls = 0 → c.op = .control → EndsWith s n r c 0 0 0 got l') ∧
      (r.cls = 0 → isInner p = false → c.op ≠ .control → p ≠ 0xC → (pecOn l c && recvLen c != 0) = false →
        EndsWith s n r c 0 0 (sendLen c) got l') ∧
      (r.cls = 0 → pecOn l c = true → recvLen c ≠ 0 →
        (r.pec = some (commandPec c all) → EndsWith s n r c 0 0 (sendLen c) got l') ∧
        (r.pec ≠ some (commandPec c all) → EndsWith s n r c 5 c.count (sendLen c) got l')) ∧
      (r.cls = 0 → c.op ≠ .control → p = 0xC →
        (ackFits l c.op c.target.toNat all = true → EndsWith s n r c 0 0 (sendLen c) got l') ∧
        (ackFits l c.op c.target.toNat all = false → EndsWith s n r c 2 (sendLen c) (sendLen c) got l'))) ∧
    (r.cls ≠ 0 → EndsWith s n r c r.cls.toNat
      (if r.cls = 2 ∨ r.cls = 3 ∨ r.cls = 7 then r.sent else if r.cls = 6 then r.sent + c.got + r.recv.length - 1 else 0) r.sent got l')) ∧
  (∀ s n c w, n < 384 → (s.lane n).txn = some c → dieUp s (laneDieNow s n) = true →
    ((∃ lim t, laneLimit (s.lane n) = some lim ∧ waitSince (s.lane n) c w.lostAt = some t ∧ t + lim ≤ s.edges) ∨
      ((personality (s.lane n) = 3 ∨ personality (s.lane n) = 4) ∧ (s.lane n).begun = true ∧ (s.lane n).txnSince + 2500000 ≤ s.edges)) →
    (readEnds (s.lane n) c w.recv = true → exec (.laneTimeout n w) s = .next (settle s (cutThenNext s n c none 0 0 0 w.recv []))) ∧
    (readEnds (s.lane n) c w.recv = false → exec (.laneTimeout n w) s = .next (settle s
      (cutThenNext s n c (some laneTimeoutFail) (timeoutAt (s.lane n) c w.sent w.recv)
        (0x20 + (if hasRecovery (personality (s.lane n)) then (if w.recovered then 0x100 else 0x04) else 0)) w.sent w.recv
        (recoveryWire (s.lane n) w.pulses w.recovered))))) ∧
  (∀ s n c sent recv, n < 384 → (s.lane n).txn = some c → (personality (s.lane n) = 3 ∨ personality (s.lane n) = 4) →
    laneStalled (s.lane n) c recv = true → (s.lane n).memAt + 1000000 ≤ s.edges →
    exec (.laneStallTimeout n sent recv) s = .next (settle s
      (cutThenNext s n c (some laneTimeoutFail) (timeoutAt (s.lane n) c sent recv) 0x20 sent recv (closingWire (s.lane n))))) ∧
  (∀ s n h, n < 384 → (s.lane n).held = some h → (s.lane n).txn = none → h.since + holdLimit (s.lane n) ≤ s.edges →
    dieUp s (laneDieNow s n) = true → exec (.holdTimeout n) s = .next (settle s
      (laneNext ((holdEnds s n).modLane n (fun l => { l with lost := l.lost ++ [(h.user, holdLost.2)] })) n))) ∧
  (∀ s t n c sent recv, n < 384 → (s.lane n).txn = some c → t = s.modLane n (fun l => { l with txn := some { c with cut := true } }) →
    (byteStream (personality (s.lane n)) = true → isRemoteCmd c = false → slotMatches s c.user = true → (s.slot c.user.slot).halt ≠ none →
      exec (.transactionCut n sent recv) s =
        .next (settle s (cutThenNext t n { c with cut := true } none 0 0 sent recv (closingWire (s.lane n))))) ∧
    (byteStream (personality (s.lane n)) = false →
      (isRemoteCmd c = false ∧ (slotMatches s c.user && persistOwner s (s.slot c.user.slot).owner) = false ∧
        (s.func c.user.fn).inReset = true ∧ (s.func c.user.fn).resetAt + 3500000 ≤ s.edges) ∨
        (∃ w, s.pkg.warmAt = some w ∧ w + 3500000 ≤ s.edges) →
      exec (.transactionCut n sent recv) s =
        .next (settle s (cutThenNext t n { c with cut := true } none 0 0x20 sent recv (closingWire (s.lane n))))))

/-! ### Work orders -/

/-- R22, R119, R141, R142, R280, R281, R405: a START that passes its checks takes its tag and GEN; it takes the slot that is available to it, and
where none is writes its QUEUED status and joins the admission list of its home cluster; with A = 0 its body's chain stands in a body-chain tile of
the home region and in its mirror. R136, R137: RESUME lets a SUSPENDED program go on from its suspended CCW, without that CCW's PAUSE, after an ACTIVE
status; HALT-PROGRAM ends a program that executes nothing at once, with the REASON of the first halt request, and leaves a halt request with one that
executes a command, and ends a QUEUED program. -/
def Obligations.ProgramsStartResumeAndHalt : Prop :=
  (∀ s u src r c, StartOk s src r c → eA r.bytes ≠ 0 → (∀ d k, src = .policy d k → onChip (eA r.bytes) = true) →
    (∀ k a, startSlot (startTagged s r) c = some (k, a) →
      exec (.start src) s = .next (settle s (takeSlot portPw (startTagged s r) k (startProg s r (w64 (eA r.bytes)) none) a))) ∧
    (startSlot (startTagged s r) c = none →
      statusWrite portPw (startTagged s r) (progParty c (startProg s r (w64 (eA r.bytes)) none)) (progSlot (startProg s r (w64 (eA r.bytes)) none)) 1 =
        (none, u) →
      exec (.start src) s = .next (settle s (joinList u c (startProg s r (w64 (eA r.bytes)) none))))) ∧
  (∀ s u src r c t v, StartOk s src r c → eA r.bytes = 0 → r.variable_ = true → 2 ≤ eLen r.bytes → (∀ d k, src ≠ .policy d k) →
    bodyTile s (c / 4) = some t → v = bodyCopied s t r.body →
    (∀ k a, startSlot (startTagged v r) c = some (k, a) →
      exec (.start src) s = .next (settle s (takeSlot portPw (startTagged v r) k (startProg v r (w64 (tileAddr t)) (some t)) a))) ∧
    (startSlot (startTagged v r) c = none →
      statusWrite portPw (startTagged v r) (progParty c (startProg v r (w64 (tileAddr t)) (some t)))
        (progSlot (startProg v r (w64 (tileAddr t)) (some t))) 1 = (none, u) →
      exec (.start src) s = .next (settle s (joinList u c (startProg v r (w64 (tileAddr t)) (some t)))))) ∧
  (∀ s src r n, Asks s src 0x02 r → fieldsOk r 0 false false false 32 32 = true → tagSlot s r.fn (tagOf r) = some n →
    mustWait s r (slotServer s n / 16) = false → (s.slot n).st = .suspended →
    exec (.resume src) s = .next (settle s (reply
      (interim portPw (s.modSlot n (fun x => { x with
        st := .active, pc := x.ccw, honour := false, buf := [], chan := x.chan &&& ~~~csSuspended
        reason := if x.chan &&& ~~~csSuspended &&& csPartial = 0 then 0 else someLanes })) n 2).2 r ccSuccess))) ∧
  (∀ s src r n, Asks s src 0x03 r → fieldsOk r 0 false false false 32 32 = true → tagSlot s r.fn (tagOf r) = some n →
    mustWait s r (slotServer s n / 16) = false → (s.slot n).st ≠ .free → (s.slot n).ended = none →
    dieUp (tookEffect s r) (slotServer (tookEffect s r) n / 16) = true →
    ((s.slot n).st ≠ .active →
      exec (.haltProgram src) s = .next (settle s (haltEnd portPw (tookEffect s r) n ((s.slot n).halt.getD haltProgramReason) (s.slot n).ccw))) ∧
    ((s.slot n).st = .active → (s.slot n).exec = none → (s.slot n).honour = true →
      exec (.haltProgram src) s = .next (settle s (haltEnd portPw (tookEffect s r) n ((s.slot n).halt.getD haltProgramReason) (s.slot n).last))) ∧
    ((s.slot n).st = .active → (s.slot n).exec ≠ none → (s.slot n).halt = none →
      exec (.haltProgram src) s = .next (settle s ((tookEffect s r).modSlot n (fun x => { x with halt := some haltProgramReason }))))) ∧
  (∀ s src r c, Asks s src 0x03 r → fieldsOk r 0 false false false 32 32 = true → tagSlot s r.fn (tagOf r) = none →
    tagQueued s r.fn (tagOf r) = some c →
    exec (.haltProgram src) s = .next (settle s (queuedHalted portPw (tookEffect s r) (fun _ g => isProg r.fn (tagOf r) g) haltProgramReason)))

/-- R213, R218: ARM-CHORD that passes the nine checks arms the chord with its record and completes with its new GEN; DISARM-CHORD of a chord that the
function holds disarms it, and with HALT asks its chain to end. -/
def Obligations.ArmAndDisarmChord : Prop :=
  (∀ s u src r c rec', ArmOk s u src r c rec' →
    exec (.armChord src) s = .next (settle s
      (replyWith (chordArmed u r.fn c rec') r ccSuccess ((chordArmed u r.fn c rec').chord c).gen.toNat []))) ∧
  (∀ s src r c, Asks s src 0x05 r → par r 0 12 = c → fieldsOk r 0x1FFF false false false 32 32 = true → mustWait s r (chordDie c) = false →
    isLost s (chordDie c) = false → (s.chord c).unit ≠ .retired → (s.chord c).st ≠ .disarmed → (s.chord c).st ≠ .draining →
    (r.fn = 0 ∨ recOwner (s.chord c).record = r.fn) →
    exec (.disarmChord src) s = .next (settle s
      (reply (disarmAt portPw s c (if par r 12 1 = 1 then some haltProgramReason else none)) r ccSuccess)))

/-- R86, R280: SIGNAL to this device fires soft vertex V(1056 + n) with the word at byte 32 and completes; NOP completes with SUCCESS. R247, R248:
METER-SET of settings that pass their checks commits them, an unowned meter becomes the function's, and the entry waits for the meter's slot while the
meter domain runs; METER-READ gives the snapshot and answers the meter's value and flags byte. R286–R288: BUFFER-ALLOC hands the lowest free tile of
the region, or with EXACT the one that it names, to the function, where no request fetched before it is to have it, and answers its handle;
BUFFER-FREE of a tile that the function holds gives it back to the pool. R282: LANE-CONFIG writes its pairs in order and completes with SUCCESS where
none is refused, with APPLY_REFUSED, the first refused index and their number otherwise; kind 1 sets a lane set's members. -/
def Obligations.SmallWorkOrders : Prop :=
  (∀ s src r, Asks s src 0x06 r → fieldsOk r 0x1FFF false false false 32 36 = true → localDevice s (par r 8 5) = true → par r 8 5 ≠ 31 →
    exec (.signalWorkOrder src) s = .next (settle s (reply (fireSoft portPw s (par r 0 8) (w32 (u32 r.bytes 32))) r ccSuccess))) ∧
  (∀ s src r, Asks s src 0x0C r → fieldsOk r 0 false false false 32 32 = true →
    exec (.nopWorkOrder src) s = .next (settle s (reply s r ccSuccess))) ∧
  (∀ s u src r m b, Asks s src 0x07 r → par r 0 7 = m → fieldsOk r 0x7F (!isMailbox r) false false 32 32 = true →
    mustWait s r (m / 64) = false → (s.meter m).unit ≠ .retired → isLost s (m / 64) = false → meterMay s r m = true →
    meterBytes s r = (some b, u) → settingsOk (m / 64) b = true →
    let v := meterCommit (u.modMeter m (fun x => { x with owner := if x.owner = 15 then r.fn else x.owner })) m b
    ((v.die (m / 64)).meterRun = true →
      exec (.meterSet src) s = .next (settle s
        ((tookEffect v r).modMeter m (fun x => { x with waiters := x.waiters ++ [.entry r.src r.idx] })))) ∧
    ((v.die (m / 64)).meterRun = false → exec (.meterSet src) s = .next (settle s (reply v r ccSuccess)))) ∧
  (∀ s src r m, Asks s src 0x08 r → par r 0 7 = m → fieldsOk r 0x7F false (!isMailbox r) false 32 32 = true → eB r.bytes % 8 = 0 →
    mustWait s r (m / 64) = false → (s.meter m).unit ≠ .retired → isLost s (m / 64) = false →
    let res := sub (snapRead s m) 0 4 ++ [(snapRead s m).getD 24 0]
    (isMailbox r = true →
      exec (.meterRead src) s = .next (settle s (replyWith (mailboxPut s r.fn 0x10 (snapRead s m)) r ccSuccess 0 res))) ∧
    (isMailbox r = false → eB r.bytes = 0 → exec (.meterRead src) s = .next (settle s (replyWith s r ccSuccess 0 res))) ∧
    (∀ u, isMailbox r = false → eB r.bytes ≠ 0 → reqPut s r (eB r.bytes) (snapRead s m) = (none, u) →
      exec (.meterRead src) s = .next (settle s (replyWith u r ccSuccess 0 res)))) ∧
  (∀ s src r q t, Asks s src 0x09 r → par r 0 3 = q → mustWait s r (q / 4) = false → isLost s (q / 4) = false →
    ((par r 3 1 = 0 ∧ fieldsOk r 0xF false false false 32 32 = true ∧ tilesLeft s r q ≠ 0 ∧ (rangeL (512 * q + 16) 496).find? (tileFree s) = some t) ∨
     (par r 3 1 = 1 ∧ fieldsOk r 0x1FFF false false false 32 32 = true ∧ 16 ≤ par r 4 9 ∧ t = 512 * q + par r 4 9 ∧ tileFree s t = true ∧
      (allocRivals s r q).any (fun e => fld (eParams e.2.bytes) 3 10 = 1 + 2 * par r 4 9) = false)) →
    exec (.bufferAlloc src) s = .next (settle s
      (replyWith (tileTaken s r.fn t) r ccSuccess 0 (leBytes 2 (t + 4096 * (tileGen (tileTaken s r.fn t) t).toNat))))) ∧
  (∀ s src r t, Asks s src 0x0A r → fieldsOk r 0xFFFF false false false 32 32 = true → par r 0 12 = t → par r 12 4 = (tileGen s t).toNat →
    mustWait s r (t / 2048) = false → isLost s (t / 2048) = false → 16 ≤ t % 512 → (s.tile t).owner = .fn r.fn → (s.tile t).retired = false →
    exec (.bufferFree src) s = .next (settle s (reply (s.modTile t (fun y => { y with owner := .pool })) r ccSuccess))) ∧
  (∀ s u v src r n bs ps fr k, Asks s src 0x0B r → par r 0 2 = 0 → par r 4 9 = n →
    fieldsOk r 0x00FF1FF3 false false true 32 (32 + 8 * min (par r 16 8) 2) = true →
    par r 16 8 ≠ 0 → hasCap s r.fn 1 = true → n < 384 → (s.lane n).unit ≠ .retired → mustWait s r (laneDie n) = false →
    isLost s (laneDie n) = false → streamOf s r (8 * (par r 16 8 - 2)) = (.inr bs, u) →
    ((eInline r.bytes).take (8 * par r 16 8) ++ bs).length ≥ 8 * par r 16 8 →
    pairsOf (par r 16 8) ((eInline r.bytes).take (8 * par r 16 8) ++ bs) = some ps →
    ps.all (fun p => laneWritable (isFrame (u.lane n) || ps.any (fun p => p.1 = 0 && wf p.2 0 4 = 0xC)) p.1) = true →
    pairsWrite r.fn n 0 (none, 0) u ps = ((fr, k), v) →
    exec (.laneConfigRegisters src) s = .next (settle s (match fr with
      | none => reply v r ccSuccess
      | some i => replyWith v r ccApplyRefused 0 [w8 i, w8 k]))) ∧
  (∀ s u src r bs ls, Asks s src 0x0B r → par r 0 2 = 1 → par r 12 6 ≤ 32 →
    fieldsOk r 0x3FFF3 false false true 32 (32 + 2 * min (par r 12 6) 8) = true →
    hasCap s r.fn 1 = true → streamOf s r (2 * (par r 12 6 - 8)) = (.inr bs, u) →
    ((eInline r.bytes).take (2 * par r 12 6) ++ bs).length ≥ 2 * par r 12 6 →
    ls = (List.range (par r 12 6)).map (fun i => u16 ((eInline r.bytes).take (2 * par r 12 6) ++ bs) (2 * i)) →
    (∀ n ∈ ls, n < 384 ∧ (u.lane n).unit ≠ .retired ∧ isPartner u n = false) → ls.Nodup →
    exec (.laneConfigLaneSet src) s = .next (settle s
      (reply (u.modPkg (fun p => { p with sets := tset {} p.sets (par r 4 8) { members := ls } })) r ccSuccess)))

/-! ### Admin commands -/

/-- R263, R284, R285: IDENTIFY stores its page at B, or 32 bytes of it in the mailbox's DATA; GET-FEATURE answers the value of the feature. R256,
R258: GRANT-CAPABILITY sets and clears the capabilities of another function and answers them; the primary function keeps its own (log 30). -/
def Obligations.IdentityFeaturesAndCapabilities : Prop :=
  (∀ s src r page, Asks s src 0x81 r → par r 0 8 ≤ 1 → eB r.bytes % 64 = 0 →
    fieldsOk r (if isMailbox r then 0x7FFF else 0xFF) false (!isMailbox r) false 32 32 = true →
    page = (if par r 0 8 = 0 then identifyPage0 s r.fn else identifyPage1 s) →
    (isMailbox r = true →
      exec (.identify src) s = .next (settle s (reply (mailboxPut s r.fn 0x10 (sub page (32 * par r 8 7) 32)) r ccSuccess))) ∧
    (∀ u, isMailbox r = false → reqPut s r (eB r.bytes) (sub page 0 4096) = (none, u) →
      exec (.identify src) s = .next (settle s (reply u r ccSuccess)))) ∧
  (∀ s src r, Asks s src 0x85 r → fieldsOk r 0xFFFF false false false 32 32 = true →
    (par r 0 16 = 1 → exec (.getFeature src) s = .next (settle s (replyWith s r ccSuccess 0 (leBytes 8 s.pilot.toNat)))) ∧
    (par r 0 16 = 2 → exec (.getFeature src) s = .next (settle s (replyWith s r ccSuccess 0 (leBytes 8 (s.func r.fn).caps.toNat)))) ∧
    (par r 0 16 = 3 → exec (.getFeature src) s = .next (settle s (replyWith s r ccSuccess 0 (leBytes 8 (reserveValue s))))) ∧
    (par r 0 16 = 4 → exec (.getFeature src) s = .next (settle s (replyWith s r ccSuccess 0 (leBytes 8 s.pkg.sleep.toNat)))) ∧
    (par r 0 16 = 5 → exec (.getFeature src) s = .next (settle s (replyWith s r ccSuccess 0 (leBytes 8 (b2n (s.func r.fn).mboxNotify)))))) ∧
  (∀ s src r f, AdminAsks s src 0x8D r (fieldsOk r 0xFFFF07 false false false 32 32) (isPrimary r) → par r 0 3 = f →
    par r 8 8 &&& par r 16 8 = 0 → par r 8 8 < 32 → par r 16 8 < 32 → fnPresent s f = true → mustWait s r (fnPort f) = false →
    (f ≠ 0 → exec (.grantCapability src) s = .next (settle s (replyWith
      (s.modFunc f (fun x => { x with caps := (x.caps ||| w8 (par r 8 8)) &&& ~~~(w8 (par r 16 8)) })) r ccSuccess 0
      [((s.func f).caps ||| w8 (par r 8 8)) &&& ~~~(w8 (par r 16 8))]))) ∧
    (f = 0 → exec (.grantCapability src) s = .next (settle s (replyWith s r ccSuccess 0 [(s.func 0).caps]))))

/-- R278: CREATE-QUEUE for an ABSENT queue writes its mirror as 0 and makes it RUNNING, empty, at index 0; DESTROY-QUEUE makes an empty RUNNING queue
ABSENT, and one in ERROR DESTROYING, with halt requests to the programs it started. R301, R310: CREATE-EVENT-RING makes a function's ring live at
index 0, phase 1 and SEQ 0; with DESTROY its ring goes. -/
def Obligations.QueuesAndEventRings : Prop :=
  (∀ s u src r q, Asks s src 0x82 r → fieldsOk r 0x1FFF true true false 32 32 = true → par r 0 7 = q → q ≠ 0 →
    (if par r 7 1 = 1 then 6 ≤ par r 8 4 ∧ par r 8 4 ≤ 14 else 4 ≤ par r 8 4 ∧ par r 8 4 ≤ 12) →
    ringOk s (eA r.bytes) (64 * 2 ^ par r 8 4) = true → eB r.bytes % 4 = 0 → (s.queue r.fn q).st = .absent →
    memPut portPw s (fnParty s r.fn) (eB r.bytes) (zeros 4) .mirror true = (none, u) →
    exec (.createQueue src) s = .next (settle s (reply (u.modQueue r.fn q (fun _ => {
      st := .running, ring := w64 (eA r.bytes), mirror := w64 (eB r.bytes), variable_ := par r 7 1 = 1, notify := par r 12 1 = 1
      sizeLog2 := par r 8 4 })) r ccSuccess))) ∧
  (∀ s src r q, Asks s src 0x83 r → fieldsOk r 0x7F false false false 32 32 = true → par r 0 7 = q → q ≠ 0 →
    ((s.queue r.fn q).st = .running → (s.queue r.fn q).head = (s.queue r.fn q).tail → (s.queue r.fn q).flight = [] →
      exec (.destroyQueue src) s = .next (settle s
        (reply ((quarPassed s r.fn q (fun _ => true)).modQueue r.fn q (fun _ => {})) r ccSuccess))) ∧
    ((s.queue r.fn q).st = .error →
      exec (.destroyQueue src) s = .next (settle s (destroyOver (queueHalts
        ((tookEffect s r).modQueue r.fn q (fun x => { x with st := .destroying, destroyer := some (r.src, r.idx) })) r.fn q) r.fn q)))) ∧
  (∀ s u src r, Asks s src 0x86 r → fieldsOk r 0xF true false false 32 32 = true → 6 ≤ par r 0 4 → par r 0 4 ≤ 12 →
    ringOk s (eA r.bytes) (16 * 2 ^ par r 0 4) = true →
    (if wb s.pkg.enforce r.fn then windowCheck s (4 * fnPort r.fn) r.fn (eA r.bytes) (16 * 2 ^ par r 0 4) rightWrite = (true, u) else u = s) →
    (u.target r.fn).live = false →
    exec (.createEventRing src) s = .next (settle s (reply (ringMade u r.fn (eA r.bytes) (par r 0 4)) r ccSuccess))) ∧
  (∀ s src r, Asks s src 0x86 r → fieldsOk r 0x10 false false false 32 32 = true → par r 4 1 = 1 → (s.target r.fn).live = true →
    exec (.destroyEventRing src) s = .next (settle s (reply (ringGone s r.fn) r ccSuccess)))

/-- R124, R257, R285, R463, R468: SET-FEATURE by the function that may set the feature gives it its value: CHORD_RESERVE to CLU_SCHED of the clusters
of every half that is there, SLEEP_POLICY, WARM_RESET (the issuing queue acts on nothing more), MAILBOX_NOTIFY. -/
def Obligations.FeaturesAreSet : Prop :=
  (∀ s src r, AdminAsks s src 0x84 r (fieldsOk r 0xFFFF false false false 32 40) (isPrimary r) → par r 0 16 = 3 → u64 r.bytes 32 ≤ 32 →
    mustWait s r (1 - reqDie r) = false →
    exec (.setChordReserve src) s = .next (settle s (reply ((List.range 32).foldl (fun s c =>
      if isLost s (c / 16) then s else schedApplied (s.modCluster c (fun x => { x with schedNew := some (w32 (u64 r.bytes 32)) })) c) s)
      r ccSuccess))) ∧
  (∀ s src r, AdminAsks s src 0x84 r (fieldsOk r 0xFFFF false false false 32 40) (isPrimary r) → par r 0 16 = 4 →
    fld (u64 r.bytes 32) 36 28 = 0 →
    exec (.setSleepPolicy src) s = .next (settle s (reply (s.modPkg (fun p => { p with sleep := w64 (u64 r.bytes 32) })) r ccSuccess))) ∧
  (∀ s src r, AdminAsks s src 0x84 r (fieldsOk r 0xFFFF false false false 32 40) (isPrimary r) → par r 0 16 = 4 →
    u64 r.bytes 32 = 2 ^ 63 →
    exec (.warmReset src) s = .next (settle s
      (let t := (reply s r ccSuccess).modPkg (fun p => { p with warmDue := true })
       match r.src with
       | .queue f q => t.modQueue f q (fun x => { x with stopping := true })
       | _ => t))) ∧
  (∀ s src r, AdminAsks s src 0x84 r (fieldsOk r 0xFFFF false false false 32 40) true → par r 0 16 = 5 → u64 r.bytes 32 ≤ 1 →
    exec (.setMailboxNotify src) s = .next (settle s
      (reply (s.modFunc r.fn (fun x => { x with mboxNotify := u64 r.bytes 32 = 1 })) r ccSuccess)))

/-- R289, R475, R477: FIRMWARE-STAGE appends its chunk to the image in the staging slots; the last chunk of a valid image stages it. R290, R291, R469:
FIRMWARE-ACTIVATE makes the staged image the one booted first; with NOW the halves then reload, die 1 first, and the entry completes when the last
has; resets of functions that waited for a half's reload follow it. -/
def Obligations.FirmwareIsStagedAndActivated : Prop :=
  (∀ s u src r bs old, AdminAsks s src 0x87 r (fieldsOk r 0 false false true 32 40) (isPrimary r) → u32 r.bytes 36 ≤ 0x400000 →
    (u32 r.bytes 32 = 0 ∧ old = [] ∨ u32 r.bytes 32 ≠ 0 ∧ s.pkg.staging = some (u32 r.bytes 36, old)) → old.length = u32 r.bytes 32 →
    (backupFitted s && mustWait s r 1) = false → streamOf s r (u32 r.bytes 36 - u32 r.bytes 32) = (.inr bs, u) →
    ((old ++ bs).length ≠ u32 r.bytes 36 → bs.length % 4096 = 0 →
      exec (.firmwareStage src) s = .next (settle s
        (reply (stageWrite (u.modPkg (fun p => { p with staging := some (u32 r.bytes 36, old ++ bs) })) (old ++ bs)) r ccSuccess))) ∧
    (∀ v, v = (stageWrite u (old ++ bs)).modPkg (fun p => { p with staging := none }) → (old ++ bs).length = u32 r.bytes 36 →
      imageReject (v.die 0).otp (old ++ bs) true = 0 →
      exec (.firmwareStage src) s = .next (settle s (reply ((flashDies v).foldl (fun s d =>
        dirWrite s d (fun x => { x with staged := true, stagedSlot := stageSlot s d })) v) r ccSuccess)))) ∧
  (∀ s src r, AdminAsks s src 0x88 r (fieldsOk r 1 false false false 32 32) (isPrimary r) → (s.die 0).flash.dir.staged = true →
    (backupFitted s && mustWait s r 1) = false →
    (par r 0 1 = 0 → exec (.firmwareActivate src) s = .next (settle s
      (replyWith (activateDirs s) r ccSuccess 0 (leBytes 8 (activateDirs s).die0.boot.version.toNat)))) ∧
    (par r 0 1 = 1 → exec (.liveActivation src) s = .next (settle s
      (let t := (tookEffect (activateDirs s) r).modPkg (fun p => { p with activating := some (r.src, r.idx) })
       reloadBegins t (if dieUp t 1 then 1 else 0))))) ∧
  (∀ s d, d < 2 → s.pkg.reloading = some d → ∀ t,
    t = resetsFollow portPw (firmwareFresh ((s.modDie d (fun x => { x with stw := { x.stw with pair := if x.stw.pair = 2 then 0 else x.stw.pair } })).modPkg
      (fun p => { p with reloading := none })) d) d →
    exec (.halfReloadDone d false) s = .next (settle s (activationEnds t ccFirmwareRejected)) ∧
    (∀ v, v = (match reloadImage t d with
        | some (img, k) => t.modDie d (fun x => { x with boot := bootOf img k 1 0 })
        | none => t) →
      (d = 1 → dieUp v 0 = true → exec (.halfReloadDone d true) s = .next (settle s (reloadBegins v 0))) ∧
      (d = 0 ∨ dieUp v 0 = false → exec (.halfReloadDone d true) s = .next (settle s (activationEnds v ccSuccess)))))

/-- R263, R421, R485: OTP-COMMIT programs a valid generation into the lowest unused place that verifies on each half that is there and answers the
places; BLACKBOX-READ gives COUNT records from FIRST on, in index order. -/
def Obligations.OtpCommitAndBlackboxRead : Prop :=
  (∀ s u v w src r g verify0 verify1 k0 k1, CommitOk s u src r g → otpDone u 0 g verify0 = (k0, v) → otpDone v 1 g verify1 = (k1, w) →
    (isLost u 0 = false → k0 ≠ 0) → (isLost u 1 = false → k1 ≠ 0) →
    exec (.otpCommit src verify0 verify1) s = .next (settle s (replyWith w r ccSuccess 0 [w8 (k0 + 16 * k1)]))) ∧
  (∀ s src r d bs res, AdminAsks s src 0x8A r (fieldsOk r 0x3FFFFFF false (!isMailbox r) false 32 32) (hasCap s r.fn 3) →
    par r 0 1 = d → 1 ≤ par r 13 13 → par r 13 13 ≤ (if isMailbox r then 1 else 4096) → eB r.bytes % 32 = 0 → mustWait s r d = false →
    (isLost s d && !(s.die (1 - d)).arc.sideband) = false →
    bs = (List.range (par r 13 13)).flatMap (fun i => bbxBytes s d ((par r 1 12 + i) % 4096)) →
    res = leBytes 2 (s.die d).bbx.newest.toNat ++ [w8 (b2n (s.die d).bbx.frozen)] →
    (isMailbox r = true →
      exec (.blackboxRead src) s = .next (settle s (replyWith (mailboxPut s r.fn 0x10 bs) r ccSuccess 0 res))) ∧
    (∀ u, isMailbox r = false → reqPut s r (eB r.bytes) bs = (none, u) →
      exec (.blackboxRead src) s = .next (settle s (replyWith u r ccSuccess 0 res))))

/-- R381: POLICY-LOAD of a valid image places its code and data in the user partitions and leaves the context LOADED. R382: POLICY-CONTROL start runs
a LOADED or FAULTED context from ENTRY with its registers, predicates and saved ports cleared and changes nothing of one that runs, stop leaves it
LOADED, unload EMPTY once no submission is left, and status only answers. -/
def Obligations.PoliciesAreLoadedAndControlled : Prop :=
  (∀ s u v src r d c h b cb db meters, AdminAsks s src 0x8B r (fieldsOk r 0xF false false true 32 32) (hasCap s r.fn 4) →
    par r 0 1 = d → par r 1 3 = c → mustWait s r d = false → isLost s d = false →
    (userCtx (s.die d).stw.core c).st ≠ .running → (userCtx (s.die d).stw.core c).st ≠ .waiting → streamOf s r 176 = (.inr h, u) →
    176 ≤ h.length → meters = (List.range 128).filter (fun m => bit (u8 h (24 + m / 8)) (m % 8)) →
    policyHeaderOk u d c r.fn h meters = true → streamOf u r (176 + 16 * u32 h 8 + u32 h 12) = (.inr b, v) →
    176 + 16 * u32 h 8 + u32 h 12 ≤ b.length →
    placeFor (codeUsed (v.die d).stw.core c) 8192 16384 (u32 b 8) = some cb →
    placeFor (dataUsed (v.die d).stw.core c) 4096 8192 (u32 b 12 / 64) = some db →
    exec (.policyLoad src) s = .next (settle s (reply (policyPlaced v d c r.fn b meters cb db) r ccSuccess))) ∧
  (∀ s src r d c, PolicyAsks s src r 0 d c →
    ((userCtx (s.die d).stw.core c).st = .loaded ∨ (userCtx (s.die d).stw.core c).st = .faulted →
      exec (.policyStart src) s = .next (settle s (policyDone (checkpoint (modCtx s d c (fun x => { x with
        st := .running, pc := x.entry, g := [], p := [], saved := {}, wait := none, sysR := none, fault := 0, delay := none
        squash := false })) d) r d c))) ∧
    ((userCtx (s.die d).stw.core c).st = .running ∨ (userCtx (s.die d).stw.core c).st = .waiting →
      exec (.policyStart src) s = .next (settle s (policyDone s r d c)))) ∧
  (∀ s src r d c, PolicyAsks s src r 1 d c → exec (.policyStop src) s = .next (settle s (policyDone (ctxStopped s d c) r d c))) ∧
  (∀ s src r d c, PolicyAsks s src r 2 d c →
    ((userCtx ((ctxStopped s d c).die d).stw.core c).subs = [] →
      exec (.policyUnload src) s = .next (settle s (policyDone (ctxUnload (ctxStopped s d c) d c) r d c))) ∧
    ((userCtx ((ctxStopped s d c).die d).stw.core c).subs ≠ [] →
      exec (.policyUnload src) s = .next (settle s
        (modCtx (tookEffect (ctxStopped s d c) r) d c (fun x => { x with leaving := some (r.src, r.idx) }))))) ∧
  (∀ s src r d c, PolicyAsks s src r 3 d c → exec (.policyStatus src) s = .next (settle s (policyDone s r d c)))

/-- R440, R451, R454: LINK-CONFIG answers the reachable devices, role and hops; enables and disables ports; sets link vertices in order; and hands
back as the apex's stand-in. R37, R398: TWIN-CONFIG of two lanes that may be twins makes them a pair, and UNTWIN of a pair that stands dissolves it.
-/
def Obligations.LinksAndTwinsAreConfigured : Prop :=
  (∀ s src r, LinkAsks s src r 0 0xFF false →
    exec (.linkStatus src) s = .next (settle s (replyWith s r ccSuccess 0
      (leBytes 4 (fld s.pkg.reach.toNat 0 31) ++ [w8 (deviceRole s), if s.pkg.path then w8 s.pkg.hops.toNat else 0xFF])))) ∧
  (∀ s src r, LinkAsks s src r 1 0xFFF false → mustWait s r 1 = false → ∀ t,
    t = (List.range 4).foldl (fun s p => if isLost s (p / 2) then s else portEnable portPw s p (par r (8 + p) 1 = 1)) s →
    exec (.linkPorts src) s = .next (settle s (replyWith t r ccSuccess 0
      [w8 ((List.range 4).foldl (fun a p => a + b2n ((t.port p).st = .up) * 2 ^ p) 0)]))) ∧
  (∀ s u src r bs, LinkAsks s src r 2 0xFFFF true → par r 8 8 ≠ 0 → par r 8 8 ≤ 128 → streamOf s r (4 * par r 8 8) = (.inr bs, u) →
    4 * par r 8 8 ≤ bs.length → (aliasEntries (par r 8 8) bs).all (aliasOk u) = true → ∀ t, t = (aliasEntries (par r 8 8) bs).foldl aliasSet u →
    exec (.linkAlias src) s = .next (settle s (replyWith t r ccSuccess 0
      [w8 ((aliasEntries (par r 8 8) bs).filter (fun e => (tget {} t.pkg.aliases (u8 e 0)).live)).length]))) ∧
  (∀ s src r p, LinkAsks s src r 3 0xFF false → standoffPort s = some p → s.pkg.acting = true →
    exec (.linkHandback src) s = .next (settle s (reply
      (retree portPw ((s.modPort p (fun x => portItem x (.handback s.pkg.sysId))).modPkg (fun k => { k with acting := false, path := false }))) r ccSuccess))) ∧
  (∀ s src r l t, TwinAsks s src r 0x3FFFF l t → twinBad s l t = false →
    exec (.twinConfig src) s = .next (settle s (reply (twinSet s l t) r ccSuccess))) ∧
  (∀ s src r l t, TwinAsks s src r 0x8003FFFF l t → par r 31 1 = 1 → (twinOf s l).valid = true → (twinOf s l).shadow = false →
    (twinOf s l).other = t → (twinOf s l).failedOver = false → isPartner s l = false →
    exec (.untwin src) s = .next (settle s (reply (twinCleared s l) r ccSuccess)))

/-! ### Queues, mailboxes, doorbells -/

/-- R262, R263: the write of the mailbox's last dword with OWN set issues the request that the mailbox holds and tells the half's firmware. R270: a
doorbell that moves a RUNNING queue's tail forward sets it; one that names an index outside the ring or behind the tail puts the queue into ERROR; one
for an ABSENT or DESTROYING queue is ignored and logged. R55, R63, R255, R265: FN_ADMIN_CTRL.ENABLE starts the admin queue, empty at index 0 with its
mirror written as 0; clearing it stops the queue at its idle point; the configuration of a function gives it its BARs, BAR2 to function 0 alone, and
one that masters the bus again on a link that is up writes what it held, in order. -/
def Obligations.MailboxesDoorbellsAndAdminQueues : Prop :=
  (∀ s who f v t, who.ok = true → f < 8 → mailboxReach s who f = true → (s.func f).request = none → wb v 31 = true →
    t = mailboxPut s f 0x3C (leBytes 4 v.toNat) →
    exec (.mailboxRequest who f v) s = .next (settle s (stewardNotice
      (t.modFunc f (fun x => { x with request := some { bytes := mailboxEntry (mailboxBytes t f), effect := false } })) (fnPort f) f 1))) ∧
  (∀ s f q v, f < 8 → q < 128 → dieUp s (fnPort f) = true → fnPresent s f = true →
    let x := s.queue f q
    let n := 2 ^ x.sizeLog2
    let t := wf v 0 16
    (x.st = .running → t < n → (x.tail + n - x.head) % n ≤ (t + n - x.head) % n →
      exec (.doorbell f q v) s = .next (settle s ((stewardNotice s (fnPort f) f 0).modQueue f q (fun x => { x with tail := t })))) ∧
    (x.st = .running → (n ≤ t ∨ (t + n - x.head) % n < (x.tail + n - x.head) % n) →
      exec (.doorbell f q v) s = .next (settle s (queueFail (stewardNotice s (fnPort f) f 0) f q 0x04 x.tail))) ∧
    (x.st = .absent ∨ x.st = .destroying →
      exec (.doorbell f q v) s = .next (settle s (violate s (fnPort f) vRequest (.fn f) (0x1000 + 8 * q) v.toNat 0)))) ∧
  (∀ s f v, f < 8 → dieUp s (fnPort f) = true → fnPresent s f = true → wb v 0 = true → 4 ≤ wf v 8 4 → wf v 8 4 ≤ 12 →
    wb (s.func f).adminCtrl 0 = false → (s.func f).ready = true → ringOk s (s.func f).adminBase.toNat (64 * 2 ^ wf v 8 4) = true →
    (s.func f).adminMirror.toNat % 4 = 0 →
    exec (.adminEnable f v) s = .next (settle s (mirrorWrite
      ((s.modFunc f (fun x => { x with adminCtrl := w32 (v.toNat &&& 0xF01) })).modQueue f 0 (fun _ => {
        st := .running, ring := (s.func f).adminBase, mirror := (s.func f).adminMirror
        sizeLog2 := wf (w32 (v.toNat &&& 0xF01)) 8 4 })) f 0 false))) ∧
  (∀ s f v, f < 8 → dieUp s (fnPort f) = true → fnPresent s f = true → wb v 0 = false → 4 ≤ wf v 8 4 → wf v 8 4 ≤ 12 →
    wb (s.func f).adminCtrl 0 = true → wf (s.func f).adminCtrl 8 4 = wf v 8 4 →
    exec (.adminDisable f v) s = .next (settle s
      (adminStopped (s.modFunc f (fun x => { x with adminNew := some (put x.adminCtrl 0 1 0) })) f))) ∧
  (∀ s f d0 bme bar0 bar2, f < 8 → ∀ t,
    t = s.modFunc f (fun x => { x with d0 := d0, bme := bme, bar0 := bar0, bar2 := if f = 0 then bar2 else none }) →
    ((d0 && bme && portUp s (fnPort f)) = true → exec (.busMasterChange f d0 bme bar0 bar2) s = .next (settle s
      ((s.func f).held.foldl postOut (t.modFunc f (fun x => { x with held := [] }))))) ∧
    ((d0 && bme && portUp s (fnPort f)) = false → exec (.busMasterChange f d0 bme bar0 bar2) s = .next (settle s t)))

/-- R271: the entry fetch of the function whose turn it is at its port takes the next entry of its admin queue first, else of the work queue whose
turn it is, which then hands the turn on, and the port's turn goes to the next function; a fixed entry whose OWN bit is set is put in flight. R274:
publishing the head of a RUNNING queue advances it over the entries at its front that have completed, writes the mirror and, with NOTIFY, raises the
queue's source. -/
def Obligations.EntriesAreFetchedAndHeadsPublished : Prop :=
  (∀ s u f, f < 8 → frontTurn s (fnPort f) = some f → takeEntry s f 0 = some u →
    exec (.entryFetch f) s = .next (settle s (u.modDie (fnPort f) (fun x => { x with frontRr := (f + 1) % 4 })))) ∧
  (∀ s u f q before after, f < 8 → frontTurn s (fnPort f) = some f →
    rangeL (s.func f).rr (128 - (s.func f).rr) ++ rangeL 1 ((s.func f).rr - 1) = before ++ q :: after → takeEntry s f 0 = none →
    (∀ p ∈ before, takeEntry s f p = none) → 0 ∉ before → q ≠ 0 → takeEntry s f q = some u →
    exec (.entryFetch f) s = .next (settle s ((u.modFunc f (fun x => { x with rr := if q = 127 then 1 else q + 1 })).modDie (fnPort f)
      (fun x => { x with frontRr := (f + 1) % 4 })))) ∧
  (∀ s u f q e, queueOffers s f q = true → (s.queue f q).variable_ = false → 1 ≤ (s.queue f q).sizeLog2 →
    ((s.queue f q).tail + 2 ^ (s.queue f q).sizeLog2 - (s.queue f q).fetch) % 2 ^ (s.queue f q).sizeLog2 ≠ 0 →
    fetchGet s (fnParty s f) ((s.queue f q).ring.toNat + 64 * ((s.queue f q).fetch % 2 ^ (s.queue f q).sizeLog2)) 64 = (.ok e, u) →
    eOwn e = true → u.queue f q = s.queue f q →
    takeEntry s f q = some ((u.modPkg (fun p => { p with fetched := p.fetched + 1 })).modQueue f q
      (fun x => inFlight x e [] 1 u.pkg.fetched u.edges))) ∧
  (∀ s f q gone e t, f < 8 → q < 128 → dieUp s (fnPort f) = true → (s.queue f q).st = .running →
    (s.queue f q).flight.takeWhile (·.done) = gone ++ [e] →
    t = mirrorWrite (quarPassed (s.modQueue f q (fun x => { x with
        head := (e.idx + e.len) % 2 ^ (s.queue f q).sizeLog2, flight := x.flight.dropWhile (·.done) })) f q
      (fun i => (gone ++ [e]).any (fun e => e.idx = i))) f q false →
    exec (.headPublish f q) s = .next (settle s (destroyOver
      (if (s.queue f q).notify then raisePulse t f q kindQueue ((e.idx + e.len) % 2 ^ (s.queue f q).sizeLog2) else t) f q)))

/-! ### The event controller -/

/-- R302, R304, R308: EVC_HEAD moves the head as far as the tail; at the tail READY and the counts clear, else a message is due while INT is set.
EVC_ACK of a source in service takes it out of service, samples its level and applies a waiting route. R309: a route that R309 allows takes ENABLE at
once, and TARGET, SENSE and VERTEX at the source's idle point; a source that becomes enabled is sampled. -/
def Obligations.EventHeadsAcksAndRoutes : Prop :=
  (∀ s t v, t < 10 → dieUp s (targetDie t) = true → (s.target t).live = true →
    let g := s.target t
    let n := 2 ^ g.sizeLog2
    let h := wf v 0 12
    h < n → (h + n - g.head) % n ≤ (g.tail + n - g.head) % n →
    (h = g.tail → exec (.evcHeadWrite t v) s = .next (settle s
      ((s.modTarget t (headAt h)).modTarget t (fun x => { x with ready := false, paces := [] })))) ∧
    (h ≠ g.tail → g.ready = true → exec (.evcHeadWrite t v) s = .next (settle s (messageDue (s.modTarget t (headAt h)) t))) ∧
    (h ≠ g.tail → g.ready = false → exec (.evcHeadWrite t v) s = .next (settle s (s.modTarget t (headAt h))))) ∧
  (∀ s t v, t < 10 → dieUp s (targetDie t) = true → 256 ≤ wf v 0 10 → wf v 0 10 < 768 → (s.source (wf v 0 10)).inService = true →
    routeTarget (s.source (wf v 0 10)) = t →
    exec (.evcAck t v) s = .next (settle s
      (routeApply (sampleLevel (s.modSource (wf v 0 10) (fun x => { x with inService := false })) (wf v 0 10)) (wf v 0 10)))) ∧
  (∀ s who d n v u, who.ok = true → d < 2 → 256 ≤ n → n < 768 → portReach s who d = true → sourceDie n = d → ¬(516 ≤ n ∧ n < 520) →
    ¬(524 ≤ n ∧ n < 528) → routeOk s n v = true →
    u = routeApply (s.modSource n (fun x => { x with
      next := if wf (s.source n).route 0 6 = wf (w32 (wf v 0 7 + 256 * wf v 8 11)) 0 6 ∧
          wf (s.source n).route 8 11 = wf (w32 (wf v 0 7 + 256 * wf v 8 11)) 8 11 then none
        else some (w32 (wf v 0 7 + 256 * wf v 8 11))
      route := put (s.source n).route 6 1 (wf (w32 (wf v 0 7 + 256 * wf v 8 11)) 6 1) })) n →
    exec (.evcRouteWrite who d n v) s = .next (settle s
      (if !routeOn (s.source n) && wb (w32 (wf v 0 7 + 256 * wf v 8 11)) 6 then sampleLevel u n else u)))

/-- R305, R306, R313: a moderation value that is no reserved encoding takes effect for the target's group, or on both dies and for every target where
the group is shared. A pair whose condition holds is released: its count and timer clear, READY is set, and a message is due when INT rises. R300,
R302–R304: the ring writer of a live target with room that has not written for 4 ticks writes the record of the source whose turn it is, and its group
counts it; clearing a vector's mask sends its pending message while INT is still set. -/
def Obligations.ModerationRecordsAndMessages : Prop :=
  (∀ s t g v, t < 8 → g < 16 → dieUp s (targetDie t) = true → modOk v = true →
    exec (.moderationWrite (.fn t) t g v) s = .next (settle s (modApplied
      (s.modTarget t (fun x => { x with mods := tset 0x00010100 x.mods g (w32 (v.toNat - fld v.toNat 1 7 * 2)) })) t g (modOf s t g)))) ∧
  (∀ s t g v, t < 10 → 16 ≤ g → g < 48 → portReach s (.fn 0) 0 = true → modOk v = true →
    exec (.moderationWrite (.fn 0) t g v) s = .next (settle s ((List.range 10).foldl (fun u k => modApplied u k g (modOf s 0 g))
      ((s.modDie 0 (fun x => { x with smod := tset 0x00010100 x.smod g (w32 (v.toNat - fld v.toNat 1 7 * 2)) })).modDie 1
        (fun x => { x with smod := tset 0x00010100 x.smod g (w32 (v.toNat - fld v.toNat 1 7 * 2)) }))))) ∧
  (∀ s t g u, t < 10 → g < 48 → groupDue s t g = true → u = s.modTarget t (fun x => { x with paces := tset {} x.paces g {}, ready := true }) →
    exec (.moderationTimer t g) s = .next (settle s (if !intOf (s.target t) && intOf (u.target t) then messageDue u t else u))) ∧
  (∀ s t n o u, t < 10 → (s.target t).live = true → ((s.target t).tail + 1) % 2 ^ (s.target t).sizeLog2 ≠ (s.target t).head →
    writerRuns s t = true → (∀ a, (s.target t).wroteAt = some a → a + 4 ≤ s.edges) → nextSource s t = some n → takeOcc s t n = some (o, u) →
    exec (.eventRecordWrite t) s = .next (settle s (recordStands u t n (s.target t) o))) ∧
  (∀ s f, f < 8 → dieUp s (fnPort f) = true →
    let u := s.modTarget f (fun g => { g with masked := false })
    ((s.target f).masked = true → (s.target f).msixPending = true → intOf (s.target f) = true →
      exec (.msixUnmask f) s = .next (settle s (messageDue u f))) ∧
    ((s.target f).masked = true → (s.target f).msixPending = true → intOf (s.target f) = false →
      exec (.msixUnmask f) s = .next (settle s (u.modTarget f (fun g => { g with msixPending := false })))) ∧
    ((s.target f).masked = false ∨ (s.target f).msixPending = false → exec (.msixUnmask f) s = .next (settle s u)))

/-! ### Registers -/

/-- R66, R72, R201, R231, R419: a whole dword that function 0 writes to PKG_WIN_ENFORCE, BBX_TRIGGER, a VTX_TMR_PERIOD or an SNS_GAIN in a die's port
space gives that register its value, and a write of part of a dword to any register is refused and logged. -/
def Obligations.RegisterWriteGivesValue : Prop :=
  ∀ s d v, d < 2 → portReach s (.fn 0) d = true →
    (∀ off, off < 0x1000000 → off % 4 = 0 →
      exec (.registerWrite (.fn 0) true (d * 0x1000000 + off) v none false) s = .next (settle s (violate s d vPartialWrite (.fn 0) off v.toNat 0))) ∧
    ((s.pkg.split && s.pkg.custody != d) = false →
      exec (.registerWrite (.fn 0) true (d * 0x1000000 + 0x40) v none true) s =
        .next (settle s (s.modPkg (fun p => { p with enforce := w32 (wf v 0 8) })))) ∧
    (exec (.registerWrite (.fn 0) true (d * 0x1000000 + 0x7008) v none true) s =
      .next (settle s (s.modDie d (fun x => { x with bbx := { x.bbx with trigger := w32 (wf v 0 20) } })))) ∧
    (∀ t, t < 16 → exec (.registerWrite (.fn 0) true (d * 0x1000000 + 0x10204 + 16 * t) v none true) s =
      .next (settle s (s.modTimer (16 * d + t) (fun x => { x with period := v })))) ∧
    (∀ i, i < 32 → exec (.registerWrite (.fn 0) true (d * 0x1000000 + 0x34000 + 256 * i) v none true) s =
      .next (settle s (s.modInput (32 * d + i) (fun x => { x with gain := v }))))

/-- R59, R251: a read of a wide register's low dword latches its high part, by function 0 over its BAR2 or by the die's steward, and a read of
MTR_SNAP0 latches the meter's snapshot. R69, R70: at its idle point a block takes its waiting registers: a lane, a cluster's CLU_SCHED, an admin queue
that stops, a channel's clear of ENABLE, a route, a link port's TX_PRESET. -/
def Obligations.ReadsLatchAndIdlePointsApply : Prop :=
  (∀ s who d off w, d < 2 → off < 0x800000 → off % 4 = 0 → (who = .fn 0 ∨ who = .steward d) → portReach s who d = true →
    portReg s d off = some (.wide w) → ¬(0x30000 ≤ off ∧ off < 0x34000 ∧ off % 256 = 0x20) →
    exec (.lowDwordRead who true (d * 0x1000000 + off)) s =
      .next (settle s (s.modDie d (fun x => { x with latches := tset 0 x.latches (off + 4) (w32 (w / 2 ^ 32)) })))) ∧
  (∀ s m, m < 128 → dieUp s (m / 64) = true →
    exec (.snapshotLatchRead m) s = .next (settle s (s.modMeter m (fun x => { x with latch := snapRead s m })))) ∧
  (∀ s n, n < 384 → exec (.idlePointApply (.lane n)) s = .next (settle s (laneStreams (idleTaken s n) n))) ∧
  (∀ s c w, c < 32 → (s.cluster c).schedNew = some w → clusterIdle s c = true →
    exec (.idlePointApply (.cluster c)) s = .next (settle s (s.modCluster c (fun x => { x with sched := w, schedNew := none })))) ∧
  (∀ s f, f < 8 → exec (.idlePointApply (.adminQueue f)) s = .next (settle s (adminStopped s f))) ∧
  (∀ s n, n < 128 → (s.xfr n).disable = true → (s.xfr n).st ≠ .running →
    exec (.idlePointApply (.channel n)) s = .next (settle s (s.modXfr n (fun x => { x with cfg := put x.cfg 31 1 0, disable := false })))) ∧
  (∀ s n r, 256 ≤ n → n < 768 → (s.source n).next = some r → sourceIdle (s.source n) = true →
    exec (.idlePointApply (.route n)) s = .next (settle s
      (sampleLevel (s.modSource n (fun x => { x with route := put r 6 1 (wf (s.source n).route 6 1), next := none })) n))) ∧
  (∀ s p w, p < 4 → (s.port p).cfgNew = some w → (s.port p).st ≠ .up →
    exec (.idlePointApply (.linkPort p)) s = .next (settle s (s.modPort p (fun x => { x with cfg := put w 0 1 (wf x.cfg 0 1), cfgNew := none }))))

/-- R64–R68: bytes written to a window entry wait in the die's staging until byte 15's dword commits the entry; PKG_WIN_INVAL marks every region whose
cache must drop, and a region drops what it names. -/
def Obligations.WindowTableWrites : Prop :=
  (∀ s who d e first bs old, who.ok = true → d < 2 → e < 256 → bs ≠ [] → first + bs.length ≤ 12 → portReach s who d = true →
    (s.pkg.split && s.pkg.custody != d) = false →
    old = (match (s.die d).winStage with | some (k, t) => if k = e then t else [] | none => []) →
    exec (.windowEntryWrite who d e first bs) s = .next (settle s (s.modDie d (fun x => { x with
      winStage := some (e, (enumL first bs).foldl (fun t b => tset none t b.1 (some b.2)) old) })))) ∧
  (∀ s who d e bs, who.ok = true → d < 2 → e < 256 → bs.length = 16 → portReach s who d = true →
    (s.pkg.split && s.pkg.custody != d) = false → winBad (winOf bs) = false → (s.die (1 - d)).winStage = none →
    exec (.windowEntryWrite who d e 0 bs) s = .next (settle s
      ((s.modDie d (fun x => { x with winStage := none })).modPkg (fun p => { p with windows := tset {} p.windows e (winOf bs) })))) ∧
  (∀ s who d v, who.ok = true → d < 2 → portReach s who d = true → (s.pkg.split && s.pkg.custody != d) = false → wb s.pkg.inval 31 = false →
    exec (.windowInvalidate who d v) s = .next (settle s (winInval s who d v))) ∧
  (∀ s r, r < 8 → (s.region r).dropPending = true → (r / 4 = s.pkg.custody ∨ arcUp s = true) →
    exec (.windowCacheDrop r) s = .next (settle s (invalSettled (s.modRegion r (fun x => { x with
      cache := if wb s.pkg.inval 8 then [] else x.cache.filter (fun e => e.1 != wf s.pkg.inval 0 8), dropPending := false })))))

/-- R167, R231, R245, R246: a LANE_CFG write enables a disabled lane with its fields; an SNS_WIN write gives a window its register and holds its level
for ten ticks; MTR_SET0–6 are staged in the die's one buffer and MTR_SET7 commits a valid set; CLEAR waits for the meter's slot. -/
def Obligations.LaneWindowAndMeterWrites : Prop :=
  (∀ s who n v t, who.ok = true → n < 384 → portReach s who (laneDie n) = true → cfgBad s n v = false → laneOn (s.lane n) = false →
    t = s.modLane n (fun l =>
      let x := { l with
        cfg := put (v &&& cfgMask) 31 1 0, opt := if wf (v &&& cfgMask) 0 4 != personality l then 0 else l.opt
        shadow := if wf (v &&& cfgMask) 0 4 != personality l then tdel 0x10 l.shadow else l.shadow }
      if wb (v &&& cfgMask) 31 then laneEnabled s.edges x else x) →
    exec (.laneCfgWrite who n v) s = .next (settle s (laneStreams (safeEnds (pinsKept s t n) n) n))) ∧
  (∀ s who i v, who.ok = true → i < 64 → portReach s who (i / 32) = true → wf v 18 2 ≠ 3 → wf v 18 2 ≠ 0 →
    wf (s.input i).win0.reg 0 20 ≠ wf (w32 (wf v 0 24)) 0 20 → wf (w32 (wf v 0 24)) 18 2 ≠ 0 →
    exec (.snsWinWrite who i 0 v) s = .next (settle s (s.modInput i (fun x => { x with
      win0 := { x.win0 with reg := w32 (wf v 0 24), hold := some (s.edges + 10) } })))) ∧
  (∀ s who m v, who.ok = true → m < 128 → portReach s who (m / 64) = true →
    (∀ w, w < 7 → exec (.mtrSetWrite who m w v) s = .next (settle s
      (s.modDie (m / 64) (fun x => { x with meterStage := some (m, tset none (meterStaged s m) w (some v)) })))) ∧
    (∀ b, b = ((List.range 7).map (fun i => match tget none (meterStaged s m) i with
          | some w => leBytes 4 w.toNat
          | none => sub (match (s.meter m).next with | some b => b | none => sub (s.meter m).settings 0 32) (4 * i) 4)).flatten ++
        leBytes 4 v.toNat → settingsOk (m / 64) b = true →
      exec (.mtrSetWrite who m 7 v) s =
        .next (settle s (meterCommit (s.modDie (m / 64) (fun x => { x with meterStage := none })) m b)))) ∧
  (∀ s m, m < 128 → dieUp s (m / 64) = true →
    exec (.mtrClear m) s = .next (settle s (s.modMeter m (fun x => { x with clear := true }))))

/-- R227, R335, R419: CHD_CTRL.REARM arms a SPENT chord again and CLEAR zeroes its counters; ARB_CTRL.CLEAR zeroes the arbiter's; FREEZE and UNFREEZE
stop and resume a black box. R201, R203, R232, R235: starting a timer with a PERIOD loads it, stopping it zeroes its count, and an expiry fires its
vertex and reloads a periodic timer or stops a one-shot one; a calibration of a die takes 40 ticks, a START meanwhile is ignored, and it ends with its
reference and zero codes recorded. -/
def Obligations.ControlBitsTimersAndCalibration : Prop :=
  (∀ s who c, who.ok = true → c < 4096 → portReach s who (chordDie c) = true → (s.chord c).st = .spent → isStandby s c = false →
    exec (.chdRearm who c) s = .next (settle s (armEntry s c))) ∧
  (∀ s c, c < 4096 → dieUp s (chordDie c) = true →
    exec (.chdClear c) s = .next (settle s (s.modChord c (fun x => { x with firings := 0, suppressed := 0, claimsLost := 0 })))) ∧
  (∀ s r, r < 8 → dieUp s (r / 4) = true →
    exec (.arbClear r) s = .next (settle s (s.modRegion r (fun x => { x with
      arb := { x.arb with dead := 0, preempts := 0, grants := [], maxWait := [], waitCycles := [] } })))) ∧
  (∀ s d, d < 2 → dieUp s d = true → (s.die d).bbx.frozen = false →
    exec (.bbxFreeze d) s = .next (settle s (withSourceEdge s (514 + 8 * d) (fun s => s.modDie d (fun x => { x with
      bbx := { x.bbx with frozen := true, cause := 4, post := none } }))))) ∧
  (∀ s d, d < 2 → dieUp s d = true → (s.die d).bbx.restored = false →
    exec (.bbxUnfreeze d) s = .next (settle s (withSourceEdge s (514 + 8 * d) (fun s => s.modDie d (fun x => { x with bbx := { x.bbx with
      frozen := false, cause := 0, post := none, restored := false
      savedRecords := if x.bbx.restored then 0 else x.bbx.savedRecords
      copy := if x.bbx.restored then none else x.bbx.copy } }))))) ∧
  (∀ s who t p, who.ok = true → t < 32 → portReach s who (t / 16) = true → (s.timer t).period ≠ 0 →
    exec (.timerRun who t p) s = .next (settle s (s.modTimer t (fun x => { x with run := true, periodic := p, loaded := x.period, left := x.period })))) ∧
  (∀ s t p, t < 32 → dieUp s (t / 16) = true →
    exec (.timerStop t p) s = .next (settle s (s.modTimer t (fun x => { x with run := false, periodic := p, left := 0 })))) ∧
  (∀ s t, t < 32 → (s.timer t).run = true → (s.timer t).left = 0 →
    ((s.timer t).periodic = true → exec (.vertexTimerExpiry t) s =
      .next (settle s (fireOnce portPw (s.modTimer t (fun x => { x with left := x.loaded })) (1440 + t)))) ∧
    ((s.timer t).periodic = false → exec (.vertexTimerExpiry t) s =
      .next (settle s (fireOnce portPw (s.modTimer t (fun x => { x with run := false })) (1440 + t))))) ∧
  (∀ s d, d < 2 → dieUp s d = true → exec (.calibrationStart d) s = .next (settle s
    (s.modDie d (fun x => if x.calBusy then x else { x with calBusy := true, calEnd := s.edges + 40 })))) ∧
  (∀ s d codes, d < 2 → (s.die d).calBusy = true → (s.die d).calEnd ≤ s.edges → codes.length = 4 →
    exec (.calibrationDone d codes) s = .next (settle s (s.modDie d (fun x => { x with
      calBusy := false
      adcRef := (enumL 0 codes).foldl (fun t e => tset 0 t e.1 (w32 (e.2.1.toNat + 4096 * e.2.2.toNat))) x.adcRef }))))

/-- R18, R19: the reset of an IN_SERVICE unit of the accessor's die starts: the unit is RESETTING, and what ran on it is cut, pauses, halts or stops
as its type says; a spare engine pauses the lanes of the cluster it serves. R18, R29, R414, R468: a unit whose self-test passes returns to service;
PWR_RESET of a region that is not being reset resets it, its reset then ends; RESET_LOST gives every lost half its die reset. -/
def Obligations.UnitAndRegionResets : Prop :=
  (∀ s who d, who.ok = true → d < 2 → portReach s who d = true →
    (∀ n sent recv, n < 384 → laneDie n = d → (s.lane n).unit = .inService →
      exec (.unitResetLane who d n sent recv) s = .next (settle s (laneUnitReset portPw s n sent recv))) ∧
    (∀ c, c < 32 → c / 16 = d → (s.cluster c).engineUnit = .inService →
      exec (.unitResetEngine who d c) s = .next (settle s (pauseLanes (s.modCluster c (fun x => { x with engineUnit := .resetting })) c true))) ∧
    (∀ n, n < 2048 → slotDie n = d → (s.slot n).unit = .inService →
      exec (.unitResetSlot who d n) s = .next (settle s
        (haltSlot portPw (s.modSlot n (fun x => { x with unit := .resetting })) n unitResetReason))) ∧
    (∀ n, n < 128 → n / 64 = d → (s.xfr n).unit = .inService →
      exec (.unitResetChannel who d n) s = .next (settle s (xfrEnd (s.modXfr n (fun x => { x with unit := .resetting })) n))) ∧
    (∀ m, m < 128 → m / 64 = d → (s.meter m).unit = .inService →
      exec (.unitResetMeter who d m) s = .next (settle s (s.modMeter m (fun x => { x with unit := .resetting, resetPending := true })))) ∧
    (∀ r t, r < 8 → r / 4 = d → (s.region r).spareUnit = .inService → (s.region r).spareBad = false →
      t = s.modRegion r (fun x => { x with spareUnit := .resetting }) →
      exec (.unitResetEngine who d (32 + r)) s =
        .next (settle s (match (s.region r).spareFor with | some c => pauseLanes t c true | none => t))) ∧
    (∀ c, c < 4096 → chordDie c = d → (s.chord c).unit = .inService →
      exec (.unitResetChord who d c) s = .next (settle s ((chordDropped portPw s c).modChord c (fun x => { x with unit := .resetting }))))) ∧
  (∀ s n, n < 2048 → (s.slot n).unit = .resetting → (s.slot n).st = .free →
    exec (.unitResetDone 3 n true) s = .next (settle s (s.modSlot n (fun x => { x with unit := .inService })))) ∧
  (∀ s n, n < 128 → (s.xfr n).unit = .resetting →
    exec (.unitResetDone 4 n true) s = .next (settle s (s.modXfr n (fun x => { x with unit := .inService })))) ∧
  (∀ s n, n < 128 → (s.meter n).unit = .resetting → (s.meter n).resetPending = false →
    exec (.unitResetDone 5 n true) s = .next (settle s (s.modMeter n (fun x => { x with unit := .inService })))) ∧
  (∀ s c, c < 4096 → (s.chord c).unit = .resetting →
    exec (.unitResetDone 6 c true) s = .next (settle s (s.modChord c (fun x => { x with unit := .inService })))) ∧
  (∀ s who d q, who.ok = true → d < 2 → q < 4 → portReach s who d = true → (s.region (4 * d + q)).inReset = false →
    exec (.regionReset who d q) s = .next (settle s (regionResetAt portPw s (4 * d + q)))) ∧
  (∀ s r, r < 8 → exec (.regionResetDone r) s = .next (settle s (s.modRegion r (fun x => { x with inReset := false })))) ∧
  (∀ s d, d < 2 → portReach s (.steward d) d = true → (s.pkg.split && s.pkg.custody != d) = false →
    exec (.resetLost (.steward d)) s = .next (settle s (resetLostNow s)))

/-- R319–R323, R328–R333: START of an idle direct channel whose checks pass runs it, STOP ends a run, a piece moves its bytes from source to
destination, and a run that has counted all of them is DONE; a phase of a region bus advances its arbiter by one cycle. -/
def Obligations.ChannelsAndBus : Prop :=
  (∀ s u who ch, who.ok = true → ch < 128 → portReach s who (ch / 64) = true → (s.xfr ch).st ≠ .running → xfrOn (s.xfr ch).cfg = true →
    xfrDirect (s.xfr ch).cfg = true → (s.xfr ch).unit = .inService → xfrStartFail s ch = (none, u) →
    exec (.xfrStart who ch) s = .next (settle s (u.modXfr ch (fun x => { x with
      st := .running, code := 0, done := 0, wraps := 0, acc := xfrAcc x.cfg, rx := [] })))) ∧
  (∀ s ch, ch < 128 → dieUp s (ch / 64) = true → (s.xfr ch).st = .running →
    exec (.xfrStop ch) s = .next (settle s (xfrFail s ch xfrStopped))) ∧
  (∀ s u v ch bs, ch < 128 → regionRuns s (ch / 16) = true → (s.xfr ch).st = .running → xfrStream (s.xfr ch).cfg = false →
    (s.xfr ch).done.toNat < (s.xfr ch).count.toNat →
    let x := s.xfr ch
    crossesDown s ch (x.src.toNat + x.done.toNat) (xfrParty s ch).fn = false →
    crossesDown s ch (x.dst.toNat + x.done.toNat) (xfrParty s ch).fn = false →
    rawRead s (xfrParty s ch) (x.src.toNat + x.done.toNat) (min 256 (x.count.toNat - x.done.toNat)) = (.ok bs, u) →
    rawWrite portPw u (xfrParty s ch) (x.dst.toNat + x.done.toNat) bs .data false = (none, v) →
    exec (.xfrRunPiece ch) s = .next (settle s (v.modXfr ch (fun x => { x with
      done := x.done + w32 bs.length, acc := if xfrCheck x.cfg = 0 then x.acc else accFeed x.acc bs })))) ∧
  (∀ s ch, ch < 128 → regionRuns s (ch / 16) = true → (s.xfr ch).st = .running → (s.xfr ch).done = (s.xfr ch).count →
    xfrStore (s.xfr ch).cfg = false → xfrWrap (s.xfr ch).cfg = false →
    exec (.xfrCountEnd ch) s = .next (settle s (xfrRaise (s.modXfr ch (fun x => xfrIdleApply { x with
      check := if xfrCheck (s.xfr ch).cfg = 0 then 0 else accResult (s.xfr ch).acc, st := .done })) ch))) ∧
  (∀ s r reqs w, r < 8 → regionRuns s r = true → arbOk reqs = true →
    exec (.arbPhase r reqs w) s = .next (settle s (s.modRegion r (fun x => { x with arb := arbCycle x.arb reqs w }))))

/-! ### Vertices, chords, meters and bus devices -/

/-- R169, R188, R190, R198, R199, R514: a level that its filter accepts at a lane's pin or a fast vertex input is the input's, with what it says of
the lane's bus, and its vertex takes it after its inversion. R198, R231, R505: a threshold crossing that a window's filter accepts gives the window
and its vertex the comparator's level, the end of a hold does the same; a die temperature sets the two thermal levels with their hysteresis; PFAIL_N
released releases V1494. -/
def Obligations.InputsComparatorsAndThermometers : Prop :=
  (∀ s n pinB lvl samples phase, n < 384 → dieUp s (laneDie n) = true → ballLanes s n = [n] →
    filterAccepts (pinFilter s n phase) samples = true → s.turned.any (fun t => t.vertex = 2 * n + b2n pinB && !t.inv) = false → ∀ t,
    t = s.modLane n (fun l => busSeen s.edges pinB (if pinB then { l with levelB := lvl } else { l with levelA := lvl })) →
    exec (.lanePinChange n pinB lvl samples phase) s = .next (settle s
      (vertexSet portPw t (2 * n + b2n pinB) (pinAsserted t (2 * n + b2n pinB))))) ∧
  (∀ s i lvl ns samples, i < 32 → dieUp s (i / 16) = true → wf (tget 0 s.fvCfg i) 4 4 ≠ 0 →
    filterAccepts (wf (tget 0 s.fvCfg i) 4 4) samples = true → s.turned.any (fun t => t.vertex = 768 + i && !t.inv) = false →
    lvl ≠ wb (tget 0 s.fvCfg i) 0 → ∀ t,
    t = { s with fvRaw := tset false s.fvRaw i lvl } →
    exec (.fastVertexChange i lvl ns samples) s = .next (settle s (vertexSet portPw t (768 + i) true))) ∧
  (∀ s i k code samples, i < 64 → k < 2 → dieUp s (i / 32) = true → (winOfInput (s.input i) k).hold = none →
    windowMet (winOfInput (s.input i) k) code ≠ (winOfInput (s.input i) k).level →
    filterAccepts (wf (winOfInput (s.input i) k).reg 20 4) samples = true →
    exec (.comparatorCrossing i k code samples) s = .next (settle s
      (vertexSet portPw (modWindow s i k (fun w => { w with level := windowMet (winOfInput (s.input i) k) code, hold := none })) (800 + 2 * i + k)
        (windowMet (winOfInput (s.input i) k) code)))) ∧
  (∀ s i k code h, i < 64 → k < 2 → dieUp s (i / 32) = true → (winOfInput (s.input i) k).hold = some h → h ≤ s.edges →
    exec (.comparatorHoldEnd i k code) s = .next (settle s
      (vertexSet portPw (modWindow s i k (fun w => { w with level := windowMet (winOfInput (s.input i) k) code, hold := none })) (800 + 2 * i + k)
        (windowMet (winOfInput (s.input i) k) code)))) ∧
  (∀ s d c warn crit, d < 2 → dieUp s d = true → warn = (if (s.die d).thermWarn then decide (105 ≤ c) else decide (110 < c)) →
    crit = (if (s.die d).thermCrit then decide (115 ≤ c) else decide (120 < c)) →
    exec (.thermalCrossing d c) s = .next (settle s (vertexSet portPw (vertexSet portPw
      (s.modDie d (fun x => { x with thermWarn := warn, thermCrit := crit })) (1488 + 2 * d) warn) (1489 + 2 * d) crit))) ∧
  (∀ s n, 2 ≤ n → exec (.pfailReleased n) s = .next (settle s (vertexSet portPw (s.modPkg (fun p => { p with pfail := false })) 1494 false)))

/-- R212, R216, R219, R223–R225: a chord with a match launches: an ARMED chord without claims counts the firing, stamps it, puts its follow-on chain
on its cluster's list with the event that fired it, and is FOLLOWING; at the end of its hold-off a REARM chord is ARMED again. R186, R207–R209: a due
stroke drives or releases its pin and the next becomes due after its delay, a pulse drives its pin until its width is over and then returns it; a lead
frame takes its pins at the end of its START delay with its first bit, the clock at CPOL or, with CPHA, at its first edge, and at its end leaves the
clock at CPOL and data released. -/
def Obligations.ChordsFireAndLeadSegmentsRun : Prop :=
  (∀ s c cuts, c < 4096 → dieUp s (chordDie c) = true → (s.chord c).matched ≠ none →
    exec (.chordFire c cuts) s = .next (settle s (chordLaunch portPw s c cuts))) ∧
  (∀ s c cuts m, c < 4096 → dieUp s (chordDie c) = true → (s.chord c).matched = some m → (s.chord c).st = .armed → hasStandby s c = false →
    recClaims (s.chord c).record = [] → recChain (s.chord c).record ≠ 0 →
    ∃ t, exec (.chordFire c cuts) s = .next t ∧ (t.chord c).st = .following ∧ (t.chord c).matched = none ∧ (t.chord c).launch = s.edges ∧
      (t.chord c).firings = (s.chord c).firings + 1 ∧ (t.chord c).fireTime = s.pilot ∧ (t.chord c).chainLive = true ∧
      (t.chord c).fireInfo = w32 (trigVertex (recTrigger (s.chord c).record m.trigger) + 4096 * m.trigger) ∧
      (∀ k, k ≠ c → t.chord k = s.chord k) ∧
      (t.cluster (chordCluster c)).chords = (s.cluster (chordCluster c)).chords ++ [{
        chord := c, gen := (s.chord c).gen, chain := w64 (recChain (s.chord c).record), laneRes := w32 (lostClaims (t.chord c))
        lastIn := w32 (trigVertex (recTrigger (s.chord c).record m.trigger) + 4096 * m.trigger) }]) ∧
  (∀ s c, c < 4096 → dieUp s (chordDie c) = true → (s.chord c).st = .holdoff →
    (s.chord c).launch + recHoldoff (s.chord c).record ≤ s.edges →
    exec (.chordHoldoffEnd c) s = .next (settle s (armEntry s c))) ∧
  (∀ s n x m pinB, n < 384 → launcherRuns s n = true → (s.lane n).lead = some x → x.frame = false → x.closed = false → x.pulse = none →
    x.due ≤ s.edges → x.stroke < strokeCount x.param.toNat → leadPin n (strokePin x.seg x.stroke) = (m, pinB) →
    (strokeAction x.seg x.stroke = 0 → exec (.leadStroke n) s = .next (settle s
      ((driveTo s m pinB true).modLane n (fun l => { l with lead := some (nextStroke x s.edges) })))) ∧
    (strokeAction x.seg x.stroke = 1 → exec (.leadStroke n) s = .next (settle s
      ((driveTo s m pinB false).modLane n (fun l => { l with lead := some (nextStroke x s.edges) })))) ∧
    (strokeAction x.seg x.stroke = 2 → exec (.leadStroke n) s = .next (settle s
      ((setDrive s m pinB (some .hiz)).modLane n (fun l => { l with lead := some (nextStroke x s.edges) })))) ∧
    (3 ≤ strokeAction x.seg x.stroke → exec (.leadStroke n) s = .next (settle s
      ((driveTo s m pinB (strokeAction x.seg x.stroke = 3)).modLane n (fun l => { l with lead := some { x with
        pulse := some { pin := strokePin x.seg x.stroke, before := pinHeld s m pinB, until_ := s.edges + strokeWidth x.seg x.stroke } } }))))) ∧
  (∀ s n x u, n < 384 → launcherRuns s n = true → (s.lane n).lead = some x → x.pulse = some u → u.until_ ≤ s.edges →
    exec (.pulseEnd n) s = .next (settle s
      ((setDrive s (leadPin n u.pin).1 (leadPin n u.pin).2 u.before).modLane n (fun l => { l with lead := some (nextStroke x s.edges) })))) ∧
  (∀ s n x from_ ce de, n < 384 → launcherRuns s n = true → (s.lane n).lead = some x → x.frame = true → x.closed = false → x.half ≠ 0 →
    from_ = x.launch + fld x.param.toNat 12 4 → ce = leadPin n (wf (s.lane n).frmCfg 0 2) → de = leadPin n (wf (s.lane n).frmCfg 2 2) →
    (∀ b, x.begun = false → s.edges = from_ → x.due ≤ s.edges → fld x.param.toNat 0 8 ≠ 0 →
      (bytesBits (wb (s.lane n).frmCfg 9) x.seg).head? = some b →
      exec (.leadFrameStart n) s = .next (settle s
        ((driveTo (setDrive s ce.1 ce.2 (some (if wb (s.lane n).frmCfg 7 != wb (s.lane n).frmCfg 8 then .high else .low))) de.1 de.2 b).modLane n
          (fun l => { l with lead := some { x with
            begun := true, due := from_ + 2 * x.half * (fld x.param.toNat 0 8 + fld x.param.toNat 8 4) } })))) ∧
    (x.begun = true → x.due = from_ + 2 * x.half * (fld x.param.toNat 0 8 + fld x.param.toNat 8 4) → x.due ≤ s.edges →
      exec (.leadFrameEnd n) s = .next (settle s
        ((setDrive (setDrive s ce.1 ce.2 (some (if wb (s.lane n).frmCfg 7 then .high else .low))) de.1 de.2 (some .hiz)).modLane n
          (fun l => { l with lead := some { x with closed := true } })))))

/-- R229, R230, R235: once per sampling instant a conversion gives its input the code, the next sequence number and IN = ((16·CODE − OFFSET)·GAIN) /
4,096, rounded and clamped, and sets the fault bits of a clip and of common mode out of range. R236, R238, R241, R246, R248: in its slot, which comes
in its place of the die's pass, a meter takes what waits, updates and publishes its snapshot and value, its vertex follows its trips, a changed trip
is noticed, the requests that waited end, and the engine goes on to the next slot; meter 0's slot counts the pass. -/
def Obligations.ConversionsAndMeters : Prop :=
  (∀ s i code clip cm, i < 64 → dieUp s (i / 32) = true → (s.die (i / 32)).meterRun = true → (s.die (i / 32)).calBusy = false →
    lastSample s i ≠ none → (s.input i).sampled ≠ lastSample s i →
    exec (.adcConversion i code clip cm) s = .next (settle s (withSourceEdge s (513 + 8 * (i / 32)) (fun s => s.modInput i (fun x => { x with
      code := code, clip := clip || cm, seq := x.seq + 1, sampled := lastSample s i, before := x.value
      value := iw32 (clamp32 ((2 * ((16 * (code.toNat : Int) - sx (BitVec.ofNat 16 x.offset.toNat)) * sx x.gain) + 4096) / 8192))
      fault := x.fault ||| w32 (b2n ((clip || cm) && decide (code.toNat = 4095)) + 2 * b2n ((clip || cm) && decide (code.toNat = 0)) + 4 * b2n cm) }))))) ∧
  (∀ s m d x y, m < 128 → d = m / 64 → dieUp s d = true → slotMay s m = true → x = s.meter m →
    y = (let z := if x.unit = .inService then meterUpdated s d (slotStart s d) (meterBegun x) else meterBegun x
         { z with snap := snapOf z, waiters := [], hist := (slotStart s d + 4, z.value) :: z.hist.take 3 }) → ∀ p t0 t1 t2,
    p = (s.modMeter m (fun _ => y)).modDie d (fun w => { w with
      meterNext := if m % 64 < 63 then m % 64 + 1 else 0, meterPass := if m % 64 < 63 then w.meterPass else w.meterPass + 1
      passes := if m % 64 = 0 then w.passes + 1 else w.passes }) →
    t0 = vertexSet portPw p (928 + m) (y.trip0 || (y.trip1 && setT1Vertex y.settings)) →
    t1 = (if x.trip0 != y.trip0 then meterNotice t0 m else t0) → t2 = (if x.trip1 != y.trip1 then meterNotice t1 m else t1) →
    exec (.meterSlot m) s = .next (settle s (x.waiters.foldl (waiterEnds m) t2)))

/-- R175, R177, R179: a host notify is kept with its address; an in-band interrupt of a known target is queued with the bytes that LANE_OPT takes; a
good character is held under RX_ALWAYS while the FIFO has room. R172, R181, R182, R193, R194: a counted tachometer edge is counted and times a
revolution once PULSES + 1 intervals are known, and a stall is marked after its time; a PWM period takes the DUTY, PERIOD and force written last; a
target mailbox write commits its dwords and a read returns the mailbox's bytes from its offset, wrapping; SETDASA at its static address gives an I3C
target its dynamic one. -/
def Obligations.BusDevicesTachometersAndPwm : Prop :=
  (∀ s n address data, n < 384 → laneHears s n = true → (personality (s.lane n) = 3 ∨ personality (s.lane n) = 4) → wb (s.lane n).opt 5 = true →
    ((s.lane n).txn = none ∨ (s.lane n).begun = false) → (s.lane n).held = none → (s.lane n).lead = none → wb (s.lane n).notify 7 = false →
    exec (.smbusHostNotify n address data) s = .next (settle s
      (s.modLane n (fun l => { l with notify := w32 (address.toNat + 128 + 65536 * data.toNat) })))) ∧
  (∀ s n address payload, n < 384 → laneHears s n = true → personality (s.lane n) = 5 →
    (wb (s.lane n).opt 7 = true → (s.lane n).devices.contains (w8 address.toNat) = true → (s.lane n).ibi.length < 16 →
      exec (.inBandInterrupt n address payload) s = .next (settle s (setLaneErr (s.modLane n (fun l => { l with ibi := l.ibi ++
        [[w8 address.toNat, w8 (payload.take (wf l.opt 8 3)).length] ++ sub (payload.take (wf l.opt 8 3)) 0 4 ++ [0, 0]] })) n 0 true))) ∧
    (wb (s.lane n).opt 7 = false ∨ (s.lane n).devices.contains (w8 address.toNat) = false ∨ 16 ≤ (s.lane n).ibi.length →
      exec (.inBandInterrupt n address payload) s = .next (settle s (setLaneErr s n 0x80 false)))) ∧
  (∀ s n byte parity stop, n < 384 → laneHears s n = true → personality (s.lane n) = 8 → (s.lane n).txn = none → wb (s.lane n).opt 4 = true →
    (s.lane n).rx.length < fifoBytes (s.lane n).fifo → uartBad (s.lane n) byte parity stop = false →
    exec (.uartRxByte n byte parity stop) s = .next (settle s
      (s.modLane n (fun l => { l with rx := l.rx ++ [if wb l.opt 0 then byte else byte &&& 0x7F] })))) ∧
  (∀ s n rising gaps, n < 384 → tachOn s n = true → rising = wb (s.lane n).opt 3 →
    gaps = (match (s.lane n).tachLast with | some t => (s.lane n).tachGaps ++ [s.edges - t] | none => (s.lane n).tachGaps) →
    exec (.tachEdge n rising) s = .next (settle s (s.modLane n (fun l => { l with
      tachLast := some s.edges, tachEdges := l.tachEdges + 1, tachStalled := false
      tachGaps := gaps.drop (gaps.length - (wf l.opt 0 3 + 1))
      tachTime := if (gaps.drop (gaps.length - (wf l.opt 0 3 + 1))).length = wf l.opt 0 3 + 1 then
        w32 ((gaps.drop (gaps.length - (wf l.opt 0 3 + 1))).foldl (· + ·) 0) else l.tachTime })))) ∧
  (∀ s n, n < 384 → tachOn s n = true →
    (match (s.lane n).tachLast with | some t => max t (s.lane n).tachFrom | none => (s.lane n).tachFrom) +
      100000 * (if wf (s.lane n).opt 8 16 = 0 then 1000 else wf (s.lane n).opt 8 16) ≤ s.edges →
    exec (.tachStall n) s = .next (settle s (s.modLane n (fun l => { l with tachStalled := true })))) ∧
  (∀ s n, n < 384 → laneOn (s.lane n) = true → personality (s.lane n) = 0xA → governor s n = n → dieUp s (laneDieNow s n) = true →
    exec (.pwmPeriodStart n) s = .next (settle s (s.modLane n (fun l => { l with
      pwmNow := put l.pwm 16 16 (min (wf l.pwm 0 16) (wf l.pwm 16 16)), pwmFrom := s.edges, pwmForceNew := none
      pwmForce := match l.pwmForceNew with | some f => f | none => l.pwmForce })))) ∧
  (∀ s n off bs nread pec f w t, n < 384 → off.toNat < 0x40 → laneHears s n = true → f = wf (s.lane n).tgt 8 3 →
    mailboxReach s (.oob n) f = true → (laneDie n = fnPort f ∨ arcUp s = true) →
    w = targetPec (personality (s.lane n) = 0xD && wb (s.lane n).tgt 11) nread bs pec → t = targetCommits n f s off.toNat [] w.1 →
    exec (.targetMailboxTransfer n (.transfer (off :: bs) nread pec)) s = .next (settle s (t.modLane n (fun l => { l with
      served := l.served + 1
      wire := targetWire (s.lane n) (some off) w.1 w.2
        ((List.range nread).map (fun i => (mailboxBytes t f).getD ((off.toNat + i) % 64) 0)) })))) ∧
  (∀ s n to_ a, n < 384 → laneHears s n = true → personality (s.lane n) = 0xE → wf (s.lane n).tgt 0 7 = to_.toNat →
    exec (.targetMailboxTransfer n (.setdasa to_ a)) s = .next (settle s (s.modLane n (fun l => { l with dynAddr := some a }))))

/-! ### Faults, failover and the two halves -/

/-- R24, R28, R392, R401, R403: a bank whose supply disagrees is in fault; an engine that fails gives way to the spare of its region or of the region
beside it, else its lanes fail over or die; the spare then resumes its lanes; a lane unit that fails gives way to its twin, else its lane goes to
LANE_DEAD. -/
def Obligations.BankEngineAndLaneFaults : Prop :=
  (∀ s c v inRange t, c < 32 → dieUp s (c / 16) = true → (s.cluster c).bankFault = false → (v ≠ (s.cluster c).volts ∨ inRange = false) →
    t = s.modCluster c (fun x => { x with measured := v }) →
    exec (.bankFault c v inRange) s = .next (settle s
      (fireFault portPw (t.modCluster c (fun x => { x with bankFault := true })) (c / 16) 7))) ∧
  (∀ s c u, c < 32 → dieUp s (c / 16) = true → (s.cluster c).engine = .own →
    u = unitError ((s.modCluster c (fun x => { x with engineUnit := .spared })).modRegion (c / 4)
      (fun x => { x with enginesFailed := x.enginesFailed + 1 })) (c / 16) 2 c (laneUsers s (rangeL (12 * c) 12)) →
    (∀ q, spareChoice u (c / 4) = some q → exec (.engineFault c) s = .next (settle s
      (pauseLanes ((u.modRegion q (fun x => { x with spareFor := some c })).modCluster c (fun x => { x with engine := .failed })) c true))) ∧
    (spareChoice u (c / 4) = none → exec (.engineFault c) s = .next (settle s
      (lanesLoseEngine portPw (u.modCluster c (fun x => { x with engine := .none, engineUnit := .retired })) c)))) ∧
  (∀ s c q, c < 32 → dieUp s (c / 16) = true → (s.cluster c).engine = .failed → spareOf s c = some q →
    exec (.spareTakeover c) s = .next (settle s (lanesNext (fireFault portPw (bbxRecord
      (pauseLanes (s.modCluster c (fun x => { x with engine := .spare q })) c false) (c / 16) 0x07 (c + 256 * q) []) (c / 16) 1) c))) ∧
  (∀ s n sent recv u, n < 384 → dieUp s (laneDie n) = true → (s.lane n).unit = .inService →
    ((twinOf s n).valid && (twinOf s n).shadow && (twinOf s n).failedOver) = false → u = unitError s (laneDie n) 1 n (laneUsers s [n]) →
    (twinReady u n = true → exec (.laneUnitFault n sent recv) s = .next (settle s (twinTakes portPw u n 0))) ∧
    (twinReady u n = false → exec (.laneUnitFault n sent recv) s = .next (settle s (laneDies portPw u n 0 sent recv))))

/-- R349, R390, R391, R410, R462: the first three mismatches after a checkpoint roll the pair back, the fourth is fatal, and a rollback ends with the
pair executing; a clock failure, the die watchdog and a supply out of range are fatal to the half; a half that loses VDD_AON is Off. -/
def Obligations.MismatchesAndFatalFaults : Prop :=
  (∀ s d, d < 2 → pairRuns s d = true →
    ((s.die d).stw.repeats < 3 → exec (.lockstepMismatch d) s = .next (settle s
      (modStw (rollback s d) d (fun x => { x with repeats := x.repeats + 1 })))) ∧
    (3 ≤ (s.die d).stw.repeats → exec (.lockstepMismatch d) s = .next (settle s (dieFatalAt s d 1)))) ∧
  (∀ s d, d < 2 → dieUp s d = true → (s.die d).stw.pair = 1 →
    exec (.rollbackComplete d) s = .next (settle s (modStw s d (fun x => { x with pair := 0 })))) ∧
  (∀ s d, d < 2 → dieUp s d = true → exec (.fastClockFailure d) s = .next (settle s (dieFatalAt (fireFault portPw s d 7) d 4))) ∧
  (∀ s d, d < 2 → (s.die d).alive = true → (s.die d).stewardClock = true → (s.die d).stw.pair = 0 →
    exec (.dieWatchdogExpiry d) s = .next (settle s (dieFatalAt s d 3))) ∧
  (∀ s d, d < 2 → exec (.supplyOutOfRange d) s = .next (settle s (dieFatalAt s d 5))) ∧
  (∀ s d cause, dieUp s d = true → dieFatalAt s d cause =
    (bbxFreezeBox (bbxRecordAt (s.modDie d (fun x => { x with fatal := BitVec.ofNat 4 cause })) d 0x14 true cause [] s.pilot) d 1).modDie d
      (fun x => { x with alive := false, selfStopped := true, stw := { x.stw with pair := 3 }, arc := { x.arc with link := 0 } })) ∧
  (∀ s d, d < 2 → exec (.vddAonLoss d) s = .next (settle s (s.modDie d (fun x => { x with
    power := .off, alive := false, stewardClock := false, arc := { x.arc with link := 0 } }))))

/-- R411, R412, R414, R472: a silent ALIVE is a wire fault while the Arc data path and side band stand, else the other half is lost; edges that come
again end a judged silence; SPLIT begins 200 ticks after the data path fell; a lost half's clusters are adopted, it is reset after 10 ms, and it
rejoins once it drives ALIVE and its bridge is up. -/
def Obligations.HalvesAreLostAndRejoin : Prop :=
  (∀ s d, d < 2 → dieUp s d = true → (s.die d).monitor = true → (s.die d).wireFault = false → isLost s (1 - d) = false →
    ((arcUp s && (s.die d).arc.sideband) = true → exec (.aliveSilence d) s = .next (settle s (stewardNotice (fireFault portPw (bbxRecord
      (s.modDie d (fun x => { x with wireFault := true, seen := false, losses := x.losses + 1 })) d 0x0F 1 []) d 6) d 13 256))) ∧
    ((arcUp s && (s.die d).arc.sideband) = false → exec (.aliveSilence d) s = .next (settle s (halfLostAt portPw s (1 - d))))) ∧
  (∀ s d, d < 2 → dieUp s d = true → (s.die (1 - d)).alive = true → (s.die d).seen = false → ∀ t,
    t = s.modDie d (fun x => { x with monitor := true, seen := true, wireFault := false }) →
    exec (.aliveRegained d) s = .next (settle s
      (if (s.die d).wireFault || isLost s (1 - d) then stewardNotice (bbxRecord t d 0x0F 2 []) d 13 0 else t))) ∧
  (∀ s d t, d < 2 → dieUp s d = true → (s.die d).startAt = some t → (s.die d).monitor = false → isLost s (1 - d) = false →
    t + 50000000 ≤ s.edges → exec (.peerEdgeTimeout d) s = .next (settle s (halfLostAt portPw s (1 - d)))) ∧
  (∀ s, s.pkg.split = false → arcUp s = false → dieUp s 0 = true → dieUp s 1 = true → s.die0.alive = true → s.die1.alive = true →
    s.die0.arc.downAt + 200 ≤ s.edges → ∀ t,
    t = vertexSet portPw (takeCustody portPw (s.modPkg (fun p => { p with split := true })) (b2n s.pkg.tiebreak) true) 1493 true →
    exec .splitEntry s = .next (settle s
      (stewardNotice (bbxRecord (stewardNotice (bbxRecord t 0 0x11 1 []) 0 13 258) 1 0x11 1 []) 1 13 258))) ∧
  (∀ s l, l < 32 → isLost s (l / 16) = true → (s.cluster l).adopted = false → regionRuns s ((l ^^^ 16) / 4) = true →
    exec (.adoption l) s = .next (settle s (adoptAt portPw s l))) ∧
  (∀ s d t, d < 2 → isLost s d = true → (s.die d).lostAt = some t → s.pkg.holdLost = false → t + 1000000 ≤ s.edges →
    exec (.lostHalfReset d) s = .next (settle s (dieResetAt portPw s d))) ∧
  (∀ s d, d < 2 → isLost s d = true → (s.die d).lostAt = none → (s.die d).alive = true → (s.die (1 - d)).seen = true → arcUp s = true →
    exec (.halfRejoin d) s = .next (settle s (rejoinAt s d)))

/-- R337, R341–R343: a flit that passes its check in sequence and finds room in its channel's buffer is taken there and counted at both ends, one that
fails is replayed, the fourth failure in a row brings the bridge down; the bridge goes down for a cause, and a training attempt of its time brings it
up or is made again 1,000 ticks later. -/
def Obligations.ArcCarriesFlits : Prop :=
  (∀ s d ch, d < 2 → arcUp s = true → (s.die d).arc.link = 2 → arcFull (s.die d).arc ch = false →
    exec (.arcFlitReceive d (s.die d).arc.expect true ch) s = .next (settle s
      (modArc (modArc (modArc s d (arcPush ch)) d (fun a => { a with expect := a.expect + 1, bad := 0, rx := a.rx + 1 })) (1 - d)
        (fun a => { a with tx := a.tx + 1 })))) ∧
  (∀ s d q ch t, d < 2 → arcUp s = true → (s.die d).arc.link = 2 → arcFull (s.die d).arc ch = false →
    t = modArc (modArc s d (fun a => { a with bad := a.bad + 1 })) (1 - d) (fun a => { a with replays := sat a.replays }) →
    ((s.die d).arc.bad ≠ 3 → exec (.arcFlitReceive d q false ch) s = .next (settle s t)) ∧
    ((s.die d).arc.bad = 3 → exec (.arcFlitReceive d q false ch) s = .next (settle s (arcDownAt portPw t 1)))) ∧
  (∀ s cause, arcUp s = true → (s.die0.arc.link ≠ 3 ∨ s.die1.arc.link ≠ 3 ∨ (cause ≠ .silence ∧ cause ≠ .replayLimit)) →
    exec (.arcDown cause) s = .next (settle s (arcDownAt portPw s (arcCode cause)))) ∧
  (∀ s, arcUp s = false → halfLives s 0 = true → halfLives s 1 = true → s.die0.arc.tryAt ≤ s.edges → s.die1.arc.tryAt ≤ s.edges →
    (exec (.arcRetrain true) s = .next (settle s (arcReturns s))) ∧
    (exec (.arcRetrain false) s = .next (settle s
      (modArc (modArc s 0 (fun a => { a with cause := 4, tryAt := s.edges + 1000 })) 1 (fun a => { a with cause := 4, tryAt := s.edges + 1000 })))))

/-- R394–R397: a scrub read that finds nothing forgets the word, a first CE is counted and remembered, and a UE gives the word POISON; a CE of the
pass before, or of an earlier word of the row, makes the row weak, and so does a UE: it takes a spare row while there is one. -/
def Obligations.ScrubReadsFindErrors : Prop :=
  ∀ s k i w, memOk k i = true → scrubs s k i = true → w < memWords k → s.ecc.contains (k, i, w) = false →
    (exec (.scrubRead k i w .clean) s = .next (settle s
      (s.modDie (memDie k i) (fun x => { x with scrubCe := x.scrubCe.filter (· != (k, i, w)) })))) ∧
    ((∀ e ∈ (s.die (memDie k i)).scrubCe, ¬(e.1 = k ∧ e.2.1 = i ∧ e.2.2 / 64 = w / 64 ∧ e.2.2 ≤ w)) →
      exec (.scrubRead k i w .ce) s = .next (settle s
        ((memLogged s k i w false).modDie (memDie k i) (fun x => { x with scrubCe := x.scrubCe ++ [(k, i, w)] })))) ∧
    (∀ v, v ≤ w → v / 64 = w / 64 → (k, i, v) ∈ (s.die (memDie k i)).scrubCe →
      exec (.scrubRead k i w .ce) s = .next (settle s (rowWeak (memLogged s k i w false) k i w))) ∧
    (∀ t u, t = fireFault portPw (bbxRecord (memLogged { s with ecc := s.ecc ++ [(k, i, w)] } k i w true) (memDie k i) 0x0A
        (memCode k + 16 * i) (leBytes 4 w)) (memDie k i) 3 →
      u = (if k = .regionSram then unitError t (memDie k i) 7 (512 * i + w / 512) (tileUsers t (512 * i + w / 512)) else t) →
      exec (.scrubRead k i w .ue) s = .next (settle s (rowWeak u k i w))) ∧
    (∀ t u, u = t.modDie (memDie k i) (fun x => { x with scrubCe := x.scrubCe.filter (fun e => !(e.1 = k && e.2.1 = i && e.2.2 / 64 = w / 64)) }) →
      (rowsLeft u k i ≠ 0 → rowWeak t k i w =
        bbxRecord (rowUsed u k i) (memDie k i) 0x08 (memCode k + 16 * i + 512 * (w / 64) + 2 ^ 21 * rowsLeft (rowUsed u k i) k i) []) ∧
      (rowsLeft u k i = 0 → rowWeak t k i w = rowFails u k i w))

/-! ### Resets, boot, clocks and sleep -/

/-- R17, R34, R466, R472, R473, R484: PORST_N completes in every state: a cold reset gives every half its state after reset, tests every unit, samples
the straps and puts the highest committed OTP generation in force, whatever units fail. Where none fails custody is with die 0, host memory is as
before, and no program, queue or SPLIT is left; the waiting commands stay. -/
def Obligations.ColdResetSamplesStraps : Prop :=
  ∀ s k failed, exec (.coldReset k failed) s = .next { coldAt portPw s k failed with pending := s.pending, edges := s.edges } ∧
    ∃ t, exec (.coldReset k failed) s = .next t ∧ t.pkg.sysId = k.devid ∧ t.pkg.standby = k.standby ∧ t.pkg.tiebreak = k.tiebreak ∧
      t.die0.otp.inForce = otpChosen s.die0.otp ∧ t.die1.otp.inForce = otpChosen s.die1.otp ∧
      t.die0.otp.skipped = k.otpSkip ∧ t.die1.otp.skipped = k.otpSkip ∧ t.pending = s.pending ∧
      (failed = [] → t.pkg.custody = 0 ∧ t.pkg.split = false ∧ t.hostMem = s.hostMem ∧ t.slots = [] ∧ t.queues = [] ∧ t.pilot = 0)

/-- R133, R147, R149, R466, R469, R470: a package warm reset starts the reset of every function, PERST of a port that of its four, and FLR that of
one, each once; while the port's half reloads its firmware the function's work stops at once and the rest waits; the link of a port goes down with the
reads outstanding on it, and comes up again. -/
def Obligations.FunctionAndPortResets : Prop :=
  (∀ s, s.pkg.warmAt = none → exec .packageWarmReset s = .next (settle s
    ((List.range 8).foldl (fun s f => functionReset portPw s f functionResetReason)
      (s.modPkg (fun p => { p with warmAt := some s.edges, warmDue := false }))))) ∧
  (∀ s p, p < 2 → dieUp s p = true → portInReset s p = false → exec (.pciePortReset p) s = .next (settle s
    ((rangeL (4 * p) 4).foldl (fun s f => resetOrWait portPw s f portResetReason)
      (readsLost (setPort s p false true) (fun r => fnPort r.fn = p))))) ∧
  (∀ s f, f < 8 → dieUp s (fnPort f) = true → fnPresent s f = true → portInReset s (fnPort f) = false → (s.func f).inReset = false →
    (s.pkg.reloading ≠ some (fnPort f) → exec (.functionLevelReset f) s = .next (settle s (functionReset portPw s f functionResetReason))) ∧
    (s.pkg.reloading = some (fnPort f) → exec (.functionLevelReset f) s = .next (settle s (s.modFunc f (fun x => { x with
      inReset := true, resetAt := if x.inReset then x.resetAt else s.edges, held := [], resetWait := some functionResetReason }))))) ∧
  (∀ s p, p < 2 → exec (.pcieLinkDown p) s = .next (settle s
    (readsLost (setPort s p false (portInReset s p)) (fun r => fnPort r.fn = p)))) ∧
  (∀ s p, p < 2 → dieUp s p = true → exec (.pcieLinkUp p) s = .next (settle s (setPort s p true false)))

/-- R472, R477–R480: the next image of a half's list that passes its checks, and on die 1 is die 0's image or its version, starts the half's firmware;
one that fails moves the half on along its list with the reason; a half whose list is spent goes through it again; ready firmware of a half sets READY
for its four functions and makes the steward's event ring. -/
def Obligations.HalvesBoot : Prop :=
  (∀ s d src image readOk img, d < 2 → halfLives s d = true → (s.die d).boot.state.toNat < 2 →
    (bootList s d)[(s.die d).boot.attempts.toNat]? = some src → img = (if src = 4 then s.die0.boot.image else image) →
    ((d = 1 ∧ arcUp s = true) → s.die0.boot.state = 2) →
    (imageReject (s.die d).otp img (readOk || src = 4) = 0 →
      ((d = 1 ∧ arcUp s = true ∧ src ≠ 4) → imageVersion img = s.die0.boot.version.toNat) →
      exec (.bootImageLoad d image readOk) s = .next (settle s
        (firmwareStarts (modBoot s d (fun b => bootOf img src (b.attempts.toNat + 1) b.reject)) d))) ∧
    (imageReject (s.die d).otp img (readOk || src = 4) ≠ 0 →
      exec (.bootImageLoad d image readOk) s = .next (settle s (modBoot s d (fun b => { b with
        attempts := b.attempts + 1, reject := w8 (imageReject (s.die d).otp img (readOk || src = 4))
        state := if (bootList s d).length ≤ b.attempts.toNat + 1 then 3 else 1 }))))) ∧
  (∀ s d image readOk, d < 2 → halfLives s d = true → (s.die d).boot.state.toNat < 2 →
    (bootList s d)[(s.die d).boot.attempts.toNat]? = none →
    exec (.bootImageLoad d image readOk) s = .next (settle s (modBoot s d (fun b => { b with state := 3 })))) ∧
  (∀ s d, d < 2 → (s.die d).boot.state = 3 →
    exec (.bootRetry d) s = .next (settle s (modBoot s d (fun b => { b with state := 0, attempts := 0 })))) ∧
  (∀ s d, d < 2 → dieUp s d = true → (s.die d).boot.state = 2 → (s.func (4 * d)).ready = false →
    exec (.firmwareReady d) s = .next (settle s (thermoRaise ((rangeL (4 * d) 4).foldl (fun s f => s.modFunc f (fun x => { x with ready := true }))
      (ringMade s (8 + d) (4096 * (Config.stewardRing d).toNat) 8)))))

/-- R419, R420, R436, R458: a lost REFCLK takes down the half's trained link ports, a found one clears the mark; PFAIL_N low for two samples fires
V1494, freezes each running half's black box with a PFAIL record and starts its save, and a save that ends leaves a copy of the box in flash. -/
def Obligations.ClockAndPowerFailures : Prop :=
  (∀ s d, d < 2 → exec (.refclkLost d) s = .next (settle s ((rangeL (2 * d) 2).foldl (fun s p =>
    if (s.port p).st = .disabled ∨ (s.port p).st = .down then s else portLeaves portPw s p .down ((s.port p).st = .up))
    (s.modDie d (fun x => { x with refLost := true }))))) ∧
  (∀ s d, d < 2 → exec (.refclkRelock d) s = .next (settle s (s.modDie d (fun x => { x with refLost := false })))) ∧
  (∀ s n u v w, 2 ≤ n → s.pkg.pfail = false → dieUp u 0 = true → dieUp v 1 = true →
    u = vertexSet portPw (s.modPkg (fun p => { p with pfail := true })) 1494 true →
    v = (let t := bbxFreezeBox (bbxRecord u 0 0x15 0 []) 0 3
         if maySave t 0 then t.modDie 0 (fun x => { x with bbx := { x.bbx with saving := true } }) else t) →
    w = (let t := bbxFreezeBox (bbxRecord v 1 0x15 0 []) 1 3
         if maySave t 1 then t.modDie 1 (fun x => { x with bbx := { x.bbx with saving := true } }) else t) →
    exec (.pfailAsserted n) s = .next (settle s w)) ∧
  (∀ s d, d < 2 → (s.die d).bbx.saving = true → halfLives s d = true →
    exec (.blackboxSaveDone d) s = .next (settle s (s.modDie d (fun x => { x with bbx := { x.bbx with
      saving := false, copy := some { records := x.bbx.records, newest := x.bbx.newest, seq := x.bbx.seq, wrapped := x.bbx.wrapped }
      savedRecords := if x.bbx.wrapped then 4096 else if x.bbx.written then x.bbx.newest.toNat + 1 else 0 } }))))

/-- R30, R242, R311, R459–R464, R486: an idle region dozes and then gates after the times of SLEEP_POLICY, and goes off where nothing of it is held; a
die dozes and rests after its regions, its meters' trips becoming inactive; a wake of a region or die at a request or an access, within its bound,
sets it running again. -/
def Obligations.RegionsAndDiesSleepAndWake : Prop :=
  (∀ s r, r < 8 → (s.region r).power = .run → dieUp s (r / 4) = true → regionBusy s r = false → sleepDue s (s.region r).idleSince 0 = true →
    exec (.regionDozeEntry r) s = .next (settle s (s.modRegion r (fun x => { x with power := .doze, idleSince := s.edges })))) ∧
  (∀ s r, r < 8 → dieUp s (r / 4) = true → regionBusy s r = false →
    ((s.region r).power = .doze → sleepDue s (s.region r).idleSince 16 = true →
      exec (.regionGateEntry r) s = .next (settle s (s.modRegion r (fun x => { x with power := .gated })))) ∧
    ((s.region r).power = .gated → regionMayOff s r = true →
      exec (.regionGateEntry r) s = .next (settle s (s.modRegion r (fun x => { x with power := .off, cache := [] }))))) ∧
  (∀ s d, d < 2 → dieUp s d = true → (s.die d).power = .run → (∀ r ∈ rangeL (4 * d) 4, (s.region r).power ≠ .run) → stewardIdle s d = true →
    sleepDue s (s.die d).idleSince 0 = true →
    exec (.dieDozeEntry d) s = .next (settle s (s.modDie d (fun x => { x with power := .doze, stewardClock := false, idleSince := s.edges })))) ∧
  (∀ s d t, d < 2 → dieUp s d = true → (s.die d).power = .doze → wb s.pkg.sleep (32 + d) = true →
    (∀ r ∈ rangeL (4 * d) 4, (s.region r).power = .gated ∨ (s.region r).power = .off) → (s.die d).bbx.saving = false →
    s.pkg.reloading ≠ some d → (wb s.pkg.sleep 34 = false ∨ metersOn s d = 0) → sleepDue s (s.die d).idleSince 16 = true →
    t = s.modDie d (fun x => { x with power := .rest, rested := true }) →
    exec (.dieRestEntry d) s =
      .next (settle s (meterDomainStops (((s.meters.map Prod.fst).filter (fun m => m / 64 = d)).foldl meterRests t) d))) ∧
  (∀ s d ticks access t, d < 2 → dieUp s d = true → (access || dieAsked s d) = true →
    ((s.die d).power = .doze ∨ (s.die d).power = .rest) → ticks ≤ dieWakeBound (s.die d).power →
    t = wakeSeen (s.modDie d (fun x => { x with
      power := .run, stewardClock := x.boot.state = 2, wakes := x.wakes + 1, idleSince := s.edges, asked := false })) d ticks →
    exec (.wakeComplete (.die d) ticks access) s = .next (settle s
      (if (s.die d).power = .rest then (List.range 10).foldl (fun s t => eventsWake s d t) t else t))) ∧
  (∀ s r ticks access u v, r < 8 → dieUp s (r / 4) = true → (s.region r).power ≠ .run →
    (access || (s.region r).asked || regionBusy s r) = true → ticks ≤ regionWakeBound (s.region r).power →
    u = dieWakes s (r / 4) (min ticks (dieWakeBound (s.die (r / 4)).power)) true →
    v = (if (s.region r).power = .off then regionEmptied u r else u) →
    exec (.wakeComplete (.region r) ticks access) s = .next (settle s
      (wakeSeen (v.modRegion r (fun x => { x with power := .run, idleSince := v.edges, asked := false })) (r / 4) ticks)))

/-! ### The steward pairs -/

/-- R350, R352, R356, R365, R369, R385: a running pair makes the moves of the next bundle of the context it runs whose checks pass; a context whose
bundle breaks a rule takes its fault, a held bundle costs a cycle, an idle steward and one at the end of a slice make none. -/
def Obligations.StewardIssuesBundles : Prop :=
  (∀ s d c t b ms, d < 2 → Issues s d c t b ms → doubleWrite ms = false →
    ms.any (fun m => portDenied c m.src || portDenied c m.dst) = false →
    (ms.any (moveHeld (coreOf t d).units) = false → exec (.stewardBundle d) s = .next (settle s
      (bundleMoves t d c b ms (ctxOf t d c).delay (ctxOf t d c).rfe))) ∧
    (ms.any (moveHeld (coreOf t d).units) = true → exec (.stewardBundle d) s = .next (settle s (addCycles t d c 1)))) ∧
  (∀ s d c t b ms, d < 2 → Issues s d c t b ms →
    (doubleWrite ms = true → exec (.stewardBundle d) s = .next (settle s (ctxFault t d c fDouble))) ∧
    (doubleWrite ms = false → ms.any (fun m => portDenied c m.src || portDenied c m.dst) = true →
      exec (.stewardBundle d) s = .next (settle s (ctxFault t d c fSocket)))) ∧
  (∀ s d c t, d < 2 → Fetching s d c t → (isUser c = true → (ctxOf t d c).codeLen ≤ (ctxOf t d c).pc →
    exec (.stewardBundle d) s = .next (settle s (ctxFault t d c fFetch)))) ∧
  (∀ s d c, d < 2 → pairRuns s d = true → c = (coreOf (schedule s d) d).running →
    (c = 15 ∨ (isUser c = true ∧ 1024 ≤ ((schedule s d).die d).stw.slice ∧ (ctxOf (schedule s d) d c).delay = none)) →
    exec (.stewardBundle d) s = .next (settle s (schedule s d)))

/-- R360, R361, R362, R368, R370: a unit result, sixteen-bit and eight-bit loads with their sign, the targets of branches, and the bubbles and
counters of the branch predictor. -/
def Obligations.StewardUnitsCompute : Prop :=
  (∀ a v : Word, aluOp 0 a v = a + v ∧ aluOp 1 a v = a - v ∧ aluOp 5 a v = a &&& ~~~v ∧ (aluOp 7 a v).toInt = min a.toInt v.toInt ∧
    (aluOp 8 a v).toInt = max a.toInt v.toInt ∧ (aluOp 9 a v).toNat = min a.toNat v.toNat ∧ (aluOp 10 a v).toNat = max a.toNat v.toNat ∧
    (aluOp 11 a v).toInt = max (-2147483648) (min 2147483647 (a.toInt + v.toInt)) ∧
    (aluOp 12 a v).toInt = max (-2147483648) (min 2147483647 (a.toInt - v.toInt))) ∧
  (∀ a v : Word, (mulOp 0 a v).toNat = a.toNat * v.toNat % 4294967296 ∧ (mulOp 1 a v).toInt = a.toInt * v.toInt / 4294967296 ∧
    (mulOp 2 a v).toNat = a.toNat * v.toNat / 4294967296 ∧
    (mulOp 3 a v).toInt = max (-2147483648) (min 2147483647 ((a.toInt * v.toInt + 32768) / 65536))) ∧
  (∀ a v : Word, (shfOp 0 a v).toNat = a.toNat * 2 ^ (v.toNat % 32) % 4294967296 ∧ (shfOp 1 a v).toNat = a.toNat / 2 ^ (v.toNat % 32) ∧
    (shfOp 2 a v).toInt = a.toInt / 2 ^ (v.toNat % 32)) ∧
  (∀ a v : Word, cmpOp 0 a v = (if a = v then 1 else 0) ∧ cmpOp 1 a v = (if a = v then 0 else 1) ∧
    cmpOp 2 a v = (if a.toInt < v.toInt then 1 else 0) ∧ cmpOp 3 a v = (if a.toInt < v.toInt then 0 else 1) ∧
    cmpOp 4 a v = (if a.toNat < v.toNat then 1 else 0) ∧ cmpOp 5 a v = (if a.toNat < v.toNat then 0 else 1)) ∧
  (∀ x y : Byte, (kindValue 2 [x, y]).toInt = (y ++ x).toInt ∧ (kindValue 1 [x, y]).toNat = x.toNat + 256 * y.toNat ∧
    (kindValue 4 [x]).toInt = x.toInt ∧ (kindValue 3 [x]).toNat = x.toNat) ∧
  (∀ pc op (v : Word), pc < 16384 → branchTarget pc op v = (if op % 4 = 0 ∨ op % 4 = 3 then v.toNat % 16384 else (pc + v.toNat) % 16384)) ∧
  (∀ x pc taken, (bpResolve x pc taken).1 =
      (if x.bpbar then (if taken then 2 else 0)
       else if taken then (if 2 ≤ (tget 1 x.counters (bpIndex x pc)).toNat then 1 else 2)
       else (if 2 ≤ (tget 1 x.counters (bpIndex x pc)).toNat then 2 else 0)) ∧
    (x.bpbar = false → ∀ i, tget 1 (bpResolve x pc taken).2.counters i =
      if i = bpIndex x pc then
        (if taken then (if tget 1 x.counters i = 3 then 3 else tget 1 x.counters i + 1)
         else (if tget 1 x.counters i = 0 then 0 else tget 1 x.counters i - 1))
      else tget 1 x.counters i))

/-- R350, R366, R374, R376, R378, R383: the event context is entered with the PC and context saved, the time of its last message noted and a
checkpoint taken; the slice of a user context ends with the next ready one in turn; a SYS.wait ends with 1 where its vertex fired and 0 where its
limit passed; a port-space load lands and releases its unit; a stream that runs out clears BUSY. -/
def Obligations.StewardContextsGoOn : Prop :=
  (∀ s d k x, d < 2 → pairRuns s d = true → intOf (s.target (8 + d)) = true → (s.die d).stw.emask = false → (coreOf s d).running ≠ 1 →
    k = coreOf (schedule s d) d → x = ctxOf (schedule s d) d k.running → (k.running = 15 ∨ (x.delay = none ∧ x.squash = false)) →
    exec (.eventContextEntry d) s = .next (settle s (checkpoint (bpFlush ((modCore (schedule s d) d (fun k => { k with
      units := { unitsDrained k.units with epc := w32 x.pc, ectx := w32 k.running }
      running := 1, wrote := []
      ctxs := tset {} k.ctxs 1 { tget {} k.ctxs 1 with pc := 16, delay := none, squash := false, rfe := false } })).modTarget (8 + d)
      (fun g => { g with lastMsg := some (schedule s d).edges })) d) d))) ∧
  (∀ s d, d < 2 → pairRuns s d = true → isUser (coreOf s d).running = true → 1024 ≤ (s.die d).stw.slice →
    (ctxOf s d (coreOf s d).running).delay = none →
    exec (.userSliceEnd d) s = .next (settle s (checkpoint (rotate s d) d))) ∧
  (∀ s d c v r lim k, d < 2 → pairRuns s d = true → (c = 0 ∨ isUser c = true) → (ctxOf s d c).st = .waiting →
    (ctxOf s d c).wait = some { vertex := some v, regTick := r, deadline := lim, toContinue := k } →
    (∀ b, (ctxOf s d c).sysR = some b → exec (.sysWaitEnd d c) s = .next (settle s (checkpoint (schedule
      (modContext s d c (fun x => { x with st := .running, wait := none, sysR := some b })) d) d))) ∧
    (∀ t, (ctxOf s d c).sysR = none → lim = some t → t < s.edges → exec (.sysWaitEnd d c) s = .next (settle s (checkpoint (schedule
      (modContext s d c (fun x => { x with st := .running, wait := none, sysR := some 0 })) d) d)))) ∧
  (∀ s d, d < 2 → pairRuns s d = true → (coreOf s d).units.lspBusy = true → ∀ t,
    t = modUnits s d (fun u => { u with
      lspBusy := false, r := ((coreOf s d).units.due.filter (fun e => e.1 = 7)).foldl (fun t e => tset 0 t e.1 e.2.2) u.r
      due := u.due.filter (fun e => e.1 != 7) }) →
    exec (.lspLoadArrival d) s = .next (settle s
      (checkpoint (addCycles t.freeWord.2 d (coreOf t d).running t.freeWord.1.toNat) d))) ∧
  (∀ s d, d < 2 → pairRuns s d = true → wb (coreOf s d).units.ctl 5 = true →
    (∀ t, streamWords d (coreOf s d).running (coreOf s d).units.cnt.toNat s = (none, t) →
      exec (.strStreamEnd d) s = .next (settle s (modUnits t d (fun u => { u with ctl := put u.ctl 5 1 0 })))) ∧
    (∀ f t, streamWords d (coreOf s d).running (coreOf s d).units.cnt.toNat s = (some f, t) →
      exec (.strStreamEnd d) s = .next (settle s (streamFault t d (coreOf s d).running f))))

/-! ### Polob links -/

/-- R428, R432, R443, R447, R452: a heartbeat goes out with the path that the device has, from the root with a new ROOT_SEQ, and every 64th on an UP
port with a delay request; one that arrives gives the peer's path and root, and from the upstream peer the time; a delay request is answered, and a
response gives half of its round trip. -/
def Obligations.HeartbeatsAndDelays : Prop :=
  (∀ s p t u, p < 4 → portAlive s p = true → ((s.port p).st = .up ∨ (s.port p).st = .standoff) →
    t = (if isRoot s && !s.pkg.standoff then s.modPkg (fun k => { k with rootSeq := k.rootSeq + 1, rootSeqAt := s.edges }) else s) →
    u = t.modPort p (fun x => emitBlock { x with beats := x.beats + 1 }
      (.heartbeat t.pkg.root (if (s.port p).st = .up && t.pkg.path then t.pkg.hops else 0) ((s.port p).st = .up && t.pkg.path)
        t.pkg.epoch t.pkg.rootSeq (BitVec.ofNat 24 t.pilot.toNat))) →
    exec (.heartbeatSend p) s = .next (settle s
      (if (s.port p).st = .up && ((s.port p).beats + 1) % 64 = 0 then
        u.modPort p (fun x => emitBlock x (.delayReq (BitVec.ofNat 40 u.pilot.toNat))) else u))) ∧
  (∀ s p root hops attached epoch rootSeq time takesUs t u, p < 4 → portAlive s p = true → ((s.port p).st = .up ∨ (s.port p).st = .standoff) →
    t = retree portPw (hearRoot (s.modPort p (fun x => { x with
      peerRoot := root, peerHops := hops, peerAttached := attached, peerTakes := takesUs, peerSeq := rootSeq
      seqAt := if seqLater rootSeq x.peerSeq then s.edges else x.seqAt })) root epoch) →
    u = (if seqLater rootSeq t.pkg.rootSeq then t.modPkg (fun k => { k with rootSeq := rootSeq, rootSeqAt := t.edges }) else t) →
    (upPort t = some p → attached = true →
      exec (.heartbeatReceive p root hops attached epoch rootSeq time takesUs true) s = .next (settle s (offsetFrom u p time))) ∧
    (upPort t ≠ some p ∨ attached = false →
      exec (.heartbeatReceive p root hops attached epoch rootSeq time takesUs true) s = .next (settle s t))) ∧
  (∀ s p time trip, p < 4 → portAlive s p = true → (s.port p).st = .up →
    exec (.delayBlock p true time trip true) s = .next (settle s (s.modPort p (fun x => { x with delay := w16 (trip / 2) }))) ∧
    exec (.delayBlock p false time trip true) s = .next (settle s (s.modPort p (fun x => emitBlock x (.delayResp time)))))

/-- R434, R435, R439–R441: a VERTEX or SIGNAL block in sequence is acknowledged and applied here, relayed to the device that it names, or, for all
devices, both; an acknowledgement frees blocks or packets and lets those that wait follow, each port returning the credit of the places that come free
in its receive buffer; unacknowledged blocks are sent again. -/
def Obligations.BlocksAndAcks : Prop :=
  (∀ s p dest b index lvl change src t, TakesBlock s p b t →
    (dest = s.pkg.sysId →
      exec (.vertexBlock p dest b index lvl change src true) s = .next (settle s (vertexApplied portPw t index lvl change src))) ∧
    (dest ≠ s.pkg.sysId → exec (.vertexBlock p dest b index lvl change src true) s =
      .next (settle s (relay t p dest.toNat (.vertex 0 dest index lvl change src))))) ∧
  (∀ s p dest b n data t, TakesBlock s p b t →
    (dest = 31 → exec (.signalBlock p dest b n data true) s =
      .next (settle s (sendSignal (fireSoft portPw t n.toNat data) 31 n.toNat data))) ∧
    (dest ≠ 31 → dest = s.pkg.sysId → exec (.signalBlock p dest b n data true) s = .next (settle s (fireSoft portPw t n.toNat data))) ∧
    (dest ≠ 31 → dest ≠ s.pkg.sysId → exec (.signalBlock p dest b n data true) s =
      .next (settle s (relay t p dest.toNat (.signal 0 dest n data))))) ∧
  (∀ s p nak b seq cp cnp ccpl, p < 4 → portAlive s p = true →
    ((s.port p).st = .up ∨ ((s.port p).st = .training ∧ (s.port p).locked = true)) →
    exec (.ackBlock p nak true b seq cp cnp ccpl true) s = .next (settle s (creditsReturn s (s.modPort p (fun x =>
      let y := packetAck x false x.txSeq cp.toNat cnp.toNat
      blocksDrain y.waiting.length { y with unacked := blocksAcked b y.unacked })))) ∧
    exec (.ackBlock p nak false b seq cp cnp ccpl true) s =
      .next (settle s (creditsReturn s (s.modPort p (fun x => packetAck x nak seq cp.toNat cnp.toNat))))) ∧
  (∀ s p, p < 4 → portAlive s p = true → (s.port p).st = .up →
    exec (.blockResend p) s = .next (settle s (s.modPort p (fun x =>
      x.unacked.foldl emitBlock { x with replays := satAdd x.replays x.unacked.length }))))

/-- R132, R433–R437, R440, R445, R451: a packet in sequence takes its place in the receive buffer, is acknowledged and taken by the device that it
names, or relayed: a remote lane command, its data, its result, a subscription; a JOIN is taken where it arrives, and a HANDBACK by the apex that
stands off. -/
def Obligations.PacketsArriveOrGoOn : Prop :=
  (∀ s p h t cmd, TakesPacket s p h (.laneCmd h.src h.dest cmd) t →
    (h.dest = s.pkg.sysId → exec (.laneCmdPacket p h cmd) s = .next (settle s (remoteArrives t h cmd))) ∧
    (h.dest ≠ s.pkg.sysId → exec (.laneCmdPacket p h cmd) s = .next (settle s (relay t p h.dest.toNat (.laneCmd h.src h.dest cmd))))) ∧
  (∀ s p h t lane slot data, TakesPacket s p h (.laneData h.src h.dest lane slot data) t →
    (h.dest = s.pkg.sysId → exec (.laneDataPacket p h lane slot data) s = .next (settle s (remoteData t h lane slot data))) ∧
    (h.dest ≠ s.pkg.sysId → exec (.laneDataPacket p h lane slot data) s =
      .next (settle s (relay t p h.dest.toNat (.laneData h.src h.dest lane slot data))))) ∧
  (∀ s p h t slot tag gen res data, TakesPacket s p h (.laneResult h.src h.dest slot tag gen res data) t →
    (h.dest = s.pkg.sysId → exec (.laneResultPacket p h slot tag gen res data) s =
      .next (settle s (remoteResult portPw t h slot tag gen res data))) ∧
    (h.dest ≠ s.pkg.sysId → exec (.laneResultPacket p h slot tag gen res data) s =
      .next (settle s (relay t p h.dest.toNat (.laneResult h.src h.dest slot tag gen res data))))) ∧
  (∀ s p h t index v on, TakesPacket s p h (.subscribe h.src h.dest index v on) t →
    (h.dest = s.pkg.sysId → exec (.subscribePacket p h index v on) s = .next (settle s (subscribed t h.src index v.toNat on))) ∧
    (h.dest ≠ s.pkg.sysId → exec (.subscribePacket p h index v on) s =
      .next (settle s (relay t p h.dest.toNat (.subscribe h.src h.dest index v on))))) ∧
  (∀ s p h t ids, p < 4 → portAlive s p = true → (s.port p).st = .up → h.crcOk = true → h.seq = (s.port p).rxSeq → rxRoom s p 0 = true →
    t = packetTaken s p 0 true → exec (.joinPacket p h ids) s = .next (settle s (joinIn t p ids))) ∧
  (∀ s p h t, p < 4 → portAlive s p = true → (s.port p).st = .standoff → h.crcOk = true → h.seq = (s.port p).rxSeq →
    rxRoom s p 0 = true → s.pkg.sysId = 0 → s.pkg.standoff = true → t = packetTaken s p 0 true →
    exec (.handbackPacket p h) s = .next (settle s (retree portPw ((List.range 4).foldl
      (fun s p => withSourceEdge s (515 + 8 * (p / 2)) (fun s => s.modPort p (fun x => if x.st = .standoff then { x with st := .up } else x)))
      (t.modPkg (fun k => { k with standoff := false, epoch := k.epoch + 1, takeovers := k.takeovers + 1, root := 0 }))))))

/-- R429, R433, R436, R443, R446, R450: block lock sends HELLO, the peer's HELLO brings the port up (or to STANDOFF on a device that stands off), a
trained port goes DOWN, and trains again 1,000 ticks later; 3,000 ticks of a silent root end the path, and make the standby the acting apex. -/
def Obligations.PortsTrainAndPathsEnd : Prop :=
  (∀ s p, p < 4 → portAlive s p = true → (s.port p).st = .training → (s.port p).locked = false →
    exec (.blockLock p) s = .next (settle s (sendHello (s.modPort p (fun x => { x with locked := true })) p))) ∧
  (∀ s p id serial hops attached root epoch time t u, p < 4 → portAlive s p = true → (s.port p).st = .training → (s.port p).locked = true →
    ((s.port p).peerSerial = none ∨ (s.port p).peerSerial = some serial) →
    t = withSourceEdge s (515 + 8 * (p / 2)) (fun s => s.modPort p (fun x => { x with
      st := if s.pkg.standoff then .standoff else .up, peerId := id, peerSerial := some serial, hello := time, helloAt := s.edges, peerHops := hops
      peerAttached := attached, peerRoot := root, seqAt := s.edges })) →
    u = (if t.pkg.standoff then t.modPort p (fun x => { x with rxSeq := x.rxSeq + 1 }) else packetTaken t p 0 true) →
    exec (.helloPacket p id serial hops attached root epoch time) s =
      .next (settle s (retree portPw (hearRoot (dupFound u id serial) root epoch)))) ∧
  (∀ s p, p < 4 → portAlive s p = true → portEnabled s p = true → (s.port p).st = .down → (s.port p).downAt + 1000 ≤ s.edges →
    exec (.linkTrainingRetry p) s = .next (settle s (s.modPort p (fun x => { x with st := .training, locked := false })))) ∧
  (∀ s p why, p < 4 → dieUp s (p / 2) = true → ((s.port p).st = .up ∨ (s.port p).st = .standoff) → (why = .nakLimit → 4 ≤ (s.port p).naks) →
    (why = .refclkLost → (s.die (p / 2)).refLost = true) →
    exec (.linkPortDown p why) s = .next (settle s (portLeaves portPw s p .down true))) ∧
  (∀ s p, upPort s = some p → isRoot s = false → s.pkg.rootSeqAt + 3000 ≤ s.edges →
    exec .pathLoss s = .next (settle s (retree portPw (s.modPort p (fun x => { x with peerAttached := false }))))) ∧
  (∀ s, apexGone s = true → (dieUp s 0 = true ∨ dieUp s 1 = true) →
    exec .apexLoss s = .next (settle s (retree portPw (s.modPkg (fun k => { k with
      epoch := k.epoch + 1, takeovers := k.takeovers + 1, acting := true, root := k.sysId, path := true, hops := 0 })))))

/-! ### The machine as a whole -/

/-- A step with a command at the front of the queue is that command with the rest of the queue. -/
def Obligations.StepTakesTheFrontCommand : Prop :=
  ∀ s c rest, s.pending = c :: rest → step s = exec c { s with pending := rest }

/-- Every step answers a next state. One with a command takes it off the queue and passes no time, one with none passes one pilot edge (the model's
choice, log 1), whatever the slew of the pilot counter (R453); so as many steps as commands wait empty the queue. -/
def Obligations.TheQueueIsServedInOrder : Prop :=
  (∀ s, s.pending = [] → ∃ t, step s = .next t ∧ t.pending = [] ∧ t.edges = s.edges + 1) ∧
  (∀ s c rest, s.pending = c :: rest → ∃ t, step s = .next t ∧ t.pending = rest ∧ t.edges = s.edges) ∧
  (∀ s, ∃ t, Runs s.pending.length s t ∧ t.pending = [] ∧ t.edges = s.edges) ∧
  (∀ n s, ∃ t, Runs n s t ∧ t.edges = s.edges + (n - s.pending.length))

/-- R473, R484: in every run that takes no COLD_RESET the straps and the OTP generation in force of both dies stay what they are. -/
def Obligations.OnlyColdResetChangesIdentity : Prop :=
  (∀ k g0 g1 s t, Identity k g0 g1 s → step s = .next t → (∀ c rest, s.pending = c :: rest → isColdReset c = false) → Identity k g0 g1 t) ∧
  (∀ n k g0 g1 s t, Identity k g0 g1 s → Runs n s t → (∀ c ∈ s.pending.take n, isColdReset c = false) → Identity k g0 g1 t)

/-- R34, R47, R124, R169, R203, R259, R463: after reset die 0 holds custody, function 0 every capability and the others none; every lane is disabled
with its pins pulled up, every slot free, every chord disarmed, every queue absent, every timer stopped, no meter owned; memories hold nothing; the
invariants of the statements hold. -/
def Obligations.ResetLeavesItsValues : Prop :=
  State.reset.pkg.custody = 0 ∧ State.reset.pkg.split = false ∧ State.reset.pkg.sleep = 0x0000000403E8000A ∧ State.reset.pending = [] ∧
  (∀ f, (State.reset.func f).caps = if f = 0 then 0x1F else 0) ∧ (∀ n, (State.reset.lane n).cfg = 0 ∧ (State.reset.lane n).pins = 0x50) ∧
  (∀ n, (State.reset.slot n).st = .free) ∧ (∀ c, (State.reset.chord c).st = .disarmed) ∧ (∀ f q, (State.reset.queue f q).st = .absent) ∧
  (∀ t, (State.reset.timer t).run = false) ∧ (∀ m, (State.reset.meter m).owner = 15) ∧ (∀ v, State.reset.level v = false) ∧
  (∀ a, memRead State.reset.hostMem a = 0) ∧ State.reset.memoriesWf = true ∧
  Identity { devid := 0, standby := false, tiebreak := false, otpSkip := false } 0 0 State.reset

/-- R145, R513: a posted write that leaves stores its bytes and no other byte of host memory, is the last of the writes that have left, and keeps the
memory's form; a function that does not master the bus holds it, and one in reset makes none. -/
def Obligations.PostedWritesLand : Prop :=
  (∀ s p, (postOut s p).posted = s.posted ++ [p] ∧ (memWf s.hostMem = true → memWf (postOut s p).hostMem = true) ∧
    (∀ a, memRead (postOut s p).hostMem a =
      if p.addr.toNat ≤ a ∧ a < p.addr.toNat + p.bytes.length then p.bytes.getD (a - p.addr.toNat) 0 else memRead s.hostMem a) ∧
    postOut s p = { s with hostMem := (postOut s p).hostMem, posted := (postOut s p).posted }) ∧
  (∀ s f k a bs holds,
    ((s.func f).inReset = true → postWrite s f k a bs holds = s) ∧
    ((s.func f).inReset = false → (holds = false ∨ masters s f = true) →
      postWrite s f k a bs holds = postOut s { fn := f, addr := w64 a, bytes := bs, kind := k }) ∧
    ((s.func f).inReset = false → holds = true → masters s f = false →
      postWrite s f k a bs holds = { s with funcs := (postWrite s f k a bs holds).funcs } ∧
      ((postWrite s f k a bs holds).func f).held = (s.func f).held ++ [{ fn := f, addr := w64 a, bytes := bs, kind := k }] ∧
      (∀ g, g ≠ f → (postWrite s f k a bs holds).func g = s.func g)))

/-- R20, R73, R295–R298, R417: what the device reports changes nothing but the reports: notices and pulses change their targets alone, a shared source
itself and its target, a unit error its targets, a violation the log and its sources, a black-box record the box and its source, a lane error the lane
and its owner's target. -/
def Obligations.ReportsChangeOnlyReports : Prop :=
  (∀ s t src k data, raisePulse s t src k data = { s with targets := (raisePulse s t src k data).targets } ∧
    raiseNotice s t src data = { s with targets := (raiseNotice s t src data).targets } ∧
    (∀ u, u ≠ t → (raiseNotice s t src data).target u = s.target u)) ∧
  (∀ s n k data, pendShared s n k data = { s with targets := (pendShared s n k data).targets, shared := (pendShared s n k data).shared } ∧
    (∀ m, m ≠ n → (pendShared s n k data).source m = s.source m)) ∧
  (∀ s d ty u fs, unitError s d ty u fs = { s with targets := (unitError s d ty u fs).targets }) ∧
  (∀ s d k who a v x, violate s d k who a v x = { s with
    die0 := (violate s d k who a v x).die0, die1 := (violate s d k who a v x).die1, targets := (violate s d k who a v x).targets
    shared := (violate s d k who a v x).shared }) ∧
  (∀ s d k f a x time, bbxRecordAt s d k f a x time = { s with
    die0 := (bbxRecordAt s d k f a x time).die0, die1 := (bbxRecordAt s d k f a x time).die1
    targets := (bbxRecordAt s d k f a x time).targets, shared := (bbxRecordAt s d k f a x time).shared } ∧
    ((s.die d).bbx.frozen = true → d < 2 → ∀ e, e < 2 → ((bbxRecordAt s d k f a x time).die e).bbx.records = (s.die e).bbx.records)) ∧
  (∀ s n bits ibi, setLaneErr s n bits ibi = { s with lanes := (setLaneErr s n bits ibi).lanes, targets := (setLaneErr s n bits ibi).targets } ∧
    ((setLaneErr s n bits ibi).lane n).err = (s.lane n).err ||| w32 bits ∧ (∀ m, m ≠ n → (setLaneErr s n bits ibi).lane m = s.lane m))

/-- R7: the bytes of a field are its base-256 digits, lowest first, and spell it again; a field of a structure is spelt by the bytes that hold it. -/
def Obligations.BytesAreLittleEndian : Prop :=
  (∀ n v, leNat (leBytes n v) = v % 256 ^ n) ∧ (∀ bs, leBytes bs.length (leNat bs) = bs) ∧
  (∀ n v i, i < n → ((leBytes n v).getD i 0).toNat = v / 256 ^ i % 256) ∧
  (∀ bs i, i + 8 ≤ bs.length → u64 bs i = u32 bs i + 2 ^ 32 * u32 bs (i + 4) ∧ u32 bs i = u16 bs i + 2 ^ 16 * u16 bs (i + 2) ∧
    u16 bs i = u8 bs i + 2 ^ 8 * u8 bs (i + 1))

/-- R62: the on-chip address of tile t of region r. -/
def Obligations.TilesHaveOnChipAddresses : Prop :=
  ∀ r t, r < 8 → t < 512 → tileAddr (512 * r + t) = 0x8000000000000000 + r / 4 * 0x08000000 + r % 4 * 0x01000000 + t * 0x1000

/-- R36: a sentinel's ball is low while either half asserts the sentinel and released only when neither does; a half that has stopped asserts none. -/
def Obligations.EitherHalfAssertsASentinel : Prop :=
  ∀ s k, (sentinelLow s k = true ↔
      (dieUp s 0 = true ∧ s.pkg.sentinel0.toNat / 2 ^ k % 2 = 1) ∨ (dieUp s 1 = true ∧ s.pkg.sentinel1.toNat / 2 ^ k % 2 = 1)) ∧
    (sentinelLow s k = false ↔
      ¬(dieUp s 0 = true ∧ s.pkg.sentinel0.toNat / 2 ^ k % 2 = 1) ∧ ¬(dieUp s 1 = true ∧ s.pkg.sentinel1.toNat / 2 ^ k % 2 = 1))

/-- R447, R450: a device that hears a newer EPOCH takes it at once with its root, a lower root of the same EPOCH is taken too, any other is not; the
apex takes a newer EPOCH by standing off. -/
def Obligations.NewerEpochIsFollowed : Prop :=
  (∀ a b : Byte, epochNewer a b = true ↔ 1 ≤ (a.toNat + 256 - b.toNat) % 256 ∧ (a.toNat + 256 - b.toNat) % 256 ≤ 127) ∧
  (∀ s root epoch, s.pkg.sysId ≠ 0 →
    (epochNewer epoch s.pkg.epoch = true → (hearRoot s root epoch).pkg.epoch = epoch ∧ (hearRoot s root epoch).pkg.root = root) ∧
    (epoch = s.pkg.epoch → root.toNat < s.pkg.root.toNat → (hearRoot s root epoch).pkg.epoch = epoch ∧ (hearRoot s root epoch).pkg.root = root) ∧
    (epochNewer epoch s.pkg.epoch = false → ¬(epoch = s.pkg.epoch ∧ root.toNat < s.pkg.root.toNat) → hearRoot s root epoch = s)) ∧
  (∀ s root epoch, s.pkg.sysId = 0 → epochNewer epoch s.pkg.epoch = true →
    (hearRoot s root epoch).pkg.epoch = epoch ∧ (hearRoot s root epoch).pkg.standoff = true ∧
    (∀ p, p < 4 → (s.port p).st = .up → ((hearRoot s root epoch).port p).st = .standoff))
end

