-- ==== Sys2Proof/Machine/LinkWire.lean ====
section
/-! DEFINITION. The line of a Polob link: what a port has sent as 64b/66b blocks, each with its sync header and its bits scrambled
(R431–R433). -/

namespace Sys2Proof.Machine

/-- A block before scrambling: a control block or a data block, and its 8 bytes with byte 0 in the low bits. -/
structure LinkBlock where
  control : Bool
  bits : DWord
  deriving DecidableEq, Repr

/-- The sync header (R431). -/
def syncHeader (b : LinkBlock) : BitVec 2 := if b.control then 0b10 else 0b01

/-- A control block of a TYPE and its bytes 1–6, with the CRC-8 of bytes 0–6 as byte 7 (R432). -/
def controlBlock (type : Byte) (body : List Byte) : LinkBlock :=
  let bs := type :: (body ++ List.replicate (6 - body.length) 0).take 6
  { control := true, bits := BitVec.ofNat 64 (leNat (bs ++ [pecOf bs])) }

/-- IDLE: zeros, and no CRC. -/
def idleBlock : LinkBlock := { control := true, bits := 0x1E }

/-- KIND of a packet (R433). -/
def packetKind : LinkItem → Nat
  | .hello .. => 0x01
  | .join .. => 0x02
  | .laneCmd .. => 0x03
  | .laneData .. => 0x04
  | .laneResult .. => 0x05
  | .subscribe .. => 0x06
  | _ => 0x07

/-- Source and destination of a packet's HEADER; a packet to the neighbour alone names `peer`. -/
def packetEnds (peer : BitVec 5) : LinkItem → BitVec 5 × BitVec 5
  | .laneCmd src dest _ => (src, dest)
  | .laneData src dest _ _ _ => (src, dest)
  | .laneResult src dest _ _ _ _ _ => (src, dest)
  | .subscribe src dest _ _ _ => (src, dest)
  | .hello src .. => (src, peer)
  | .join src _ => (src, peer)
  | .handback src => (src, peer)
  | _ => (0, peer)

/-- The blocks of a packet: HEADER, its data blocks, and TRAILER with the CRC-32C over header and data bytes (R432, R433). -/
def packetWire (peer : BitVec 5) (seq : Half) (it : LinkItem) (data : List DWord) : List LinkBlock :=
  let data := data.take 32
  let ends := packetEnds peer it
  let head := controlBlock 0x4B ([w8 ((itemChannel it).getD 0 + 4 * data.length), w8 ends.2.toNat, w8 ends.1.toNat] ++
    leBytes 2 seq.toNat ++ [w8 (packetKind it)])
  let covered := leBytes 8 head.bits.toNat ++ (data.map (fun d => leBytes 8 d.toNat)).flatten
  let crc := (covered.foldl crc32c 0xFFFFFFFF) ^^^ 0xFFFFFFFF
  head :: data.map (fun d => { control := false, bits := d }) ++ [controlBlock 0x55 (leBytes 4 crc ++ leBytes 2 seq.toNat)]

/-- The blocks of an item a port sent (R432). -/
def itemWire (peer : BitVec 5) (data : List DWord) : LinkItem → List LinkBlock
  | .heartbeat root hops attached epoch rootSeq time =>
    [controlBlock 0x78 ([w8 (root.toNat + 32 * hops.toNat + 128 * b2n attached), epoch, rootSeq] ++ leBytes 3 time.toNat)]
  | .delayReq time => [controlBlock 0x87 (0 :: leBytes 5 time.toNat)]
  | .delayResp time => [controlBlock 0x87 (1 :: leBytes 5 time.toNat)]
  | .vertex b dest index level change src =>
    [controlBlock 0x2D ([w8 (dest.toNat + 32 * b.toNat), w8 (index.toNat + 128 * b2n level)] ++ leBytes 2 change.toNat ++ [w8 src.toNat])]
  | .signal b dest n data => [controlBlock 0x33 ([w8 (dest.toNat + 32 * b.toNat), n] ++ leBytes 4 data.toNat)]
  | .ackBlock b => [controlBlock 0x66 [w8 (2 + 4 * b.toNat)]]
  | .ackPacket nak seq p np cpl => [controlBlock 0x66 ([w8 (b2n nak)] ++ leBytes 2 seq.toNat ++ [w8 p, w8 np, w8 cpl])]
  | .idle => [idleBlock]
  | .packet seq it => packetWire peer seq it data
  | _ => []

/-- The blocks of port `n` in the order sent. -/
def portBlocks (n : Nat) (x : LinkPort) : List LinkBlock :=
  ((List.range x.sent.length).map (fun k => itemWire x.peerId (Config.packetData n k) (x.sent.getD k .idle))).flatten

/-- One bit through the self-synchronising scrambler of x^58 + x^39 + 1 (R431): the register after it, its newest bit lowest, and the
bit on the line. -/
def scrambleBit (reg : BitVec 58) (b : Bool) : BitVec 58 × Bool :=
  let y := b ^^ reg.getLsbD 38 ^^ reg.getLsbD 57
  ((reg <<< 1) ||| (if y then 1 else 0), y)

/-- Bits through the scrambler, in order. -/
def scrambleBits : BitVec 58 → List Bool → BitVec 58 × List Bool
  | reg, [] => (reg, [])
  | reg, b :: bs =>
    let r := scrambleBit reg b
    let t := scrambleBits r.1 bs
    (t.1, r.2 :: t.2)

/-- The blocks of 66 bits on the line: sync headers go unscrambled, the scrambler runs on from block to block. -/
def lineOf : BitVec 58 → List LinkBlock → List (BitVec 2 × List Bool)
  | _, [] => []
  | reg, b :: bs =>
    let r := scrambleBits reg ((List.range 64).map (fun i => wb b.bits i))
    (syncHeader b, r.2) :: lineOf r.1 bs

/-- What port `n` has put on its line (R431). -/
def portLine (s : State) (n : Nat) : List (BitVec 2 × List Bool) :=
  lineOf (Config.scramblerStart n) (portBlocks n (s.port n))

/-- A receiver's descrambler: the bits of a block, from the register of the line bits before it (R431). -/
def descrambleBits : BitVec 58 → List Bool → List Bool
  | _, [] => []
  | reg, y :: ys => (y ^^ reg.getLsbD 38 ^^ reg.getLsbD 57) :: descrambleBits ((reg <<< 1) ||| (if y then 1 else 0)) ys

end Sys2Proof.Machine
end

