-- ==== Sys2Proof/Laws/Links.lean ====
section
/-! SUPPORT. Laws of a Polob link's line (R431). -/

namespace Sys2Proof.Machine

theorem scrambleBits_cons (reg : BitVec 58) (b : Bool) (bs : List Bool) :
    (scrambleBits reg (b :: bs)).2 = (scrambleBit reg b).2 :: (scrambleBits (scrambleBit reg b).1 bs).2 := rfl

/-- The scrambler sends one bit for each bit it takes. -/
@[simp] theorem scrambleBits_length (reg : BitVec 58) (bs : List Bool) : (scrambleBits reg bs).2.length = bs.length := by
  induction bs generalizing reg with
  | nil => rfl
  | cons b bs ih => simp [scrambleBits_cons, ih]

/-- A receiver whose register holds the line bits before a block gets the sent bits back. -/
theorem descrambleBits_scrambleBits (reg : BitVec 58) (bs : List Bool) : descrambleBits reg (scrambleBits reg bs).2 = bs := by
  induction bs generalizing reg with
  | nil => rfl
  | cons b bs ih =>
    rw [scrambleBits_cons, descrambleBits]
    exact congr (congrArg _ (by cases b <;> simp only [scrambleBit] <;> cases reg.getLsbD 38 <;> cases reg.getLsbD 57 <;> rfl)) (ih _)

/-- The line carries one block of 66 bits for each block sent. -/
@[simp] theorem lineOf_length (reg : BitVec 58) (bs : List LinkBlock) : (lineOf reg bs).length = bs.length := by
  induction bs generalizing reg with
  | nil => rfl
  | cons b bs ih => simp [lineOf, ih]

end Sys2Proof.Machine
end

