-- ==== Sys2Proof/Laws/Run.lean ====
section
/-! SUPPORT. Every command but a cold reset is a run of its meaning between the state before it and what `settle` keeps (log 1, log 2). -/

namespace Sys2Proof.Machine

/-- What a run answers. -/
theorem run_eq (i : Instr) (s : State) (f : State → State) (h : i.wf = true) : run i s f = .next (settle s (f s)) := by simp [run, h]

/-- A run of a command that names an element the device does not have changes nothing. -/
theorem run_ill_formed (i : Instr) (s : State) (f : State → State) (h : i.wf = false) : run i s f = .next s := by simp [run, h]

/-- Every command but a cold reset is a run. -/
theorem exec_is_run (c : Instr) (s : State) (h : ∀ k f, c ≠ .coldReset k f) : ∃ f, exec c s = run c s f := by
  cases c with
  | nop slot => exact ⟨_, Eq.refl (Sys2Proof.Machine.execNop slot s)⟩
  | write slot => exact ⟨_, Eq.refl (Sys2Proof.Machine.execWrite slot s)⟩
  | read slot => exact ⟨_, Eq.refl (Sys2Proof.Machine.execRead slot s)⟩
  | xact slot => exact ⟨_, Eq.refl (Sys2Proof.Machine.execXact slot s)⟩
  | laneReset slot => exact ⟨_, Eq.refl (Sys2Proof.Machine.execLaneReset slot s)⟩
  | busRecover slot => exact ⟨_, Eq.refl (Sys2Proof.Machine.execBusRecover slot s)⟩
  | release slot => exact ⟨_, Eq.refl (Sys2Proof.Machine.execRelease slot s)⟩
  | rxFlush slot => exact ⟨_, Eq.refl (Sys2Proof.Machine.execRxFlush slot s)⟩
  | uartBreak slot => exact ⟨_, Eq.refl (Sys2Proof.Machine.execUartBreak slot s)⟩
  | tachRestart slot => exact ⟨_, Eq.refl (Sys2Proof.Machine.execTachRestart slot s)⟩
  | pwmForce slot => exact ⟨_, Eq.refl (Sys2Proof.Machine.execPwmForce slot s)⟩
  | sense slot => exact ⟨_, Eq.refl (Sys2Proof.Machine.execSense slot s)⟩
  | gangWrite slot => exact ⟨_, Eq.refl (Sys2Proof.Machine.execGangWrite slot s)⟩
  | jump slot => exact ⟨_, Eq.refl (Sys2Proof.Machine.execJump slot s)⟩
  | test slot => exact ⟨_, Eq.refl (Sys2Proof.Machine.execTest slot s)⟩
  | wait slot => exact ⟨_, Eq.refl (Sys2Proof.Machine.execWait slot s)⟩
  | delay slot => exact ⟨_, Eq.refl (Sys2Proof.Machine.execDelay slot s)⟩
  | signal slot => exact ⟨_, Eq.refl (Sys2Proof.Machine.execSignal slot s)⟩
  | post slot => exact ⟨_, Eq.refl (Sys2Proof.Machine.execPost slot s)⟩
  | meterCcwRead slot => exact ⟨_, Eq.refl (Sys2Proof.Machine.execMeterCcwRead slot s)⟩
  | meterCcwLoad slot => exact ⟨_, Eq.refl (Sys2Proof.Machine.execMeterCcwLoad slot s)⟩
  | meterCcwClear slot => exact ⟨_, Eq.refl (Sys2Proof.Machine.execMeterCcwClear slot s)⟩
  | mark slot => exact ⟨_, Eq.refl (Sys2Proof.Machine.execMark slot s)⟩
  | copy slot => exact ⟨_, Eq.refl (Sys2Proof.Machine.execCopy slot s)⟩
  | halt slot => exact ⟨_, Eq.refl (Sys2Proof.Machine.execHalt slot s)⟩
  | ccwFetch slot => exact ⟨_, Eq.refl (Sys2Proof.Machine.execCcwFetch slot s)⟩
  | hostReadCompletion id addr data st => exact ⟨_, Eq.refl (Sys2Proof.Machine.execHostReadCompletion id addr data st s)⟩
  | completionTimeout id addr len => exact ⟨_, Eq.refl (Sys2Proof.Machine.execCompletionTimeout id addr len s)⟩
  | programAdmit cluster adopted => exact ⟨_, Eq.refl (Sys2Proof.Machine.execProgramAdmit cluster adopted s)⟩
  | laneTransactionEnd lane res => exact ⟨_, Eq.refl (Sys2Proof.Machine.execLaneTransactionEnd lane res s)⟩
  | forwardedCommand cluster => exact ⟨_, Eq.refl (Sys2Proof.Machine.execForwardedCommand cluster s)⟩
  | forwardedResult slot => exact ⟨_, Eq.refl (Sys2Proof.Machine.execForwardedResult slot s)⟩
  | pathPiece slot pos recv => exact ⟨_, Eq.refl (Sys2Proof.Machine.execPathPiece slot pos recv s)⟩
  | waitTimeout slot => exact ⟨_, Eq.refl (Sys2Proof.Machine.execWaitTimeout slot s)⟩
  | delayElapsed slot => exact ⟨_, Eq.refl (Sys2Proof.Machine.execDelayElapsed slot s)⟩
  | laneTimeout lane w => exact ⟨_, Eq.refl (Sys2Proof.Machine.execLaneTimeout lane w s)⟩
  | laneStallTimeout lane sent recv => exact ⟨_, Eq.refl (Sys2Proof.Machine.execLaneStallTimeout lane sent recv s)⟩
  | holdTimeout lane => exact ⟨_, Eq.refl (Sys2Proof.Machine.execHoldTimeout lane s)⟩
  | transactionCut lane sent recv => exact ⟨_, Eq.refl (Sys2Proof.Machine.execTransactionCut lane sent recv s)⟩
  | start src => exact ⟨_, Eq.refl (Sys2Proof.Machine.execStart src s)⟩
  | resume src => exact ⟨_, Eq.refl (Sys2Proof.Machine.execResume src s)⟩
  | haltProgram src => exact ⟨_, Eq.refl (Sys2Proof.Machine.execHaltProgram src s)⟩
  | armChord src => exact ⟨_, Eq.refl (Sys2Proof.Machine.execArmChord src s)⟩
  | disarmChord src => exact ⟨_, Eq.refl (Sys2Proof.Machine.execDisarmChord src s)⟩
  | signalWorkOrder src => exact ⟨_, Eq.refl (Sys2Proof.Machine.execSignalWorkOrder src s)⟩
  | meterSet src => exact ⟨_, Eq.refl (Sys2Proof.Machine.execMeterSet src s)⟩
  | meterRead src => exact ⟨_, Eq.refl (Sys2Proof.Machine.execMeterRead src s)⟩
  | bufferAlloc src => exact ⟨_, Eq.refl (Sys2Proof.Machine.execBufferAlloc src s)⟩
  | bufferFree src => exact ⟨_, Eq.refl (Sys2Proof.Machine.execBufferFree src s)⟩
  | laneConfigRegisters src => exact ⟨_, Eq.refl (Sys2Proof.Machine.execLaneConfigRegisters src s)⟩
  | laneConfigLaneSet src => exact ⟨_, Eq.refl (Sys2Proof.Machine.execLaneConfigLaneSet src s)⟩
  | nopWorkOrder src => exact ⟨_, Eq.refl (Sys2Proof.Machine.execNopWorkOrder src s)⟩
  | identify src => exact ⟨_, Eq.refl (Sys2Proof.Machine.execIdentify src s)⟩
  | createQueue src => exact ⟨_, Eq.refl (Sys2Proof.Machine.execCreateQueue src s)⟩
  | destroyQueue src => exact ⟨_, Eq.refl (Sys2Proof.Machine.execDestroyQueue src s)⟩
  | setChordReserve src => exact ⟨_, Eq.refl (Sys2Proof.Machine.execSetChordReserve src s)⟩
  | setSleepPolicy src => exact ⟨_, Eq.refl (Sys2Proof.Machine.execSetSleepPolicy src s)⟩
  | warmReset src => exact ⟨_, Eq.refl (Sys2Proof.Machine.execWarmReset src s)⟩
  | setMailboxNotify src => exact ⟨_, Eq.refl (Sys2Proof.Machine.execSetMailboxNotify src s)⟩
  | getFeature src => exact ⟨_, Eq.refl (Sys2Proof.Machine.execGetFeature src s)⟩
  | createEventRing src => exact ⟨_, Eq.refl (Sys2Proof.Machine.execCreateEventRing src s)⟩
  | destroyEventRing src => exact ⟨_, Eq.refl (Sys2Proof.Machine.execDestroyEventRing src s)⟩
  | firmwareStage src => exact ⟨_, Eq.refl (Sys2Proof.Machine.execFirmwareStage src s)⟩
  | firmwareActivate src => exact ⟨_, Eq.refl (Sys2Proof.Machine.execFirmwareActivate src s)⟩
  | liveActivation src => exact ⟨_, Eq.refl (Sys2Proof.Machine.execLiveActivation src s)⟩
  | halfReloadDone d ok => exact ⟨_, Eq.refl (Sys2Proof.Machine.execHalfReloadDone d ok s)⟩
  | otpCommit src verify0 verify1 => exact ⟨_, Eq.refl (Sys2Proof.Machine.execOtpCommit src verify0 verify1 s)⟩
  | blackboxRead src => exact ⟨_, Eq.refl (Sys2Proof.Machine.execBlackboxRead src s)⟩
  | policyLoad src => exact ⟨_, Eq.refl (Sys2Proof.Machine.execPolicyLoad src s)⟩
  | policyStart src => exact ⟨_, Eq.refl (Sys2Proof.Machine.execPolicyStart src s)⟩
  | policyStop src => exact ⟨_, Eq.refl (Sys2Proof.Machine.execPolicyStop src s)⟩
  | policyUnload src => exact ⟨_, Eq.refl (Sys2Proof.Machine.execPolicyUnload src s)⟩
  | policyStatus src => exact ⟨_, Eq.refl (Sys2Proof.Machine.execPolicyStatus src s)⟩
  | grantCapability src => exact ⟨_, Eq.refl (Sys2Proof.Machine.execGrantCapability src s)⟩
  | linkStatus src => exact ⟨_, Eq.refl (Sys2Proof.Machine.execLinkStatus src s)⟩
  | linkPorts src => exact ⟨_, Eq.refl (Sys2Proof.Machine.execLinkPorts src s)⟩
  | linkAlias src => exact ⟨_, Eq.refl (Sys2Proof.Machine.execLinkAlias src s)⟩
  | linkHandback src => exact ⟨_, Eq.refl (Sys2Proof.Machine.execLinkHandback src s)⟩
  | twinConfig src => exact ⟨_, Eq.refl (Sys2Proof.Machine.execTwinConfig src s)⟩
  | untwin src => exact ⟨_, Eq.refl (Sys2Proof.Machine.execUntwin src s)⟩
  | mailboxRequest who f value => exact ⟨_, Eq.refl (Sys2Proof.Machine.execMailboxRequest who f value s)⟩
  | doorbell f q value => exact ⟨_, Eq.refl (Sys2Proof.Machine.execDoorbell f q value s)⟩
  | entryFetch f => exact ⟨_, Eq.refl (Sys2Proof.Machine.execEntryFetch f s)⟩
  | headPublish f q => exact ⟨_, Eq.refl (Sys2Proof.Machine.execHeadPublish f q s)⟩
  | adminEnable f value => exact ⟨_, Eq.refl (Sys2Proof.Machine.execAdminEnable f value s)⟩
  | adminDisable f value => exact ⟨_, Eq.refl (Sys2Proof.Machine.execAdminDisable f value s)⟩
  | busMasterChange f d0 bme bar0 bar2 => exact ⟨_, Eq.refl (Sys2Proof.Machine.execBusMasterChange f d0 bme bar0 bar2 s)⟩
  | registerWrite who bar2 offset value high full => exact ⟨_, Eq.refl (Sys2Proof.Machine.execRegisterWrite who bar2 offset value high full s)⟩
  | idlePointApply b => exact ⟨_, Eq.refl (Sys2Proof.Machine.execIdlePointApply b s)⟩
  | lowDwordRead who bar2 offset => exact ⟨_, Eq.refl (Sys2Proof.Machine.execLowDwordRead who bar2 offset s)⟩
  | snapshotLatchRead meter => exact ⟨_, Eq.refl (Sys2Proof.Machine.execSnapshotLatchRead meter s)⟩
  | windowEntryWrite who d entry first bytes => exact ⟨_, Eq.refl (Sys2Proof.Machine.execWindowEntryWrite who d entry first bytes s)⟩
  | windowInvalidate who d value => exact ⟨_, Eq.refl (Sys2Proof.Machine.execWindowInvalidate who d value s)⟩
  | laneCfgWrite who lane value => exact ⟨_, Eq.refl (Sys2Proof.Machine.execLaneCfgWrite who lane value s)⟩
  | snsWinWrite who input w value => exact ⟨_, Eq.refl (Sys2Proof.Machine.execSnsWinWrite who input w value s)⟩
  | mtrSetWrite who meter w value => exact ⟨_, Eq.refl (Sys2Proof.Machine.execMtrSetWrite who meter w value s)⟩
  | mtrClear meter => exact ⟨_, Eq.refl (Sys2Proof.Machine.execMtrClear meter s)⟩
  | chdRearm who chord => exact ⟨_, Eq.refl (Sys2Proof.Machine.execChdRearm who chord s)⟩
  | chdClear chord => exact ⟨_, Eq.refl (Sys2Proof.Machine.execChdClear chord s)⟩
  | unitResetLane who d unit sent recv => exact ⟨_, Eq.refl (Sys2Proof.Machine.execUnitResetLane who d unit sent recv s)⟩
  | unitResetEngine who d unit => exact ⟨_, Eq.refl (Sys2Proof.Machine.execUnitResetEngine who d unit s)⟩
  | unitResetSlot who d unit => exact ⟨_, Eq.refl (Sys2Proof.Machine.execUnitResetSlot who d unit s)⟩
  | unitResetChannel who d unit => exact ⟨_, Eq.refl (Sys2Proof.Machine.execUnitResetChannel who d unit s)⟩
  | unitResetMeter who d unit => exact ⟨_, Eq.refl (Sys2Proof.Machine.execUnitResetMeter who d unit s)⟩
  | unitResetChord who d unit => exact ⟨_, Eq.refl (Sys2Proof.Machine.execUnitResetChord who d unit s)⟩
  | timerRun who timer periodic => exact ⟨_, Eq.refl (Sys2Proof.Machine.execTimerRun who timer periodic s)⟩
  | timerStop timer periodic => exact ⟨_, Eq.refl (Sys2Proof.Machine.execTimerStop timer periodic s)⟩
  | vertexTimerExpiry timer => exact ⟨_, Eq.refl (Sys2Proof.Machine.execVertexTimerExpiry timer s)⟩
  | calibrationStart d => exact ⟨_, Eq.refl (Sys2Proof.Machine.execCalibrationStart d s)⟩
  | calibrationDone d codes => exact ⟨_, Eq.refl (Sys2Proof.Machine.execCalibrationDone d codes s)⟩
  | xfrStart who ch => exact ⟨_, Eq.refl (Sys2Proof.Machine.execXfrStart who ch s)⟩
  | xfrStop ch => exact ⟨_, Eq.refl (Sys2Proof.Machine.execXfrStop ch s)⟩
  | xfrRunPiece ch => exact ⟨_, Eq.refl (Sys2Proof.Machine.execXfrRunPiece ch s)⟩
  | xfrCountEnd ch => exact ⟨_, Eq.refl (Sys2Proof.Machine.execXfrCountEnd ch s)⟩
  | arbClear region => exact ⟨_, Eq.refl (Sys2Proof.Machine.execArbClear region s)⟩
  | arbPhase region reqs withdraw => exact ⟨_, Eq.refl (Sys2Proof.Machine.execArbPhase region reqs withdraw s)⟩
  | regionReset who d q => exact ⟨_, Eq.refl (Sys2Proof.Machine.execRegionReset who d q s)⟩
  | resetLost who => exact ⟨_, Eq.refl (Sys2Proof.Machine.execResetLost who s)⟩
  | bbxFreeze d => exact ⟨_, Eq.refl (Sys2Proof.Machine.execBbxFreeze d s)⟩
  | bbxUnfreeze d => exact ⟨_, Eq.refl (Sys2Proof.Machine.execBbxUnfreeze d s)⟩
  | evcHeadWrite target value => exact ⟨_, Eq.refl (Sys2Proof.Machine.execEvcHeadWrite target value s)⟩
  | evcAck target value => exact ⟨_, Eq.refl (Sys2Proof.Machine.execEvcAck target value s)⟩
  | evcRouteWrite who d source value => exact ⟨_, Eq.refl (Sys2Proof.Machine.execEvcRouteWrite who d source value s)⟩
  | moderationWrite who target group value => exact ⟨_, Eq.refl (Sys2Proof.Machine.execModerationWrite who target group value s)⟩
  | msixUnmask f => exact ⟨_, Eq.refl (Sys2Proof.Machine.execMsixUnmask f s)⟩
  | eventRecordWrite target => exact ⟨_, Eq.refl (Sys2Proof.Machine.execEventRecordWrite target s)⟩
  | moderationTimer target group => exact ⟨_, Eq.refl (Sys2Proof.Machine.execModerationTimer target group s)⟩
  | lanePinChange lane pinB level samples openPhase => exact ⟨_, Eq.refl (Sys2Proof.Machine.execLanePinChange lane pinB level samples openPhase s)⟩
  | fastVertexChange fv level ns samples => exact ⟨_, Eq.refl (Sys2Proof.Machine.execFastVertexChange fv level ns samples s)⟩
  | comparatorCrossing input w code samples => exact ⟨_, Eq.refl (Sys2Proof.Machine.execComparatorCrossing input w code samples s)⟩
  | comparatorHoldEnd input w code => exact ⟨_, Eq.refl (Sys2Proof.Machine.execComparatorHoldEnd input w code s)⟩
  | thermalCrossing d celsius => exact ⟨_, Eq.refl (Sys2Proof.Machine.execThermalCrossing d celsius s)⟩
  | chordFire chord cuts => exact ⟨_, Eq.refl (Sys2Proof.Machine.execChordFire chord cuts s)⟩
  | leadStroke lane => exact ⟨_, Eq.refl (Sys2Proof.Machine.execLeadStroke lane s)⟩
  | pulseEnd lane => exact ⟨_, Eq.refl (Sys2Proof.Machine.execPulseEnd lane s)⟩
  | leadFrameStart lane => exact ⟨_, Eq.refl (Sys2Proof.Machine.execLeadFrameStart lane s)⟩
  | leadFrameEnd lane => exact ⟨_, Eq.refl (Sys2Proof.Machine.execLeadFrameEnd lane s)⟩
  | chordHoldoffEnd chord => exact ⟨_, Eq.refl (Sys2Proof.Machine.execChordHoldoffEnd chord s)⟩
  | adcConversion input code clip cmRange => exact ⟨_, Eq.refl (Sys2Proof.Machine.execAdcConversion input code clip cmRange s)⟩
  | meterSlot meter => exact ⟨_, Eq.refl (Sys2Proof.Machine.execMeterSlot meter s)⟩
  | smbusHostNotify lane address data => exact ⟨_, Eq.refl (Sys2Proof.Machine.execSmbusHostNotify lane address data s)⟩
  | inBandInterrupt lane address payload => exact ⟨_, Eq.refl (Sys2Proof.Machine.execInBandInterrupt lane address payload s)⟩
  | uartRxByte lane byte parity stop => exact ⟨_, Eq.refl (Sys2Proof.Machine.execUartRxByte lane byte parity stop s)⟩
  | tachEdge lane rising => exact ⟨_, Eq.refl (Sys2Proof.Machine.execTachEdge lane rising s)⟩
  | tachStall lane => exact ⟨_, Eq.refl (Sys2Proof.Machine.execTachStall lane s)⟩
  | targetMailboxTransfer lane req => exact ⟨_, Eq.refl (Sys2Proof.Machine.execTargetMailboxTransfer lane req s)⟩
  | bankFault cluster measured inRange => exact ⟨_, Eq.refl (Sys2Proof.Machine.execBankFault cluster measured inRange s)⟩
  | scrubRead mem inst word found => exact ⟨_, Eq.refl (Sys2Proof.Machine.execScrubRead mem inst word found s)⟩
  | engineFault cluster => exact ⟨_, Eq.refl (Sys2Proof.Machine.execEngineFault cluster s)⟩
  | spareTakeover cluster => exact ⟨_, Eq.refl (Sys2Proof.Machine.execSpareTakeover cluster s)⟩
  | laneUnitFault lane sent recv => exact ⟨_, Eq.refl (Sys2Proof.Machine.execLaneUnitFault lane sent recv s)⟩
  | lockstepMismatch d => exact ⟨_, Eq.refl (Sys2Proof.Machine.execLockstepMismatch d s)⟩
  | rollbackComplete d => exact ⟨_, Eq.refl (Sys2Proof.Machine.execRollbackComplete d s)⟩
  | fastClockFailure d => exact ⟨_, Eq.refl (Sys2Proof.Machine.execFastClockFailure d s)⟩
  | dieWatchdogExpiry d => exact ⟨_, Eq.refl (Sys2Proof.Machine.execDieWatchdogExpiry d s)⟩
  | supplyOutOfRange d => exact ⟨_, Eq.refl (Sys2Proof.Machine.execSupplyOutOfRange d s)⟩
  | aliveSilence d => exact ⟨_, Eq.refl (Sys2Proof.Machine.execAliveSilence d s)⟩
  | splitEntry => exact ⟨_, Eq.refl (Sys2Proof.Machine.execSplitEntry s)⟩
  | adoption lost => exact ⟨_, Eq.refl (Sys2Proof.Machine.execAdoption lost s)⟩
  | lostHalfReset d => exact ⟨_, Eq.refl (Sys2Proof.Machine.execLostHalfReset d s)⟩
  | halfRejoin d => exact ⟨_, Eq.refl (Sys2Proof.Machine.execHalfRejoin d s)⟩
  | arcFlitReceive d seq ok ch => exact ⟨_, Eq.refl (Sys2Proof.Machine.execArcFlitReceive d seq ok ch s)⟩
  | arcDown cause => exact ⟨_, Eq.refl (Sys2Proof.Machine.execArcDown cause s)⟩
  | arcRetrain ok => exact ⟨_, Eq.refl (Sys2Proof.Machine.execArcRetrain ok s)⟩
  | coldReset k failed => exact absurd rfl (h k failed)
  | packageWarmReset => exact ⟨_, Eq.refl (Sys2Proof.Machine.execPackageWarmReset s)⟩
  | pciePortReset port => exact ⟨_, Eq.refl (Sys2Proof.Machine.execPciePortReset port s)⟩
  | functionLevelReset f => exact ⟨_, Eq.refl (Sys2Proof.Machine.execFunctionLevelReset f s)⟩
  | bootImageLoad d image readOk => exact ⟨_, Eq.refl (Sys2Proof.Machine.execBootImageLoad d image readOk s)⟩
  | bootRetry d => exact ⟨_, Eq.refl (Sys2Proof.Machine.execBootRetry d s)⟩
  | firmwareReady d => exact ⟨_, Eq.refl (Sys2Proof.Machine.execFirmwareReady d s)⟩
  | peerEdgeTimeout d => exact ⟨_, Eq.refl (Sys2Proof.Machine.execPeerEdgeTimeout d s)⟩
  | refclkLost d => exact ⟨_, Eq.refl (Sys2Proof.Machine.execRefclkLost d s)⟩
  | refclkRelock d => exact ⟨_, Eq.refl (Sys2Proof.Machine.execRefclkRelock d s)⟩
  | pfailAsserted samples => exact ⟨_, Eq.refl (Sys2Proof.Machine.execPfailAsserted samples s)⟩
  | blackboxSaveDone d => exact ⟨_, Eq.refl (Sys2Proof.Machine.execBlackboxSaveDone d s)⟩
  | regionDozeEntry region => exact ⟨_, Eq.refl (Sys2Proof.Machine.execRegionDozeEntry region s)⟩
  | regionGateEntry region => exact ⟨_, Eq.refl (Sys2Proof.Machine.execRegionGateEntry region s)⟩
  | dieDozeEntry d => exact ⟨_, Eq.refl (Sys2Proof.Machine.execDieDozeEntry d s)⟩
  | dieRestEntry d => exact ⟨_, Eq.refl (Sys2Proof.Machine.execDieRestEntry d s)⟩
  | wakeComplete t ticks access => exact ⟨_, Eq.refl (Sys2Proof.Machine.execWakeComplete t ticks access s)⟩
  | lspLoadArrival d => exact ⟨_, Eq.refl (Sys2Proof.Machine.execLspLoadArrival d s)⟩
  | strStreamEnd d => exact ⟨_, Eq.refl (Sys2Proof.Machine.execStrStreamEnd d s)⟩
  | sysWaitEnd d ctx => exact ⟨_, Eq.refl (Sys2Proof.Machine.execSysWaitEnd d ctx s)⟩
  | stewardBundle d => exact ⟨_, Eq.refl (Sys2Proof.Machine.execStewardBundle d s)⟩
  | eventContextEntry d => exact ⟨_, Eq.refl (Sys2Proof.Machine.execEventContextEntry d s)⟩
  | userSliceEnd d => exact ⟨_, Eq.refl (Sys2Proof.Machine.execUserSliceEnd d s)⟩
  | heartbeatSend port => exact ⟨_, Eq.refl (Sys2Proof.Machine.execHeartbeatSend port s)⟩
  | heartbeatReceive port root hops attached epoch rootSeq time takesUs crcOk => exact ⟨_, Eq.refl (Sys2Proof.Machine.execHeartbeatReceive port root hops attached epoch rootSeq time takesUs crcOk s)⟩
  | delayBlock port response time trip crcOk => exact ⟨_, Eq.refl (Sys2Proof.Machine.execDelayBlock port response time trip crcOk s)⟩
  | ackBlock port nak block bseq seq p np cpl crcOk => exact ⟨_, Eq.refl (Sys2Proof.Machine.execAckBlock port nak block bseq seq p np cpl crcOk s)⟩
  | vertexBlock port dest bseq index level change src crcOk => exact ⟨_, Eq.refl (Sys2Proof.Machine.execVertexBlock port dest bseq index level change src crcOk s)⟩
  | signalBlock port dest bseq n data crcOk => exact ⟨_, Eq.refl (Sys2Proof.Machine.execSignalBlock port dest bseq n data crcOk s)⟩
  | blockResend port => exact ⟨_, Eq.refl (Sys2Proof.Machine.execBlockResend port s)⟩
  | helloPacket port sysId serial hops attached root epoch time => exact ⟨_, Eq.refl (Sys2Proof.Machine.execHelloPacket port sysId serial hops attached root epoch time s)⟩
  | joinPacket port hdr ids => exact ⟨_, Eq.refl (Sys2Proof.Machine.execJoinPacket port hdr ids s)⟩
  | laneCmdPacket port hdr cmd => exact ⟨_, Eq.refl (Sys2Proof.Machine.execLaneCmdPacket port hdr cmd s)⟩
  | laneDataPacket port hdr lane slot data => exact ⟨_, Eq.refl (Sys2Proof.Machine.execLaneDataPacket port hdr lane slot data s)⟩
  | laneResultPacket port hdr slot tag gen res data => exact ⟨_, Eq.refl (Sys2Proof.Machine.execLaneResultPacket port hdr slot tag gen res data s)⟩
  | subscribePacket port hdr index vertex on => exact ⟨_, Eq.refl (Sys2Proof.Machine.execSubscribePacket port hdr index vertex on s)⟩
  | handbackPacket port hdr => exact ⟨_, Eq.refl (Sys2Proof.Machine.execHandbackPacket port hdr s)⟩
  | linkPortDown port why => exact ⟨_, Eq.refl (Sys2Proof.Machine.execLinkPortDown port why s)⟩
  | linkTrainingRetry port => exact ⟨_, Eq.refl (Sys2Proof.Machine.execLinkTrainingRetry port s)⟩
  | pathLoss => exact ⟨_, Eq.refl (Sys2Proof.Machine.execPathLoss s)⟩
  | apexLoss => exact ⟨_, Eq.refl (Sys2Proof.Machine.execApexLoss s)⟩
  | pfailReleased samples => exact ⟨_, Eq.refl (Sys2Proof.Machine.execPfailReleased samples s)⟩
  | aliveRegained d => exact ⟨_, Eq.refl (Sys2Proof.Machine.execAliveRegained d s)⟩
  | regionResetDone region => exact ⟨_, Eq.refl (Sys2Proof.Machine.execRegionResetDone region s)⟩
  | unitResetDone utype unit pass => exact ⟨_, Eq.refl (Sys2Proof.Machine.execUnitResetDone utype unit pass s)⟩
  | pcieLinkDown port => exact ⟨_, Eq.refl (Sys2Proof.Machine.execPcieLinkDown port s)⟩
  | pcieLinkUp port => exact ⟨_, Eq.refl (Sys2Proof.Machine.execPcieLinkUp port s)⟩
  | vddAonLoss d => exact ⟨_, Eq.refl (Sys2Proof.Machine.execVddAonLoss d s)⟩
  | blockLock port => exact ⟨_, Eq.refl (Sys2Proof.Machine.execBlockLock port s)⟩
  | pwmPeriodStart lane => exact ⟨_, Eq.refl (Sys2Proof.Machine.execPwmPeriodStart lane s)⟩
  | windowCacheDrop region => exact ⟨_, Eq.refl (Sys2Proof.Machine.execWindowCacheDrop region s)⟩

/-- What no command changes but a cold reset: the queue behind it, the tick, the straps and the OTP generation in force. -/
theorem settle_keeps (s t : State) :
    (settle s t).pending = s.pending ∧ (settle s t).edges = s.edges ∧ (settle s t).pkg.sysId = s.pkg.sysId ∧
    (settle s t).pkg.standby = s.pkg.standby ∧ (settle s t).pkg.tiebreak = s.pkg.tiebreak ∧
    (settle s t).die0.otp.inForce = s.die0.otp.inForce ∧ (settle s t).die1.otp.inForce = s.die1.otp.inForce ∧
    (settle s t).die0.otp.skipped = s.die0.otp.skipped ∧ (settle s t).die1.otp.skipped = s.die1.otp.skipped :=
  ⟨rfl, rfl, rfl, rfl, rfl, rfl, rfl, rfl, rfl⟩

/-- One tick keeps them as well, and counts one pilot edge. -/
theorem tick_keeps (s : State) :
    (tick s).pending = s.pending ∧ (tick s).edges = s.edges + 1 ∧ (tick s).pkg.sysId = s.pkg.sysId ∧
    (tick s).pkg.standby = s.pkg.standby ∧ (tick s).pkg.tiebreak = s.pkg.tiebreak ∧
    (tick s).die0.otp.inForce = s.die0.otp.inForce ∧ (tick s).die1.otp.inForce = s.die1.otp.inForce ∧
    (tick s).die0.otp.skipped = s.die0.otp.skipped ∧ (tick s).die1.otp.skipped = s.die1.otp.skipped := by
  unfold tick
  generalize tickEffects s = u
  exact ⟨rfl, rfl, rfl, rfl, rfl, rfl, rfl, rfl, rfl⟩

end Sys2Proof.Machine
end

