-- ==== Sys2Proof/Tests/Slice0.lean ====
section
/-! SUPPORT. Tests of the model against answers the manual gives, its checks of ill-formed commands, and for every statement with
hypotheses a state and operands that meet them. -/

open Sys2Proof Sys2Proof.Machine Sys2Proof.Machine.Claims
namespace Sys2Proof.Tests

/-- A pair with a known first part. -/
theorem eq_pair {x : α × β} {v : α} (h : x.1 = v) : x = (v, x.2) := by cases x; cases h; rfl

/-- `Stands` as a check. -/
def standsAt (s : State) (n : Nat) (c : Ccw) (a : DWord) : Bool :=
  decide (n < 2048) && (takesTurn s n).isSome && (match readyCcw s n with
    | some e => e.fail.isNone && decide (ccwOf e.bytes = c) && decide (e.addr = a)
    | none => false) && !(pauseOf c.flags && (s.slot n).honour) && (ccwForm c).isNone

theorem stands {s : State} {n : Nat} {c : Ccw} {a : DWord} (h : standsAt s n c a = true) : Stands s n c a := by
  unfold standsAt at h
  split at h
  · rename_i e he
    simp only [Bool.and_eq_true, decide_eq_true_eq, Option.isNone_iff_eq_none, Bool.not_eq_true'] at h
    exact ⟨h.1.1.1.1, h.1.1.1.2, e, he, h.1.1.2.1.1, h.1.1.2.1.2, h.1.1.2.2, h.1.2, h.2⟩
  · simp at h

/-- A half that runs, with its end of the bridge up. -/
def half : Die := {
  alive := true, monitor := true, seen := true, stewardClock := true, meterRun := true, arc := { link := 3, sideband := true }
  boot := { state := 2 } }

/-- A package that runs: both halves up, both links up, every function ready, mastering the bus, with every capability. -/
def live : State := { State.reset with
  edges := 200000000, die0 := half, die1 := half, pkg := { port0Up := true, port1Up := true }
  funcs := (List.range 8).map (fun f => (f, { ready := true, bme := true, caps := 0x1F })) }

/-- The 16 bytes of a CCW (R74). -/
def ccwBytes (c : Ccw) : List Byte :=
  leBytes 1 c.cmd ++ leBytes 1 c.flags ++ leBytes 2 c.count ++ leBytes 2 c.lane ++ leBytes 2 c.target ++ leBytes 8 c.addr

/-- Slot 0 holds a program whose CCW at 0x1000 is `c`, in machine `s`. -/
def ccwIn (s : State) (c : Ccw) : State :=
  s.modSlot 0 (fun x => { x with st := .active, pc := 0x1000, buf := [{ addr := 0x1000, bytes := ccwBytes c, fail := none }] })

/-- The program of slot 0 waits until edge 9. -/
def waits (v : Option Nat) (k : Bool) : State :=
  live.modSlot 0 (fun x => { x with st := .waiting, wait := some { vertex := v, regTick := 0, deadline := some 9, toContinue := k } })

/-- A COPY of `n` bytes from 0x4000 to 0x6000. -/
def copyOf (n : Nat) : Exec :=
  { code := 0x11, op := .write, parts := [⟨0x1000, 1, n, [], none⟩], copySrc := 0x4000, copyDst := 0x6000 }

def copies (n : Nat) : State := live.modSlot 0 (fun x => { x with st := .active, exec := some (copyOf n) })

/-- A TEST descriptor with source 2 at 0x2000 (R101). -/
def testing : State := { live with hostMem := [(0x2000, 2)] }

theorem lane_begins {s : State} {n : Nat} {c : Ccw} {a : DWord} {lf : LaneField} {w : Walk} (h : Stands s n c a)
    (hf : laneField (taken s n c a) ((taken s n c a).slot n).fn c.lane = .inr lf)
    (hc : lf.device = 0 ∧ ((opOf c.cmd = .write && lf.isSet) || (opOf c.cmd = .gang && !lf.isSet)) = false ∧
      (opOf c.cmd = .control && 16 < c.count) = false ∧ (opOf c.cmd = .read && dropOf c.flags && c.addr != 0) = false ∧
      formFails (taken s n c a) (opOf c.cmd) c.count c.target (spanOf c.flags) (lf.lanes.filter (fun l => !laneGone (taken s n c a) l)) = none)
    (hp : (partData (taken s n c a) (partyOf (taken s n c a) n) (listOf c.flags) c.addr
        (sendBytes (opOf c.cmd) c.count (if opOf c.cmd = .xact then fld c.target 0 8 else 0))
        (if dropOf c.flags then 0 else storeBytes (opOf c.cmd) c.count (if opOf c.cmd = .xact then fld c.target 0 8 else 0) lf.lanes.length)).1 = w ∧
      (partData (taken s n c a) (partyOf (taken s n c a) n) (listOf c.flags) c.addr
        (sendBytes (opOf c.cmd) c.count (if opOf c.cmd = .xact then fld c.target 0 8 else 0))
        (if dropOf c.flags then 0 else storeBytes (opOf c.cmd) c.count (if opOf c.cmd = .xact then fld c.target 0 8 else 0) lf.lanes.length)).2.1 = none) :
    LaneBegins s (partData (taken s n c a) (partyOf (taken s n c a) n) (listOf c.flags) c.addr
        (sendBytes (opOf c.cmd) c.count (if opOf c.cmd = .xact then fld c.target 0 8 else 0))
        (if dropOf c.flags then 0 else storeBytes (opOf c.cmd) c.count (if opOf c.cmd = .xact then fld c.target 0 8 else 0) lf.lanes.length)).2.2
      n c a lf w :=
  ⟨h, hf, hc.1, hc.2.1, hc.2.2.1, hc.2.2.2.1, hc.2.2.2.2, Prod.ext hp.1 (Prod.ext hp.2 rfl)⟩

/-- Lane 0 of the running package is enabled with personality `p`. -/
def laneAs (p : Nat) : State := live.modLane 0 (fun l => { l with cfg := w32 (2 ^ 31 + p) })

/-- Lane 0 alone. -/
def lane0 : LaneField := ⟨0, false, [0]⟩

/-- Lanes 0 and 1 are on as I2C, the members of lane set 0; 0x3000 holds 0x01 and 0x02. -/
def paired : State :=
  { ((laneAs 2).modLane 1 (fun l => { l with cfg := 0x80000002 })).modPkg (fun p => { p with sets := [(0, { members := [0, 1] })] }) with
    hostMem := [] }

/-- The running package with command `c` of the program in slot 0 on lane 0, a lane of personality `p`. -/
def running (p : Nat) (c : LaneCmd) : State := (laneAs p).modLane 0 (fun l => { l with txn := some c, begun := true })

/-- The program of slot 0. -/
def user0 : LaneUser := { device := 0, slot := 0, fn := 0, tag := 0, gen := 0 }

/-- A lane command of `n` bytes with `out` to send. -/
def cmdOf (op : LaneOp) (n target : Nat) (out : List Byte) : LaneCmd :=
  { user := user0, pos := 0, op := op, count := n, wlen := 0, target := w16 target, out := out }

/-- A transaction that ends with class `cls` at byte 0, with `recv` received. -/
def endOf (cls : BitVec 4) (recv : List Byte) (sent : Nat := 0) : BusResult :=
  { cls := cls, sent := sent, recv := recv, pec := none, losses := 0, pulses := 0, recovered := false }

/-- The 64 bytes of an entry (R267). -/
def entryOf (op len params a b table : Nat) (inline : List Byte) : List Byte :=
  leBytes 1 op ++ leBytes 1 len ++ [7, 0] ++ leBytes 4 params ++ leBytes 8 a ++ leBytes 8 b ++ leBytes 8 table ++ sub inline 0 16 ++ zeros 15 ++ [0x80]

/-- An entry in flight at index 0 of function 0's queue `q`, its body after it. -/
def inQueue (s : State) (q : Nat) (e : List Byte) (body : List Byte := []) (variable_ : Bool := false) : State :=
  s.modQueue 0 q (fun x => { x with
    st := .running, sizeLog2 := 6, tail := 8, variable_ := variable_
    flight := [{ idx := 0, len := 1, bytes := e, body := body, effect := false, done := false }] })

/-- The request that such an entry is. -/
def reqAt (q : Nat) (e : List Byte) (body : List Byte := []) (variable_ : Bool := false) : Req := ⟨.queue 0 q, 0, 0, e, body, variable_, []⟩

/-- Function 0's mailbox has issued a command. -/
def inBox (s : State) (e : List Byte) : State := s.modFunc 0 (fun x => { x with request := some { bytes := e, effect := false } })
def boxReq (e : List Byte) : Req := ⟨.mailbox 0, 0, 0, e, [], false, zeros 32⟩

/-- Slot 0 holds function 0's program of tag 7. -/
def program (st : SlotState) (e : Option Exec) : State := live.modSlot 0 (fun x => { x with st := st, tag := 7, exec := e, owner := .entry (.queue 0 2) 0 })

/-- A chord record with trigger 0 on V1056, no claims, and a chain in tile 16 of region 7, which function 0 holds in `tiled`. -/
def record0 : List Byte := [0x20, 0x84] ++ zeros 110 ++ leBytes 8 0x800000000B010000 ++ zeros 8

/-- An outstanding fetch of slot 0. -/
def read0 : HostRead := { id := 0, kind := .fetch, slot := 0, fn := 0, tag := 0, gen := 0, addr := 0x2000, len := 16 }
def reading (st : SlotState) : State := { live.modSlot 0 (fun x => { x with st := st }) with reads := [read0] }

/-- A program that waits for a slot. -/
def prog0 : Prog :=
  { owner := .nobody, fn := 0, tag := 7, gen := 0, chain := 0x2000, status := 0, body := none, enforce := false, halt := none }

/-- A result for the program of tag `t` in slot 0. -/
def resultOf (t : Half) : ResultMsg :=
  { slot := 0, fn := 0, tag := t, gen := 0, res := { pos := 0, dev := 0, chan := 0, reason := 0, resid := 0, recv := [] } }

def tiled : State := live.modTile 3600 (fun x => { x with owner := .fn 0 })

/-- Host memory in which a fragment table at 0x2000 names the bytes `bs` at 0x4000 (R110). -/
def streamed (s : State) (bs : List Byte) : State :=
  { s with hostMem := memWrite (memWrite [] 0x2000 (leBytes 8 0x4000 ++ leBytes 4 bs.length ++ zeros 20 ++ [2])) 0x4000 bs }

/-- The header of an image of 4,096 bytes (R476). -/
def image0 : List Byte := leBytes 4 0x9620F1A5 ++ leBytes 4 1 ++ zeros 8 ++ leBytes 4 4096 ++ zeros 4

theorem image0_ok {o : Otp} (ho : o = {}) (h : Config.payloadHashOk image0 = true) : imageReject o image0 true = 0 := by
  subst ho
  unfold imageReject
  rw [h]
  decide +kernel

/-- A customer OTP generation of zeros, with its check (R483). -/
def gen0 : List Byte :=
  let g := leBytes 4 0x4E474C58 ++ [1] ++ zeros 371
  g ++ zeros 4 ++ leBytes 4 (accResult (accFeed (accInit 2) g)).toNat

/-- A policy image of one bundle (R380). -/
def policy0 : List Byte := leBytes 4 0x4C504C4B ++ [1, 0, 0, 0] ++ leBytes 4 1 ++ zeros 180

/-- Context 7 of die 0 in state `x`. -/
def ctxIs (x : CtxState) (subs : List Submission := []) : State := modCtx live 0 7 (fun c => { c with st := x, subs := subs })

theorem some_get {o : Option α} (h : o.isSome = true) : o = some (o.get h) := (Option.some_get h).symm

/-- Queue `q` of function 0 has one entry to fetch, a NOP. -/
def offered (q : Nat) : State :=
  { live.modQueue 0 q (fun x => { x with st := .running, ring := 0x10000, sizeLog2 := 4, tail := 1 }) with
    hostMem := memWrite [] 0x10000 (entryOf 0x0C 0 0 0 0 0 []) }

/-- The entry that leaves a function 0 queue's front has completed. -/
def done0 : Flight := { idx := 0, len := 1, bytes := [], body := [], effect := true, done := true }

/-- Target `t` has a ring of 64 with records 0 to 1 written. -/
def ringed (t : Nat) (f : Target → Target) : State := live.modTarget t (fun x => f { x with live := true, sizeLog2 := 6, tail := 2 })

/-- A lead segment on lane 0 of strokes or a frame. -/
def lead0 (frame begun : Bool) (action : Nat) (pulse : Option Pulse) : Lead :=
  { chord := 0, claim := 0, rank := 0, launch := 0, frame := frame, half := 2, param := 1, seg := [w8 (4 * action), 0, 3], due := 9
    begun := begun, pulse := pulse }
def led (x : Lead) : State := live.modLane 0 (fun l => { l with lead := some x })

/-- Half 1 is lost. -/
def halfGone (f : Die → Die) : State := (live.modPkg (fun p => { p with lost1 := true })).modDie 1 f

/-- The Arc bridge is down. -/
def apart : State := { live with die0 := { half with arc := {} }, die1 := { half with arc := {} } }

/-- Lane 0 has lane 192 as its twin. -/
def twinned : State := live.modPkg (fun p => { p with twins := [(0, { other := 192, valid := true }), (192, { other := 0, shadow := true, valid := true })] })

/-- A move, and a bundle of three (R354). -/
def mv (neg : Bool) (src dst ext : Nat) : Nat := 2 ^ 39 * b2n neg + 2 ^ 24 * src + 2 ^ 12 * dst + ext
def bundleOf (a b : Nat) : Nat := a + 2 ^ 40 * b + 2 ^ 80 * mv true 0x800 0 0 + 2 ^ 120

/-- User context 2 of die 0, whose code stands above the firmware, is about to issue bundle `b`. -/
def issuing (b : Nat) (f : Units → Units := id) : State :=
  live.modDie 0 (fun x => { x with stw := { x.stw with lastUser := 2, core := { x.stw.core with
    iram := memWrite [] 0x20000 (leBytes 16 b), units := f {}, running := 2,
    ctxs := [(0, { st := .waiting }), (2, { st := .running, codeBase := 8192, codeLen := 4 })] } } })

/-- User context 2 of die 0 runs while firmware waits; its slice has run `n` cycles. -/
def slicing (n : Nat) (f : Ctx → Ctx := id) : State :=
  live.modDie 0 (fun x => { x with stw := { x.stw with
    core := { x.stw.core with ctxs := [(0, { st := .waiting }), (2, f { st := .running })], running := 2 }, slice := n, lastUser := 2 } })

/-- Port 3 is in state `st`, its peer device `id`; this device is `me`. -/
def linked (st : PortState) (me : BitVec 5) (f : LinkPort → LinkPort := id) : State :=
  (live.modPkg (fun p => { p with sysId := me })).modPort 3 (fun x => f { x with st := st, cfg := 1 })

/-- The header of a packet for device `d`. -/
def hdr (d : BitVec 5) : PktHdr := { dest := d, src := 4, seq := 0, crcOk := true }

/-! ### Known answers of the manual -/

/-- The ASCII bytes "123456789". -/
def digits : List Byte := (List.range 9).map (fun i => w8 (0x31 + i))

/-- R326: the results over "123456789". -/
theorem test_check_algorithms :
    (List.range 4).map (fun a => accResult (accFeed (accInit (BitVec.ofNat 2 a)) digits)) =
      [0xF4, 0x29B1, 0xE3069283, 0xF62A] := by decide +kernel

/-- R326: the SMBus PEC of the worked example. -/
theorem test_smbus_pec : pecOf [0x80, 0x88, 0x81, 0xC1, 0xE0] = 0x20 := by decide +kernel

/-- R74: a CCW laid out by hand: WRITE, NEXT and SPAN, COUNT 0x0102, LANE 0x0304, TARGET 0x0506, ADDRESS 0x1000. -/
theorem test_ccw_fields :
    let c := ccwOf [0x01, 0x03, 0x02, 0x01, 0x04, 0x03, 0x06, 0x05, 0x00, 0x10, 0, 0, 0, 0, 0, 0]
    (nextOf c.flags, spanOf c.flags, c.count, c.lane, c.target, c.addr) = (true, true, 0x0102, 0x0304, 0x0506, 0x1000) := by decide

/-- R9: memories start in their canonical form. -/
theorem test_reset_memories : State.reset.memoriesWf = true := by decide

/-! ### Commands that name no element of the device -/

theorem test_wf_who : (Who.fn 8).ok = false ∧ (Who.steward 2).ok = false ∧ (Who.oob 384).ok = false := by decide
theorem test_wf_entry :
    (EntrySrc.queue 8 0).ok = false ∧ (EntrySrc.queue 0 128).ok = false ∧ (EntrySrc.mailbox 8).ok = false ∧
    (EntrySrc.policy 2 0).ok = false ∧ (EntrySrc.policy 0 8).ok = false := by decide
theorem test_wf_block :
    (IdleBlock.lane 384).ok = false ∧ (IdleBlock.cluster 32).ok = false ∧ (IdleBlock.adminQueue 8).ok = false ∧
    (IdleBlock.channel 128).ok = false ∧ (IdleBlock.route 255).ok = false ∧ (IdleBlock.route 768).ok = false ∧
    (IdleBlock.linkPort 4).ok = false := by decide
theorem test_wf_domain : (WakeTarget.region 8).ok = false ∧ (WakeTarget.die 2).ok = false := by decide
theorem test_wf_memory :
    memOk .regionSram 8 = false ∧ memOk .clusterMem 32 = false ∧ memOk .stewardSram 2 = false ∧ memOk .chordStore 2 = false ∧
    memOk .blackBox 2 = false ∧ memOk .queueState 2 = false := by decide
theorem test_wf_bounds :
    [Instr.nop 2048, .programAdmit 32 false, .leadStroke 384, .tachStall 384, .start (.queue 0 128), .bbxFreeze 2, .mailboxRequest (.fn 8) 0 0,
      .mailboxRequest (.fn 0) 8 0, .entryFetch 8, .headPublish 0 128, .registerWrite (.fn 0) false 2 0 none true,
      .registerWrite (.fn 0) false 0x2000000 0 none true, .registerWrite (.fn 0) true 4 0 (some 0) true, .idlePointApply (.lane 384),
      .lowDwordRead (.fn 0) true 2, .lowDwordRead (.fn 0) true 0x2000000, .lowDwordRead (.fn 8) false 0, .pathPiece 0 32 [], .pathPiece 2048 0 [],
      .mtrClear 128, .windowEntryWrite (.fn 0) 0 0 0 [], .windowEntryWrite (.fn 0) 0 0 16 [0], .windowEntryWrite (.fn 0) 0 256 0 [0],
      .snsWinWrite (.fn 0) 64 0 0, .snsWinWrite (.fn 0) 0 2 0, .mtrSetWrite (.fn 0) 0 8 0, .chdClear 4096, .timerStop 32 false, .xfrStop 128,
      .arbClear 8, .evcHeadWrite 10 0, .evcRouteWrite (.fn 0) 0 255 0, .evcRouteWrite (.fn 0) 0 768 0, .moderationTimer 0 48,
      .fastVertexChange 32 true 0 0, .comparatorCrossing 64 0 0 0, .scrubRead .clusterMem 32 0 .clean, .pciePortReset 2,
      .wakeComplete (.die 2) 0 true, .heartbeatSend 4, .hostReadCompletion 0 0x7FFFFFFFFFFFFFFF [0, 0] .success].all (fun i => !i.wf) = true := by decide

/-- Such a command changes nothing. -/
theorem test_no_element : exec (.nop 2048) live = .next live ∧ exec (.chdClear 4096) live = .next live := ⟨rfl, rfl⟩

/-! ### One step -/

/-- The front command is taken; the next step makes a pilot edge. -/
theorem test_step :
    (match step { State.reset with pending := [.nop 0] } with | .next t => decide (t.pending = [] ∧ t.edges = State.reset.edges) | _ => false) = true ∧
    (match step State.reset with | .next t => decide (t.edges = State.reset.edges + 1) | _ => false) = true := by decide

/-! ### Every statement's hypotheses are met -/

theorem witness_NopJumpAndTest :
    (∃ s : State, ∃ n c a, Stands s n c a ∧ c.cmd = 0x00 ∧ GoesOn s n c ∧ crcOf c.flags = false) ∧
    (∃ s : State, ∃ n c a k, Stands s n c a ∧ c.cmd = 0x00 ∧ GoesOn s n c ∧ crcOf c.flags = true ∧ nopAcc c = some k) ∧
    (∃ s : State, ∃ n c a, Stands s n c a ∧ c.cmd = 0x08 ∧ (s.slot n).jumped = none ∧ (s.slot n).halt = none) ∧
    (∃ s : State, ∃ n c a b s1, Stands s n c a ∧ c.cmd = 0x09 ∧ c.addr % 8 = 0 ∧
      tableGet (taken s n c a) (partyOf (taken s n c a) n) c.addr 32 = (.ok b, s1) ∧ testFault s1 b = none ∧ u8 b 0 ≠ 1) :=
  ⟨⟨ccwIn live ⟨0, 1, 0, 0, 0, 0⟩, 0, ⟨0, 1, 0, 0, 0, 0⟩, 0x1000, stands (by decide), by decide, by unfold GoesOn; decide, by decide⟩,
   ⟨ccwIn live ⟨0, 5, 0, 0, 2, 0⟩, 0, ⟨0, 5, 0, 0, 2, 0⟩, 0x1000, _, stands (by decide), by decide, by unfold GoesOn; decide, by decide, rfl⟩,
   ⟨ccwIn live ⟨8, 0, 0, 0, 0, 0x2000⟩, 0, ⟨8, 0, 0, 0, 0, 0x2000⟩, 0x1000, stands (by decide), by decide⟩,
   ⟨ccwIn testing ⟨9, 1, 0, 0, 0, 0x2000⟩, 0, ⟨9, 1, 0, 0, 0, 0x2000⟩, 0x1000, 2 :: zeros 31, _, stands (by decide), by decide, by decide,
     eq_pair (by decide), by decide⟩⟩

theorem witness_WaitsAndDelays :
    (∃ s : State, ∃ n c a, Stands s n c a ∧ c.cmd = 0x0A ∧ fld c.target 11 3 = 0 ∧ c.addr < 2 ^ 48 ∧ vertexExists (fld c.target 0 11) = true ∧
      (bit c.target 15 && s.level (fld c.target 0 11)) = false ∧ s.edgesNow.contains (fld c.target 0 11, true) = false ∧
      (s.slot n).halt = none) ∧
    (∃ s : State, ∃ n c a, Stands s n c a ∧ c.cmd = 0x0A ∧ fld c.target 11 3 = 0 ∧ c.addr < 2 ^ 48 ∧ vertexExists (fld c.target 0 11) = true ∧
      s.edgesNow.contains (fld c.target 0 11, true) = true ∧ GoesOn s n c) ∧
    (∃ s : State, ∃ n c a, Stands s n c a ∧ c.cmd = 0x0B ∧ c.addr < 2 ^ 48 ∧ c.addr ≠ 0 ∧ (s.slot n).halt = none) ∧
    (∃ s : State, ∃ n v r d, n < 2048 ∧ (s.slot n).wait = some { vertex := some v, regTick := r, deadline := some d, toContinue := true } ∧
      (s.slot n).st = .waiting ∧ d < s.edges ∧ dieUp s (slotServer s n / 16) = true) ∧
    (∃ s : State, ∃ n v r d, n < 2048 ∧ (s.slot n).wait = some { vertex := some v, regTick := r, deadline := some d, toContinue := false } ∧
      (s.slot n).st = .waiting ∧ d < s.edges ∧ dieUp s (slotServer s n / 16) = true) ∧
    (∃ s : State, ∃ n r d k, n < 2048 ∧ (s.slot n).wait = some { vertex := none, regTick := r, deadline := some d, toContinue := k } ∧
      (s.slot n).st = .waiting ∧ d ≤ s.edges ∧ dieUp s (slotServer s n / 16) = true) :=
  ⟨⟨ccwIn live ⟨0x0A, 1, 0, 0, 1056, 0⟩, 0, ⟨0x0A, 1, 0, 0, 1056, 0⟩, 0x1000, stands (by decide), by decide⟩,
   ⟨ccwIn { live with edgesNow := [(1056, true)] } ⟨0x0A, 1, 0, 0, 1056, 5⟩, 0, ⟨0x0A, 1, 0, 0, 1056, 5⟩, 0x1000, stands (by decide), by decide,
     by decide, by decide, by decide, by decide, by unfold GoesOn; decide⟩,
   ⟨ccwIn live ⟨0x0B, 1, 0, 0, 0, 1⟩, 0, ⟨0x0B, 1, 0, 0, 0, 1⟩, 0x1000, stands (by decide), by decide⟩,
   ⟨waits (some 1056) true, 0, 1056, 0, 9, by decide⟩,
   ⟨waits (some 1056) false, 0, 1056, 0, 9, by decide⟩,
   ⟨waits none false, 0, 0, 9, false, by decide⟩⟩

theorem witness_SignalMarkHaltAndPost :
    (∃ s : State, ∃ n c a, Stands s n c a ∧ c.cmd = 0x0C ∧ fld c.target 13 3 = 0 ∧ c.addr < 2 ^ 32 ∧
      localDevice (taken s n c a) (fld c.target 8 5) = true) ∧
    (∃ s : State, ∃ n c a, Stands s n c a ∧ c.cmd = 0x0F) ∧
    (∃ s : State, ∃ n c a, Stands s n c a ∧ c.cmd = 0xFF) ∧
    (∃ s : State, ∃ n c a u, Stands s n c a ∧ c.cmd = 0x0D ∧ crcOf c.flags = false ∧ interimPost portPw (taken s n c a) n a = (true, u)) ∧
    (∃ s : State, ∃ n c a v u, Stands s n c a ∧ c.cmd = 0x0D ∧ crcOf c.flags = true ∧
      memPut portPw (taken s n c a) (partyOf (taken s n c a) n) c.addr (leBytes 4 (accResult ((taken s n c a).slot n).acc).toNat) .data false = (none,
      v) ∧ interimPost portPw (dropOverlap v n c.addr 4) n a = (true, u)) :=
  ⟨⟨ccwIn live ⟨0x0C, 1, 0, 0, 7, 0xFFFFFFFF⟩, 0, ⟨0x0C, 1, 0, 0, 7, 0xFFFFFFFF⟩, 0x1000, stands (by decide), by decide⟩,
   ⟨ccwIn live ⟨0x0F, 1, 0, 0, 7, 9⟩, 0, ⟨0x0F, 1, 0, 0, 7, 9⟩, 0x1000, stands (by decide), by decide⟩,
   ⟨ccwIn live ⟨0xFF, 0, 0, 0, 7, 0⟩, 0, ⟨0xFF, 0, 0, 0, 7, 0⟩, 0x1000, stands (by decide), by decide⟩,
   ⟨ccwIn live ⟨0x0D, 1, 0, 0, 0, 0⟩, 0, ⟨0x0D, 1, 0, 0, 0, 0⟩, 0x1000, _, stands (by decide), by decide, by decide, eq_pair (by decide)⟩,
   ⟨ccwIn live ⟨0x0D, 5, 0, 0, 0, 0x3000⟩, 0, ⟨0x0D, 5, 0, 0, 0, 0x3000⟩, 0x1000, _, _, stands (by decide), by decide, by decide,
     eq_pair (by decide), eq_pair (by decide)⟩⟩

theorem witness_MeterCommandsAndCopy :
    (∃ s : State, ∃ n c a u, Stands s n c a ∧ c.cmd = 0x0E ∧ fld c.target 12 4 = 0 ∧ fld c.target 7 5 = 0 ∧ c.count = 32 ∧
      ((taken s n c a).meter (fld c.target 0 7)).unit ≠ .retired ∧
      meterReach (taken s n c a) (partyOf (taken s n c a) n).die (fld c.target 0 7) = true ∧
      memPut portPw (taken s n c a) (partyOf (taken s n c a) n) c.addr (snapRead (taken s n c a) (fld c.target 0 7)) .data false = (none, u)) ∧
    (∃ s : State, ∃ n c a b u, Stands s n c a ∧ c.cmd = 0x0E ∧ fld c.target 12 4 = 1 ∧ fld c.target 7 5 = 0 ∧ c.count = 32 ∧
      ((taken s n c a).meter (fld c.target 0 7)).unit ≠ .retired ∧
      meterRights (taken s n c a) (partyOf (taken s n c a) n).fn (fld c.target 0 7) = true ∧
      meterReach (taken s n c a) (partyOf (taken s n c a) n).die (fld c.target 0 7) = true ∧
      memGet (taken s n c a) (partyOf (taken s n c a) n) c.addr 32 = (.ok b, u) ∧ settingsOk (fld c.target 0 7 / 64) b = true ∧
      (u.die (fld c.target 0 7 / 64)).meterRun = true) ∧
    (∃ s : State, ∃ n c a, Stands s n c a ∧ c.cmd = 0x0E ∧ fld c.target 12 4 = 2 ∧ fld c.target 7 5 = 0 ∧ c.count = 0 ∧ c.addr = 0 ∧
      ((taken s n c a).meter (fld c.target 0 7)).unit ≠ .retired ∧
      meterRights (taken s n c a) (partyOf (taken s n c a) n).fn (fld c.target 0 7) = true ∧
      meterReach (taken s n c a) (partyOf (taken s n c a) n).die (fld c.target 0 7) = true) ∧
    (∃ s : State, ∃ n c a b s1 s2 s3, Stands s n c a ∧ c.cmd = 0x11 ∧ c.addr % 16 = 0 ∧
      tableGet (taken s n c a) (partyOf (taken s n c a) n) c.addr 16 = (.ok b, s1) ∧ u64 b 0 % 8 = 0 ∧ u64 b 8 % 8 = 0 ∧ c.count ≠ 0 ∧
      c.count % 8 = 0 ∧ ¬(u64 b 0 < u64 b 8 + c.count ∧ u64 b 8 < u64 b 0 + c.count) ∧
      accessFail s1 (partyOf (taken s n c a) n) (u64 b 0) c.count rightRead = (none, s2) ∧
      accessFail s2 (partyOf (taken s n c a) n) (u64 b 8) c.count rightWrite = (none, s3)) ∧
    (∃ s : State, ∃ u v n e k, ∃ bs : List Byte, n < 2048 ∧ (s.slot n).exec = some e ∧ e.code = 0x11 ∧
      (s.region (slotServer s n / 4)).power = .run ∧ (s.region (slotServer s n / 4)).inReset = false ∧ dieUp s (slotServer s n / 16) = true ∧
      (pathChannel s (slotServer s n / 4)).isSome = true ∧ e.op ≠ .read ∧ k = min 256 (partsCount e.parts - e.moved) ∧
      rawRead s (partyOf s n) (e.copySrc.toNat + e.moved) k = (.ok bs, u) ∧
      rawWrite portPw u (partyOf s n) (e.copyDst.toNat + e.moved) bs .data false = (none, v) ∧ (v.slot n).exec = some e ∧
      e.moved + k < partsCount e.parts) ∧
    (∃ s : State, ∃ u v n e k, ∃ bs : List Byte, n < 2048 ∧ (s.slot n).exec = some e ∧ e.code = 0x11 ∧
      (s.region (slotServer s n / 4)).power = .run ∧ (s.region (slotServer s n / 4)).inReset = false ∧ dieUp s (slotServer s n / 16) = true ∧
      (pathChannel s (slotServer s n / 4)).isSome = true ∧ e.op ≠ .read ∧ k = min 256 (partsCount e.parts - e.moved) ∧
      rawRead s (partyOf s n) (e.copySrc.toNat + e.moved) k = (.ok bs, u) ∧
      rawWrite portPw u (partyOf s n) (e.copyDst.toNat + e.moved) bs .data false = (none, v) ∧ (v.slot n).exec = some e ∧
      partsCount e.parts ≤ e.moved + k) :=
  ⟨⟨ccwIn live ⟨0x0E, 1, 32, 0, 127, 0x3000⟩, 0, ⟨0x0E, 1, 32, 0, 127, 0x3000⟩, 0x1000, _, stands (by decide), by decide, by decide, by decide,
    by decide, by decide, by decide, eq_pair (by decide)⟩,
   ⟨ccwIn live ⟨0x0E, 1, 32, 0, 0x1000, 0x3000⟩, 0, ⟨0x0E, 1, 32, 0, 0x1000, 0x3000⟩, 0x1000, zeros 32, _, stands (by decide), by decide,
     by decide, by decide, by decide, by decide, by decide, by decide, eq_pair (by decide), by decide⟩,
   ⟨ccwIn live ⟨0x0E, 1, 0, 0, 0x2000, 0⟩, 0, ⟨0x0E, 1, 0, 0, 0x2000, 0⟩, 0x1000, stands (by decide), by decide⟩,
   ⟨ccwIn { live with hostMem := memWrite [] 0x3000 (leBytes 8 0x4000 ++ leBytes 8 0x4008) } ⟨0x11, 1, 8, 0, 0, 0x3000⟩, 0, ⟨0x11, 1, 8, 0, 0,
     0x3000⟩, 0x1000, leBytes 8 0x4000 ++ leBytes 8 0x4008, _, _, _, stands (by decide), by decide, by decide, eq_pair (by decide), by decide,
     by decide, by decide, by decide, by decide, eq_pair (by decide), eq_pair (by decide)⟩,
   ⟨copies 264, _, _, 0, copyOf 264, 256, zeros 256, by decide, by decide, by decide, by decide, by decide, by decide, by decide, by decide,
     by decide, eq_pair (by decide +kernel), eq_pair (by decide +kernel), by decide +kernel, by decide⟩,
   ⟨copies 256, _, _, 0, copyOf 256, 256, zeros 256, by decide, by decide, by decide, by decide, by decide, by decide, by decide, by decide,
     by decide, eq_pair (by decide +kernel), eq_pair (by decide +kernel), by decide +kernel, by decide⟩⟩

theorem witness_LaneAndControlCommandsBegin :
    (∃ s : State, ∃ u n c a lf w, LaneBegins s u n c a lf w ∧ c.cmd = 0x01) ∧
    (∃ s : State, ∃ u n c a lf w, LaneBegins s u n c a lf w ∧ c.cmd = 0x02) ∧
    (∃ s : State, ∃ u n c a lf w, LaneBegins s u n c a lf w ∧ c.cmd = 0x03) ∧
    (∃ s : State, ∃ u n c a lf w, LaneBegins s u n c a lf w ∧ c.cmd = 0x05) ∧
    (∃ s : State, ∃ u n c a lf w, LaneBegins s u n c a lf w ∧ c.cmd = 0x06) ∧
    (∃ s : State, ∃ u n c a lf w v out, LaneBegins s u n c a lf w ∧ c.cmd = 0x04 ∧
      controlData u (partyOf (taken s n c a) n) .control w.pieces = ((out, none), v) ∧
      dataFails v .control c.target out (lf.lanes.filter (fun l => !laneGone (taken s n c a) l)) = none ∧ c.target = 0x0000) ∧
    (∃ s : State, ∃ u n c a lf w v out, LaneBegins s u n c a lf w ∧ c.cmd = 0x04 ∧
      controlData u (partyOf (taken s n c a) n) .control w.pieces = ((out, none), v) ∧
      dataFails v .control c.target out (lf.lanes.filter (fun l => !laneGone (taken s n c a) l)) = none ∧ c.target = 0x0001) ∧
    (∃ s : State, ∃ u n c a lf w v out, LaneBegins s u n c a lf w ∧ c.cmd = 0x04 ∧
      controlData u (partyOf (taken s n c a) n) .control w.pieces = ((out, none), v) ∧
      dataFails v .control c.target out (lf.lanes.filter (fun l => !laneGone (taken s n c a) l)) = none ∧ c.target = 0x0002) ∧
    (∃ s : State, ∃ u n c a lf w v out, LaneBegins s u n c a lf w ∧ c.cmd = 0x04 ∧
      controlData u (partyOf (taken s n c a) n) .control w.pieces = ((out, none), v) ∧
      dataFails v .control c.target out (lf.lanes.filter (fun l => !laneGone (taken s n c a) l)) = none ∧ c.target = 0x0100) ∧
    (∃ s : State, ∃ u n c a lf w v out, LaneBegins s u n c a lf w ∧ c.cmd = 0x04 ∧
      controlData u (partyOf (taken s n c a) n) .control w.pieces = ((out, none), v) ∧
      dataFails v .control c.target out (lf.lanes.filter (fun l => !laneGone (taken s n c a) l)) = none ∧ c.target = 0x0110) ∧
    (∃ s : State, ∃ u n c a lf w v out, LaneBegins s u n c a lf w ∧ c.cmd = 0x04 ∧
      controlData u (partyOf (taken s n c a) n) .control w.pieces = ((out, none), v) ∧
      dataFails v .control c.target out (lf.lanes.filter (fun l => !laneGone (taken s n c a) l)) = none ∧ c.target = 0x0120) ∧
    (∃ s : State, ∃ u n c a lf w v out, LaneBegins s u n c a lf w ∧ c.cmd = 0x04 ∧
      controlData u (partyOf (taken s n c a) n) .control w.pieces = ((out, none), v) ∧
      dataFails v .control c.target out (lf.lanes.filter (fun l => !laneGone (taken s n c a) l)) = none ∧ c.target = 0x0130) :=
  ⟨⟨ccwIn (laneAs 2) ⟨1, 1, 2, 0, 0x50, 0x3000⟩, _, 0, ⟨1, 1, 2, 0, 0x50, 0x3000⟩, 0x1000, lane0, ⟨[(0x3000, 2)], none, false⟩,
    lane_begins (stands (by decide)) (by decide) (by decide) (by decide), by decide⟩,
   ⟨ccwIn (laneAs 2) ⟨2, 1, 2, 0, 0x50, 0x3000⟩, _, 0, ⟨2, 1, 2, 0, 0x50, 0x3000⟩, 0x1000, lane0, ⟨[(0x3000, 2)], none, false⟩,
     lane_begins (stands (by decide)) (by decide) (by decide) (by decide), by decide⟩,
   ⟨ccwIn (laneAs 2) ⟨3, 1, 3, 0, 1, 0x3000⟩, _, 0, ⟨3, 1, 3, 0, 1, 0x3000⟩, 0x1000, lane0, ⟨[(0x3000, 3)], none, false⟩,
     lane_begins (stands (by decide)) (by decide) (by decide) (by decide), by decide⟩,
   ⟨ccwIn (laneAs 2) ⟨5, 1, 16, 0, 0, 0x3000⟩, _, 0, ⟨5, 1, 16, 0, 0, 0x3000⟩, 0x1000, lane0, ⟨[(0x3000, 16)], none, false⟩,
     lane_begins (stands (by decide)) (by decide) (by decide) (by decide), by decide⟩,
   ⟨ccwIn paired ⟨6, 1, 2, 0x8000, 0x50, 0x3000⟩, _, 0, ⟨6, 1, 2, 0x8000, 0x50, 0x3000⟩, 0x1000, ⟨0, true, [0, 1]⟩, ⟨[(0x3000, 2)], none, false⟩,
     lane_begins (stands (by decide)) (by decide) (by decide) (by decide), by decide⟩,
   ⟨ccwIn (laneAs 2) ⟨4, 1, 0, 0, 0, 0⟩, _, 0, ⟨4, 1, 0, 0, 0, 0⟩, 0x1000, lane0, ⟨[], none, false⟩, _, [],
     lane_begins (stands (by decide)) (by decide) (by decide) (by decide), by decide, eq_pair (by decide), by decide⟩,
   ⟨ccwIn (laneAs 2) ⟨4, 1, 0, 0, 1, 0⟩, _, 0, ⟨4, 1, 0, 0, 1, 0⟩, 0x1000, lane0, ⟨[], none, false⟩, _, [],
     lane_begins (stands (by decide)) (by decide) (by decide) (by decide), by decide, eq_pair (by decide), by decide⟩,
   ⟨ccwIn (laneAs 2) ⟨4, 1, 0, 0, 2, 0⟩, _, 0, ⟨4, 1, 0, 0, 2, 0⟩, 0x1000, lane0, ⟨[], none, false⟩, _, [],
     lane_begins (stands (by decide)) (by decide) (by decide) (by decide), by decide, eq_pair (by decide), by decide⟩,
   ⟨ccwIn (laneAs 8) ⟨4, 1, 0, 0, 256, 0⟩, _, 0, ⟨4, 1, 0, 0, 256, 0⟩, 0x1000, lane0, ⟨[], none, false⟩, _, [],
     lane_begins (stands (by decide)) (by decide) (by decide) (by decide), by decide, eq_pair (by decide), by decide⟩,
   ⟨ccwIn { laneAs 8 with hostMem := [(0x3000, 1)] } ⟨4, 1, 2, 0, 272, 12288⟩, _, 0, ⟨4, 1, 2, 0, 272, 12288⟩, 0x1000, lane0, ⟨[(0x3000, 2)],
     none, false⟩, _, [1, 0], lane_begins (stands (by decide)) (by decide) (by decide) (by decide), by decide, eq_pair (by decide), by decide⟩,
   ⟨ccwIn (laneAs 11) ⟨4, 1, 0, 0, 288, 0⟩, _, 0, ⟨4, 1, 0, 0, 288, 0⟩, 0x1000, lane0, ⟨[], none, false⟩, _, [],
     lane_begins (stands (by decide)) (by decide) (by decide) (by decide), by decide, eq_pair (by decide), by decide⟩,
   ⟨ccwIn { laneAs 10 with hostMem := [(0x3000, 2)] } ⟨4, 1, 1, 0, 304, 12288⟩, _, 0, ⟨4, 1, 1, 0, 304, 12288⟩, 0x1000, lane0, ⟨[(0x3000, 1)],
     none, false⟩, _, [2], lane_begins (stands (by decide)) (by decide) (by decide) (by decide), by decide, eq_pair (by decide), by decide⟩⟩

theorem witness_FetchesAndHostReads :
    (∃ s : State, ∃ u v n a, ∃ bs : List Byte, Fetches s n a ∧ onChip a.toNat = true ∧ accessFail s (partyOf s n) a.toNat 16 rightFetch = (none,
      u) ∧ rawRead u (partyOf s n) a.toNat 16 = (.ok bs, v)) ∧
    (∃ s : State, ∃ u n a, Fetches s n a ∧ onChip a.toNat = false ∧
      accessFail s (partyOf s n) a.toNat (fetchLen (s.slot n) a.toNat) rightFetch = (none, u) ∧ hostOpen u (partyOf s n) = true ∧
      (fnPort (s.slot n).fn = slotServer s n / 16 ∨ npFree u (slotServer s n / 16) = true)) ∧
    (∃ s : State, ∃ id a data r, a.toNat + data.length ≤ 2 ^ 63 ∧ readOf (hostKnown s a data) id a data.length = some r ∧
      readMatches (readGone (hostKnown s a data) r) r = true ∧ r.void = true) ∧
    (∃ s : State, ∃ id a data r, a.toNat + data.length ≤ 2 ^ 63 ∧ readOf (hostKnown s a data) id a data.length = some r ∧
      readMatches (readGone (hostKnown s a data) r) r = true ∧ r.void = false) ∧
    (∃ s : State, ∃ id a data r, a.toNat + data.length ≤ 2 ^ 63 ∧ readOf (hostKnown s a data) id a data.length = some r ∧
      readMatches (readGone (hostKnown s a data) r) r = false) ∧
    (∃ s : State, ∃ id a len r, a.toNat + len ≤ 2 ^ 63 ∧ readOf s id a len = some r ∧ readMatches (readGone s r) r = true ∧ r.void = false) ∧
    (∃ s : State, ∃ id a len r, a.toNat + len ≤ 2 ^ 63 ∧ readOf s id a len = some r ∧ readMatches (readGone s r) r = false) :=
  ⟨⟨live.modSlot 0 (fun x => { x with st := .active, pc := 0x8000000000010000, body := some 16 }), _, _, 0, 0x8000000000010000, zeros 16,
    by unfold Fetches; decide, by decide, eq_pair (by decide), eq_pair (by decide)⟩,
   ⟨live.modSlot 0 (fun x => { x with st := .active, pc := 0x2000 }), _, 0, 0x2000, by unfold Fetches; decide, by decide, eq_pair (by decide),
     by decide⟩,
   ⟨{ live.modSlot 0 (fun x => { x with st := .active }) with reads := [{ read0 with void := true }] }, 0, 0x2000, zeros 16,
     { read0 with void := true }, by decide⟩,
   ⟨reading .active, 0, 0x2000, zeros 16, read0, by decide⟩,
   ⟨reading .free, 0, 0x2000, zeros 16, read0, by decide⟩,
   ⟨reading .active, 0, 0x2000, 16, read0, by decide⟩,
   ⟨reading .free, 0, 0x2000, 16, read0, by decide⟩⟩

theorem witness_ProgramsAndForwardedCommands :
    (∃ s : State, ∃ c n e es, c < 32 ∧ clusterRuns s c = true ∧ (s.cluster c).chords = e :: es ∧ freeSlot s c = some n) ∧
    (∃ s : State, ∃ c n g gs, c < 32 ∧ clusterRuns s c = true ∧ (s.cluster c).chords = [] ∧ (s.cluster c).admits = g :: gs ∧
      freeSlot s c = some n ∧ reserveOf s c < freeSlots s c) ∧
    (∃ s : State, ∃ c n g gs, c < 32 ∧ clusterRuns s c = true ∧ (s.cluster c).chords = [] ∧ (s.cluster c).admits = g :: gs ∧
      freeSlot s c = some n ∧ reserveOf s c < freeSlots s c ∧ g.status = 0 ∧ g.halt = none) ∧
    (∃ s : State, ∃ c l n g gs, c < 32 ∧ clusterRuns s c = true ∧ (s.cluster c).adopts = some l ∧ (s.cluster c).lostAdmit = g :: gs ∧
      freeSlot s l = some n ∧ reserveOf s c < freeSlots s l) ∧
    (∃ s : State, ∃ c e es, c < 32 ∧ (s.cluster c).inbound = e :: es ∧ laneServed s e.lane = true ∧
      (npCmd s (slotServer s e.cmd.user.slot / 16) e.lane e.cmd = false ∨ npFree s (slotServer s e.cmd.user.slot / 16) = true)) ∧
    (∃ s : State, ∃ n r t, n < 2048 ∧ s.results.find? (fun r => r.slot = n) = some r ∧ dieUp s (slotServer s n / 16) = true ∧
      t = { s with results := s.results.erase r } ∧ slotMatches t { device := 0, slot := n, fn := r.fn, tag := r.tag, gen := r.gen } = true) ∧
    (∃ s : State, ∃ n r t, n < 2048 ∧ s.results.find? (fun r => r.slot = n) = some r ∧ dieUp s (slotServer s n / 16) = true ∧
      t = { s with results := s.results.erase r } ∧ slotMatches t { device := 0, slot := n, fn := r.fn, tag := r.tag, gen := r.gen } = false) :=
  ⟨⟨live.modCluster 31 (fun x => { x with chords := [⟨4095, 0, 0x2000, 0, 0, none⟩] }), 31, 1984, ⟨4095, 0, 0x2000, 0, 0, none⟩, [], by decide⟩,
   ⟨live.modCluster 0 (fun x => { x with admits := [prog0] }), 0, 0, prog0, [], by decide⟩,
   ⟨live.modCluster 0 (fun x => { x with admits := [prog0] }), 0, 0, prog0, [], by decide⟩,
   ⟨live.modCluster 0 (fun x => { x with adopts := some 16, lostAdmit := [prog0] }), 0, 16, 1024, prog0, [], by decide⟩,
   ⟨(laneAs 2).modCluster 0 (fun x => { x with inbound := [⟨0, cmdOf .write 1 0x50 [9]⟩] }), 0, ⟨0, cmdOf .write 1 0x50 [9]⟩, [], by decide⟩,
   ⟨{ program .active none with results := [resultOf 7] }, 0, resultOf 7, _, by decide, by decide, by decide, rfl, by decide⟩,
   ⟨{ program .active none with results := [resultOf 8] }, 0, resultOf 8, _, by decide, by decide, by decide, rfl, by decide⟩⟩

theorem witness_LaneCommandsEnd :
    (∃ s : State, ∃ n r c, n < 384 ∧ (s.lane n).txn = some c ∧ endFits s.edges (s.lane n) c r = true ∧ laneServed s n = true) ∧
    (∃ s : State, ∃ n c, ∃ w : LaneWait, n < 384 ∧ (s.lane n).txn = some c ∧ dieUp s (laneDieNow s n) = true ∧ (((∃ lim t,
      laneLimit (s.lane n) = some lim ∧ waitSince (s.lane n) c w.lostAt = some t ∧
      t + lim ≤ s.edges) ∨ ((personality (s.lane n) = 3 ∨ personality (s.lane n) = 4) ∧ (s.lane n).begun = true ∧
      (s.lane n).txnSince + 2500000 ≤ s.edges))) ∧ readEnds (s.lane n) c w.recv = true) ∧
    (∃ s : State, ∃ n c, ∃ w : LaneWait, n < 384 ∧ (s.lane n).txn = some c ∧ dieUp s (laneDieNow s n) = true ∧ (((∃ lim t,
      laneLimit (s.lane n) = some lim ∧ waitSince (s.lane n) c w.lostAt = some t ∧
      t + lim ≤ s.edges) ∨ ((personality (s.lane n) = 3 ∨ personality (s.lane n) = 4) ∧ (s.lane n).begun = true ∧
      (s.lane n).txnSince + 2500000 ≤ s.edges))) ∧ readEnds (s.lane n) c w.recv = false) ∧
    (∃ s : State, ∃ n c recv, n < 384 ∧ (s.lane n).txn = some c ∧ (personality (s.lane n) = 3 ∨ personality (s.lane n) = 4) ∧
      laneStalled (s.lane n) c recv = true ∧ (s.lane n).memAt + 1000000 ≤ s.edges) ∧
    (∃ s : State, ∃ n h, n < 384 ∧ (s.lane n).held = some h ∧ (s.lane n).txn = none ∧ h.since + holdLimit (s.lane n) ≤ s.edges ∧
      dieUp s (laneDieNow s n) = true) ∧
    (∃ s : State, ∃ n c, n < 384 ∧ (s.lane n).txn = some c ∧ byteStream (personality (s.lane n)) = true ∧ isRemoteCmd c = false ∧
      slotMatches s c.user = true ∧ (s.slot c.user.slot).halt ≠ none) ∧
    (∃ s : State, ∃ n c, n < 384 ∧ (s.lane n).txn = some c ∧ byteStream (personality (s.lane n)) = false ∧ ((isRemoteCmd c = false ∧
      (slotMatches s c.user && persistOwner s (s.slot c.user.slot).owner) = false ∧ (s.func c.user.fn).inReset = true ∧
      (s.func c.user.fn).resetAt + 3500000 ≤ s.edges) ∨ (∃ w, s.pkg.warmAt = some w ∧ w + 3500000 ≤ s.edges))) :=
  ⟨⟨running 2 (cmdOf .write 1 0x50 [9]), 0, endOf 0 [] 1, cmdOf .write 1 0x50 [9], by decide⟩,
   ⟨(running 8 (cmdOf .read 2 0 [])).modLane 0 (fun l => { l with timeout := 10, opt := 0x20 }), 0, cmdOf .read 2 0 [],
     { sent := 0, recv := [3], lostAt := none, pulses := 0, recovered := false }, by decide, by decide, by decide, .inl ⟨_, _, rfl, rfl,
     by decide⟩, by decide⟩,
   ⟨(running 2 (cmdOf .read 1 0x50 [])).modLane 0 (fun l => { l with timeout := 10 }), 0, cmdOf .read 1 0x50 [],
     { sent := 0, recv := [], lostAt := none, pulses := 0, recovered := false }, by decide, by decide, by decide, .inl ⟨_, _, rfl, rfl,
     by decide⟩, by decide⟩,
   ⟨running 3 (cmdOf .write 1 0x50 []), 0, cmdOf .write 1 0x50 [], [], by decide⟩,
   ⟨(laneAs 2).modLane 0 (fun l => { l with held := some ⟨user0, 0⟩ }), 0, ⟨user0, 0⟩, by decide⟩,
   ⟨(running 6 (cmdOf .write 1 0 [9])).modSlot 0 (fun x => { x with st := .active, halt := some 0x81 }), 0, cmdOf .write 1 0 [9], by decide⟩,
   ⟨(running 2 (cmdOf .write 1 0x50 [9])).modFunc 0 (fun x => { x with inReset := true }), 0, cmdOf .write 1 0x50 [9], by decide, by decide,
     by decide, .inl (by decide)⟩⟩

theorem witness_ProgramsStartResumeAndHalt :
    (∃ s : State, ∃ src r c k a, StartOk s src r c ∧ eA r.bytes ≠ 0 ∧ ((∀ d k, src = .policy d k → onChip (eA r.bytes) = true)) ∧
      startSlot (startTagged s r) c = some (k, a)) ∧
    (∃ s : State, ∃ u src r c, StartOk s src r c ∧ eA r.bytes ≠ 0 ∧ ((∀ d k, src = .policy d k → onChip (eA r.bytes) = true)) ∧
      startSlot (startTagged s r) c = none ∧
      statusWrite portPw (startTagged s r) (progParty c (startProg s r (w64 (eA r.bytes)) none)) (progSlot (startProg s r (w64 (eA r.bytes)) none)) 1 = (none,
      u)) ∧
    (∃ s : State, ∃ src r c t v k a, StartOk s src r c ∧ eA r.bytes = 0 ∧ r.variable_ = true ∧ 2 ≤ eLen r.bytes ∧ ((∀ d k, src ≠ .policy d k)) ∧
      bodyTile s (c / 4) = some t ∧ v = bodyCopied s t r.body ∧ startSlot (startTagged v r) c = some (k, a)) ∧
    (∃ s : State, ∃ u src r c t v, StartOk s src r c ∧ eA r.bytes = 0 ∧ r.variable_ = true ∧ 2 ≤ eLen r.bytes ∧ ((∀ d k, src ≠ .policy d k)) ∧
      bodyTile s (c / 4) = some t ∧ v = bodyCopied s t r.body ∧ startSlot (startTagged v r) c = none ∧
      statusWrite portPw (startTagged v r) (progParty c (startProg v r (w64 (tileAddr t)) (some t))) (progSlot (startProg v r (w64 (tileAddr t)) (some t))) 1 = (none,
      u)) ∧
    (∃ s : State, ∃ src r n, Asks s src 0x02 r ∧ fieldsOk r 0 false false false 32 32 = true ∧ tagSlot s r.fn (tagOf r) = some n ∧
      mustWait s r (slotServer s n / 16) = false ∧ (s.slot n).st = .suspended) ∧
    (∃ s : State, ∃ src r n, Asks s src 0x03 r ∧ fieldsOk r 0 false false false 32 32 = true ∧ tagSlot s r.fn (tagOf r) = some n ∧
      mustWait s r (slotServer s n / 16) = false ∧ (s.slot n).st ≠ .free ∧ (s.slot n).ended = none ∧
      dieUp (tookEffect s r) (slotServer (tookEffect s r) n / 16) = true ∧ (s.slot n).st ≠ .active) ∧
    (∃ s : State, ∃ src r n, Asks s src 0x03 r ∧ fieldsOk r 0 false false false 32 32 = true ∧ tagSlot s r.fn (tagOf r) = some n ∧
      mustWait s r (slotServer s n / 16) = false ∧ (s.slot n).st ≠ .free ∧ (s.slot n).ended = none ∧
      dieUp (tookEffect s r) (slotServer (tookEffect s r) n / 16) = true ∧ (s.slot n).st = .active ∧ (s.slot n).exec = none ∧
      (s.slot n).honour = true) ∧
    (∃ s : State, ∃ src r n, Asks s src 0x03 r ∧ fieldsOk r 0 false false false 32 32 = true ∧ tagSlot s r.fn (tagOf r) = some n ∧
      mustWait s r (slotServer s n / 16) = false ∧ (s.slot n).st ≠ .free ∧ (s.slot n).ended = none ∧
      dieUp (tookEffect s r) (slotServer (tookEffect s r) n / 16) = true ∧ (s.slot n).st = .active ∧ (s.slot n).exec ≠ none ∧
      (s.slot n).halt = none) ∧
    (∃ s : State, ∃ src r c, Asks s src 0x03 r ∧ fieldsOk r 0 false false false 32 32 = true ∧ tagSlot s r.fn (tagOf r) = none ∧
      tagQueued s r.fn (tagOf r) = some c) :=
  ⟨⟨inQueue live 1 (entryOf 0x01 0 31 0x2000 0x20 0 []), .queue 0 1, reqAt 1 (entryOf 0x01 0 31 0x2000 0x20 0 []), 31, 1984, false,
    by unfold StartOk Asks; decide, by decide, nofun, by decide⟩,
   ⟨inQueue (live.modCluster 31 (fun x => { x with admits := [prog0] })) 1 (entryOf 0x01 0 31 0x2000 0x20 0 []), _, .queue 0 1,
     reqAt 1 (entryOf 0x01 0 31 0x2000 0x20 0 []), 31, by unfold StartOk Asks; decide, by decide, nofun, by decide, eq_pair (by decide)⟩,
   ⟨inQueue live 1 (entryOf 0x01 2 0 0 0x20 0 []) (zeros 128) true, .queue 0 1, reqAt 1 (entryOf 0x01 2 0 0 0x20 0 []) (zeros 128) true, 0, 8, _,
     0, false, by unfold StartOk Asks; decide, by decide +kernel, by decide +kernel, by decide +kernel, nofun, by decide +kernel, rfl,
     by decide +kernel⟩,
   ⟨inQueue (live.modCluster 0 (fun x => { x with admits := [prog0] })) 1 (entryOf 0x01 2 0 0 0x20 0 []) (zeros 128) true, _, .queue 0 1,
     reqAt 1 (entryOf 0x01 2 0 0 0x20 0 []) (zeros 128) true, 0, 8, _, by unfold StartOk Asks; decide, by decide +kernel, by decide +kernel,
     by decide +kernel, nofun, by decide +kernel, rfl, by decide +kernel, eq_pair (by decide +kernel)⟩,
   ⟨inQueue (program .suspended none) 1 (entryOf 0x02 0 0 0 0 0 []), .queue 0 1, reqAt 1 (entryOf 0x02 0 0 0 0 0 []), 0, by unfold Asks; decide,
     by decide⟩,
   ⟨inQueue (program .waiting none) 1 (entryOf 0x03 0 0 0 0 0 []), .queue 0 1, reqAt 1 (entryOf 0x03 0 0 0 0 0 []), 0, by unfold Asks; decide,
     by decide⟩,
   ⟨inQueue (program .active none) 1 (entryOf 0x03 0 0 0 0 0 []), .queue 0 1, reqAt 1 (entryOf 0x03 0 0 0 0 0 []), 0, by unfold Asks; decide,
     by decide⟩,
   ⟨inQueue (program .active (some (copyOf 8))) 1 (entryOf 0x03 0 0 0 0 0 []), .queue 0 1, reqAt 1 (entryOf 0x03 0 0 0 0 0 []), 0,
     by unfold Asks; decide, by decide⟩,
   ⟨inQueue (live.modCluster 9 (fun x => { x with admits := [prog0] })) 1 (entryOf 0x03 0 0 0 0 0 []), .queue 0 1,
     reqAt 1 (entryOf 0x03 0 0 0 0 0 []), 9, by unfold Asks; decide, by decide⟩⟩

theorem witness_ArmAndDisarmChord :
    (∃ s : State, ∃ u src r c rec', ArmOk s u src r c rec') ∧
    (∃ s : State, ∃ src r c, Asks s src 0x05 r ∧ par r 0 12 = c ∧ fieldsOk r 0x1FFF false false false 32 32 = true ∧
      mustWait s r (chordDie c) = false ∧ isLost s (chordDie c) = false ∧ (s.chord c).unit ≠ .retired ∧ (s.chord c).st ≠ .disarmed ∧
      (s.chord c).st ≠ .draining ∧ (r.fn = 0 ∨ recOwner (s.chord c).record = r.fn)) :=
  ⟨⟨inQueue tiled 1 (entryOf 0x04 3 4095 0 0 0 []) record0 true, inQueue tiled 1 (entryOf 0x04 3 4095 0 0 0 []) record0 true, .queue 0 1,
    reqAt 1 (entryOf 0x04 3 4095 0 0 0 []) record0 true, 4095, record0, by unfold ArmOk Asks; decide +kernel⟩,
   ⟨inQueue (live.modChord 4095 (fun x => { x with st := .armed })) 1 (entryOf 0x05 0 8191 0 0 0 []), .queue 0 1,
     reqAt 1 (entryOf 0x05 0 8191 0 0 0 []), 4095, by unfold Asks; decide, by decide⟩⟩

theorem witness_SmallWorkOrders :
    (∃ s : State, ∃ src r, Asks s src 0x06 r ∧ fieldsOk r 0x1FFF false false false 32 36 = true ∧ localDevice s (par r 8 5) = true ∧ par r 8 5 ≠ 31) ∧
    (∃ s : State, ∃ src r, Asks s src 0x0C r ∧ fieldsOk r 0 false false false 32 32 = true) ∧
    (∃ s : State, ∃ u src r m b,
      let v := meterCommit (u.modMeter m (fun x => { x with owner := if x.owner = 15 then r.fn else x.owner })) m b; Asks s src 0x07 r ∧
      par r 0 7 = m ∧ fieldsOk r 0x7F (!isMailbox r) false false 32 32 = true ∧ mustWait s r (m / 64) = false ∧ (s.meter m).unit ≠ .retired ∧
      isLost s (m / 64) = false ∧ meterMay s r m = true ∧ meterBytes s r = (some b, u) ∧ settingsOk (m / 64) b = true ∧
      (v.die (m / 64)).meterRun = true) ∧
    (∃ s : State, ∃ u src r m b,
      let v := meterCommit (u.modMeter m (fun x => { x with owner := if x.owner = 15 then r.fn else x.owner })) m b; Asks s src 0x07 r ∧
      par r 0 7 = m ∧ fieldsOk r 0x7F (!isMailbox r) false false 32 32 = true ∧ mustWait s r (m / 64) = false ∧ (s.meter m).unit ≠ .retired ∧
      isLost s (m / 64) = false ∧ meterMay s r m = true ∧ meterBytes s r = (some b, u) ∧ settingsOk (m / 64) b = true ∧
      (v.die (m / 64)).meterRun = false) ∧
    (∃ s : State, ∃ src r m, Asks s src 0x08 r ∧ par r 0 7 = m ∧ fieldsOk r 0x7F false (!isMailbox r) false 32 32 = true ∧ eB r.bytes % 8 = 0 ∧
      mustWait s r (m / 64) = false ∧ (s.meter m).unit ≠ .retired ∧ isLost s (m / 64) = false ∧ isMailbox r = true) ∧
    (∃ s : State, ∃ src r m, Asks s src 0x08 r ∧ par r 0 7 = m ∧ fieldsOk r 0x7F false (!isMailbox r) false 32 32 = true ∧ eB r.bytes % 8 = 0 ∧
      mustWait s r (m / 64) = false ∧ (s.meter m).unit ≠ .retired ∧ isLost s (m / 64) = false ∧ isMailbox r = false ∧ eB r.bytes = 0) ∧
    (∃ s : State, ∃ src r m u, Asks s src 0x08 r ∧ par r 0 7 = m ∧ fieldsOk r 0x7F false (!isMailbox r) false 32 32 = true ∧ eB r.bytes % 8 = 0 ∧
      mustWait s r (m / 64) = false ∧ (s.meter m).unit ≠ .retired ∧ isLost s (m / 64) = false ∧ isMailbox r = false ∧ eB r.bytes ≠ 0 ∧
      reqPut s r (eB r.bytes) (snapRead s m) = (none, u)) ∧
    (∃ s : State, ∃ src r q t, Asks s src 0x09 r ∧ par r 0 3 = q ∧ mustWait s r (q / 4) = false ∧ isLost s (q / 4) = false ∧ ((par r 3 1 = 0 ∧
      fieldsOk r 0xF false false false 32 32 = true ∧ tilesLeft s r q ≠ 0 ∧
      (rangeL (512 * q + 16) 496).find? (tileFree s) = some t) ∨ (par r 3 1 = 1 ∧ fieldsOk r 0x1FFF false false false 32 32 = true ∧
      16 ≤ par r 4 9 ∧ t = 512 * q + par r 4 9 ∧ tileFree s t = true ∧
      (allocRivals s r q).any (fun e => fld (eParams e.2.bytes) 3 10 = 1 + 2 * par r 4 9) = false))) ∧
    (∃ s : State, ∃ src r t, Asks s src 0x0A r ∧ fieldsOk r 0xFFFF false false false 32 32 = true ∧ par r 0 12 = t ∧
      par r 12 4 = (tileGen s t).toNat ∧ mustWait s r (t / 2048) = false ∧ isLost s (t / 2048) = false ∧ 16 ≤ t % 512 ∧
      (s.tile t).owner = .fn r.fn ∧ (s.tile t).retired = false) ∧
    (∃ s : State, ∃ u v src r n, ∃ bs : List Byte, ∃ ps fr k, Asks s src 0x0B r ∧ par r 0 2 = 0 ∧ par r 4 9 = n ∧
      fieldsOk r 0x00FF1FF3 false false true 32 (32 + 8 * min (par r 16 8) 2) = true ∧ par r 16 8 ≠ 0 ∧ hasCap s r.fn 1 = true ∧ n < 384 ∧
      (s.lane n).unit ≠ .retired ∧ mustWait s r (laneDie n) = false ∧ isLost s (laneDie n) = false ∧
      streamOf s r (8 * (par r 16 8 - 2)) = (.inr bs, u) ∧ ((eInline r.bytes).take (8 * par r 16 8) ++ bs).length ≥ 8 * par r 16 8 ∧
      pairsOf (par r 16 8) ((eInline r.bytes).take (8 * par r 16 8) ++ bs) = some ps ∧
      ps.all (fun p => laneWritable (isFrame (u.lane n) || ps.any (fun p => p.1 = 0 && wf p.2 0 4 = 0xC)) p.1) = true ∧
      pairsWrite r.fn n 0 (none, 0) u ps = ((fr, k), v)) ∧
    (∃ s : State, ∃ u src r, ∃ bs : List Byte, ∃ ls, Asks s src 0x0B r ∧ par r 0 2 = 1 ∧ par r 12 6 ≤ 32 ∧
      fieldsOk r 0x3FFF3 false false true 32 (32 + 2 * min (par r 12 6) 8) = true ∧ hasCap s r.fn 1 = true ∧
      streamOf s r (2 * (par r 12 6 - 8)) = (.inr bs, u) ∧ ((eInline r.bytes).take (2 * par r 12 6) ++ bs).length ≥ 2 * par r 12 6 ∧
      ls = (List.range (par r 12 6)).map (fun i => u16 ((eInline r.bytes).take (2 * par r 12 6) ++ bs) (2 * i)) ∧ ((∀ n ∈ ls, n < 384 ∧
      (u.lane n).unit ≠ .retired ∧ isPartner u n = false)) ∧ ls.Nodup) :=
  ⟨⟨inQueue live 1 (entryOf 0x06 0 7 0 0 0 [1, 2, 3, 4]), .queue 0 1, reqAt 1 (entryOf 0x06 0 7 0 0 0 [1, 2, 3, 4]), by unfold Asks; decide,
    by decide⟩,
   ⟨inBox live (entryOf 0x0C 0 0 0 0 0 []), .mailbox 0, boxReq (entryOf 0x0C 0 0 0 0 0 []), by unfold Asks; decide, by decide⟩,
   ⟨inQueue live 1 (entryOf 0x07 0 127 0x2000 0 0 []), _, .queue 0 1, reqAt 1 (entryOf 0x07 0 127 0x2000 0 0 []), 127, zeros 32,
     by unfold Asks; decide, by decide, by decide, by decide, by decide, by decide, by decide, eq_pair (by decide), by decide⟩,
   ⟨inQueue ({ live with die1 := { half with meterRun := false } }) 1 (entryOf 0x07 0 127 0x2000 0 0 []), _, .queue 0 1,
     reqAt 1 (entryOf 0x07 0 127 0x2000 0 0 []), 127, zeros 32, by unfold Asks; decide, by decide, by decide, by decide, by decide, by decide,
     by decide, eq_pair (by decide), by decide⟩,
   ⟨inBox live (entryOf 0x08 0 127 0 0 0 []), .mailbox 0, boxReq (entryOf 0x08 0 127 0 0 0 []), 127, by unfold Asks; decide, by decide⟩,
   ⟨inQueue live 1 (entryOf 0x08 0 127 0 0 0 []), .queue 0 1, reqAt 1 (entryOf 0x08 0 127 0 0 0 []), 127, by unfold Asks; decide, by decide⟩,
   ⟨inQueue live 1 (entryOf 0x08 0 127 0 0x3000 0 []), .queue 0 1, reqAt 1 (entryOf 0x08 0 127 0 0x3000 0 []), 127, _, by unfold Asks; decide,
     by decide, by decide, by decide, by decide, by decide, by decide, by decide, by decide, eq_pair (by decide)⟩,
   ⟨inQueue live 1 (entryOf 0x09 0 8191 0 0 0 []), .queue 0 1, reqAt 1 (entryOf 0x09 0 8191 0 0 0 []), 7, 4095, by unfold Asks; decide, by decide⟩,
   ⟨inQueue (live.modTile 4095 (fun x => { x with owner := .fn 0 })) 1 (entryOf 0x0A 0 4095 0 0 0 []), .queue 0 1,
     reqAt 1 (entryOf 0x0A 0 4095 0 0 0 []), 4095, by unfold Asks; decide, by decide⟩,
   ⟨inQueue live 1 (entryOf 0x0B 0 0x117F0 0 0 0 [4, 0, 0, 0, 5]), _, _, .queue 0 1, reqAt 1 (entryOf 0x0B 0 0x117F0 0 0 0 [4, 0, 0, 0, 5]), 383,
     [], [(4, 5)], none, 0, by unfold Asks; decide, by decide, by decide, by decide, by decide, by decide, by decide, by decide, by decide,
     by decide, eq_pair (by decide), by decide, by decide, by decide, eq_pair (by decide)⟩,
   ⟨inQueue live 1 (entryOf 0x0B 0 8193 0 0 0 [0x7F, 1, 0x10, 0]), _, .queue 0 1, reqAt 1 (entryOf 0x0B 0 8193 0 0 0 [0x7F, 1, 0x10, 0]), [],
     [383, 16], by unfold Asks; decide, by decide, by decide, by decide, by decide, eq_pair (by decide), by decide⟩⟩

theorem witness_IdentityFeaturesAndCapabilities :
    (∃ s : State, ∃ src r, Asks s src 0x81 r ∧ par r 0 8 ≤ 1 ∧ eB r.bytes % 64 = 0 ∧
      fieldsOk r (if isMailbox r then 0x7FFF else 0xFF) false (!isMailbox r) false 32 32 = true ∧ isMailbox r = true) ∧
    (∃ s : State, ∃ src r page u, Asks s src 0x81 r ∧ par r 0 8 ≤ 1 ∧ eB r.bytes % 64 = 0 ∧
      fieldsOk r (if isMailbox r then 0x7FFF else 0xFF) false (!isMailbox r) false 32 32 = true ∧
      page = (if par r 0 8 = 0 then identifyPage0 s r.fn else identifyPage1 s) ∧ isMailbox r = false ∧
      reqPut s r (eB r.bytes) (sub page 0 4096) = (none, u)) ∧
    (∃ s : State, ∃ src r, Asks s src 0x85 r ∧ fieldsOk r 0xFFFF false false false 32 32 = true ∧ par r 0 16 = 1) ∧
    (∃ s : State, ∃ src r, Asks s src 0x85 r ∧ fieldsOk r 0xFFFF false false false 32 32 = true ∧ par r 0 16 = 2) ∧
    (∃ s : State, ∃ src r, Asks s src 0x85 r ∧ fieldsOk r 0xFFFF false false false 32 32 = true ∧ par r 0 16 = 3) ∧
    (∃ s : State, ∃ src r, Asks s src 0x85 r ∧ fieldsOk r 0xFFFF false false false 32 32 = true ∧ par r 0 16 = 4) ∧
    (∃ s : State, ∃ src r, Asks s src 0x85 r ∧ fieldsOk r 0xFFFF false false false 32 32 = true ∧ par r 0 16 = 5) ∧
    (∃ s : State, ∃ src r f, AdminAsks s src 0x8D r (fieldsOk r 0xFFFF07 false false false 32 32) (isPrimary r) ∧ par r 0 3 = f ∧
      par r 8 8 &&& par r 16 8 = 0 ∧ par r 8 8 < 32 ∧ par r 16 8 < 32 ∧ fnPresent s f = true ∧ mustWait s r (fnPort f) = false ∧ f ≠ 0) ∧
    (∃ s : State, ∃ src r f, AdminAsks s src 0x8D r (fieldsOk r 0xFFFF07 false false false 32 32) (isPrimary r) ∧ par r 0 3 = f ∧
      par r 8 8 &&& par r 16 8 = 0 ∧ par r 8 8 < 32 ∧ par r 16 8 < 32 ∧ fnPresent s f = true ∧ mustWait s r (fnPort f) = false ∧ f = 0) :=
  ⟨⟨inBox live (entryOf 0x81 0 0x7F01 0 0 0 []), .mailbox 0, boxReq (entryOf 0x81 0 0x7F01 0 0 0 []), by unfold Asks; decide, by decide⟩,
   ⟨inQueue live 0 (entryOf 0x81 0 1 0 0x4000 0 []), .queue 0 0, reqAt 0 (entryOf 0x81 0 1 0 0x4000 0 []), _, _, by unfold Asks; decide,
     by decide, by decide, by decide, rfl, by decide, eq_pair (by decide +kernel)⟩,
   ⟨inBox live (entryOf 0x85 0 1 0 0 0 []), .mailbox 0, boxReq (entryOf 0x85 0 1 0 0 0 []), by unfold Asks; decide, by decide⟩,
   ⟨inBox live (entryOf 0x85 0 2 0 0 0 []), .mailbox 0, boxReq (entryOf 0x85 0 2 0 0 0 []), by unfold Asks; decide, by decide⟩,
   ⟨inBox live (entryOf 0x85 0 3 0 0 0 []), .mailbox 0, boxReq (entryOf 0x85 0 3 0 0 0 []), by unfold Asks; decide, by decide⟩,
   ⟨inBox live (entryOf 0x85 0 4 0 0 0 []), .mailbox 0, boxReq (entryOf 0x85 0 4 0 0 0 []), by unfold Asks; decide, by decide⟩,
   ⟨inBox live (entryOf 0x85 0 5 0 0 0 []), .mailbox 0, boxReq (entryOf 0x85 0 5 0 0 0 []), by unfold Asks; decide, by decide⟩,
   ⟨inQueue live 0 (entryOf 0x8D 0 1966343 0 0 0 []), .queue 0 0, reqAt 0 (entryOf 0x8D 0 1966343 0 0 0 []), 7, by unfold AdminAsks Asks; decide,
     by decide⟩,
   ⟨inQueue live 0 (entryOf 0x8D 0 1966336 0 0 0 []), .queue 0 0, reqAt 0 (entryOf 0x8D 0 1966336 0 0 0 []), 0, by unfold AdminAsks Asks; decide,
     by decide⟩⟩

theorem witness_QueuesAndEventRings :
    (∃ s : State, ∃ u src r q, Asks s src 0x82 r ∧ fieldsOk r 0x1FFF true true false 32 32 = true ∧ par r 0 7 = q ∧ q ≠ 0 ∧
      (if par r 7 1 = 1 then 6 ≤ par r 8 4 ∧ par r 8 4 ≤ 14 else 4 ≤ par r 8 4 ∧ par r 8 4 ≤ 12) ∧
      ringOk s (eA r.bytes) (64 * 2 ^ par r 8 4) = true ∧ eB r.bytes % 4 = 0 ∧ (s.queue r.fn q).st = .absent ∧
      memPut portPw s (fnParty s r.fn) (eB r.bytes) (zeros 4) .mirror true = (none, u)) ∧
    (∃ s : State, ∃ src r q, Asks s src 0x83 r ∧ fieldsOk r 0x7F false false false 32 32 = true ∧ par r 0 7 = q ∧ q ≠ 0 ∧
      (s.queue r.fn q).st = .running ∧ (s.queue r.fn q).head = (s.queue r.fn q).tail ∧ (s.queue r.fn q).flight = []) ∧
    (∃ s : State, ∃ src r q, Asks s src 0x83 r ∧ fieldsOk r 0x7F false false false 32 32 = true ∧ par r 0 7 = q ∧ q ≠ 0 ∧
      (s.queue r.fn q).st = .error) ∧
    (∃ s : State, ∃ u src r, Asks s src 0x86 r ∧ fieldsOk r 0xF true false false 32 32 = true ∧ 6 ≤ par r 0 4 ∧ par r 0 4 ≤ 12 ∧
      ringOk s (eA r.bytes) (16 * 2 ^ par r 0 4) = true ∧
      (if wb s.pkg.enforce r.fn then windowCheck s (4 * fnPort r.fn) r.fn (eA r.bytes) (16 * 2 ^ par r 0 4) rightWrite = (true, u) else u = s) ∧
      (u.target r.fn).live = false) ∧
    (∃ s : State, ∃ src r, Asks s src 0x86 r ∧ fieldsOk r 0x10 false false false 32 32 = true ∧ par r 4 1 = 1 ∧ (s.target r.fn).live = true) :=
  ⟨⟨inQueue live 0 (entryOf 0x82 0 3839 0x100000 0x3000 0 []), _, .queue 0 0, reqAt 0 (entryOf 0x82 0 3839 0x100000 0x3000 0 []), 127,
    by unfold Asks; decide, by decide, by decide, by decide, by decide, by decide, by decide, by decide, eq_pair (by decide)⟩,
   ⟨inQueue (live.modQueue 0 127 (fun x => { x with st := .running })) 0 (entryOf 0x83 0 127 0 0 0 []), .queue 0 0,
     reqAt 0 (entryOf 0x83 0 127 0 0 0 []), 127, by unfold Asks; decide, by decide⟩,
   ⟨inQueue (live.modQueue 0 127 (fun x => { x with st := .error })) 0 (entryOf 0x83 0 127 0 0 0 []), .queue 0 0,
     reqAt 0 (entryOf 0x83 0 127 0 0 0 []), 127, by unfold Asks; decide, by decide⟩,
   ⟨inQueue live 0 (entryOf 0x86 0 12 0x10000 0 0 []), inQueue live 0 (entryOf 0x86 0 12 0x10000 0 0 []), .queue 0 0,
     reqAt 0 (entryOf 0x86 0 12 0x10000 0 0 []), by unfold Asks; decide, by decide⟩,
   ⟨inQueue (live.modTarget 0 (fun x => { x with live := true })) 0 (entryOf 0x86 0 16 0 0 0 []), .queue 0 0,
     reqAt 0 (entryOf 0x86 0 16 0 0 0 []), by unfold Asks; decide, by decide⟩⟩

theorem witness_FeaturesAreSet :
    (∃ s : State, ∃ src r, AdminAsks s src 0x84 r (fieldsOk r 0xFFFF false false false 32 40) (isPrimary r) ∧ par r 0 16 = 3 ∧
      u64 r.bytes 32 ≤ 32 ∧ mustWait s r (1 - reqDie r) = false) ∧
    (∃ s : State, ∃ src r, AdminAsks s src 0x84 r (fieldsOk r 0xFFFF false false false 32 40) (isPrimary r) ∧ par r 0 16 = 4 ∧
      fld (u64 r.bytes 32) 36 28 = 0) ∧
    (∃ s : State, ∃ src r, AdminAsks s src 0x84 r (fieldsOk r 0xFFFF false false false 32 40) (isPrimary r) ∧ par r 0 16 = 4 ∧
      u64 r.bytes 32 = 2 ^ 63) ∧
    (∃ s : State, ∃ src r, AdminAsks s src 0x84 r (fieldsOk r 0xFFFF false false false 32 40) true ∧ par r 0 16 = 5 ∧ u64 r.bytes 32 ≤ 1) :=
  ⟨⟨inQueue live 0 (entryOf 0x84 0 3 0 0 0 [32]), .queue 0 0, reqAt 0 (entryOf 0x84 0 3 0 0 0 [32]), by unfold AdminAsks Asks; decide, by decide⟩,
   ⟨inQueue live 0 (entryOf 0x84 0 4 0 0 0 (leBytes 8 (2 ^ 36 - 1))), .queue 0 0, reqAt 0 (entryOf 0x84 0 4 0 0 0 (leBytes 8 (2 ^ 36 - 1))),
     by unfold AdminAsks Asks; decide, by decide⟩,
   ⟨inQueue live 0 (entryOf 0x84 0 4 0 0 0 [0, 0, 0, 0, 0, 0, 0, 0x80]), .queue 0 0, reqAt 0 (entryOf 0x84 0 4 0 0 0 [0, 0, 0, 0, 0, 0, 0,
     0x80]), by unfold AdminAsks Asks; decide, by decide⟩,
   ⟨inQueue live 0 (entryOf 0x84 0 5 0 0 0 [1]), .queue 0 0, reqAt 0 (entryOf 0x84 0 5 0 0 0 [1]), by unfold AdminAsks Asks; decide, by decide⟩⟩

theorem witness_FirmwareIsStagedAndActivated :
    (∃ s : State, ∃ u src r, ∃ bs : List Byte, ∃ old, AdminAsks s src 0x87 r (fieldsOk r 0 false false true 32 40) (isPrimary r) ∧
      u32 r.bytes 36 ≤ 0x400000 ∧ (u32 r.bytes 32 = 0 ∧ old = [] ∨ u32 r.bytes 32 ≠ 0 ∧ s.pkg.staging = some (u32 r.bytes 36, old)) ∧
      old.length = u32 r.bytes 32 ∧ (backupFitted s && mustWait s r 1) = false ∧ streamOf s r (u32 r.bytes 36 - u32 r.bytes 32) = (.inr bs, u) ∧
      (old ++ bs).length ≠ u32 r.bytes 36 ∧ bs.length % 4096 = 0) ∧
    (Config.payloadHashOk image0 = true → ∃ s : State, ∃ u src r, ∃ bs : List Byte, ∃ old v,
      AdminAsks s src 0x87 r (fieldsOk r 0 false false true 32 40) (isPrimary r) ∧ u32 r.bytes 36 ≤ 0x400000 ∧ (u32 r.bytes 32 = 0 ∧
      old = [] ∨ u32 r.bytes 32 ≠ 0 ∧ s.pkg.staging = some (u32 r.bytes 36, old)) ∧ old.length = u32 r.bytes 32 ∧
      (backupFitted s && mustWait s r 1) = false ∧ streamOf s r (u32 r.bytes 36 - u32 r.bytes 32) = (.inr bs, u) ∧
      v = (stageWrite u (old ++ bs)).modPkg (fun p => { p with staging := none }) ∧ (old ++ bs).length = u32 r.bytes 36 ∧
      imageReject (v.die 0).otp (old ++ bs) true = 0) ∧
    (∃ s : State, ∃ src r, AdminAsks s src 0x88 r (fieldsOk r 1 false false false 32 32) (isPrimary r) ∧ (s.die 0).flash.dir.staged = true ∧
      (backupFitted s && mustWait s r 1) = false ∧ par r 0 1 = 0) ∧
    (∃ s : State, ∃ src r, AdminAsks s src 0x88 r (fieldsOk r 1 false false false 32 32) (isPrimary r) ∧ (s.die 0).flash.dir.staged = true ∧
      (backupFitted s && mustWait s r 1) = false ∧ par r 0 1 = 1) ∧
    (∃ s : State, ∃ d, d < 2 ∧ s.pkg.reloading = some d) ∧
    (∃ s : State, ∃ d t v, d < 2 ∧ s.pkg.reloading = some d ∧
      t = resetsFollow portPw (firmwareFresh ((s.modDie d (fun x => { x with stw := { x.stw with pair := if x.stw.pair = 2 then 0 else x.stw.pair } })).modPkg (fun p => { p with reloading := none })) d) d ∧
      v = (match reloadImage t d with | some (img, k) => t.modDie d (fun x => { x with boot := bootOf img k 1 0 }) | none => t) ∧ d = 1 ∧
      dieUp v 0 = true) ∧
    (∃ s : State, ∃ d t v, d < 2 ∧ s.pkg.reloading = some d ∧
      t = resetsFollow portPw (firmwareFresh ((s.modDie d (fun x => { x with stw := { x.stw with pair := if x.stw.pair = 2 then 0 else x.stw.pair } })).modPkg (fun p => { p with reloading := none })) d) d ∧
      v = (match reloadImage t d with | some (img, k) => t.modDie d (fun x => { x with boot := bootOf img k 1 0 }) | none => t) ∧
      (d = 0 ∨ dieUp v 0 = false)) :=
  ⟨⟨inQueue { live with hostMem := [(0x200C, 2)] } 0 (entryOf 0x87 0 0 0 0 0x2000 [0, 0, 0, 0, 0, 0, 0x40]), _, .queue 0 0,
    reqAt 0 (entryOf 0x87 0 0 0 0 0x2000 [0, 0, 0, 0, 0, 0, 0x40]), [], [], by unfold AdminAsks Asks; decide, by decide, by decide, by decide,
    by decide, eq_pair (by decide +kernel), by decide⟩,
   fun h => ⟨inQueue (streamed live image0) 0 (entryOf 0x87 0 0 0 0 0x2000 [0, 0, 0, 0, 24]), _, .queue 0 0,
     reqAt 0 (entryOf 0x87 0 0 0 0 0x2000 [0, 0, 0, 0, 24]), image0, [], _, by unfold AdminAsks Asks; decide, by decide, by decide, by decide,
     by decide, eq_pair (by decide +kernel), rfl, by decide +kernel, image0_ok (by decide +kernel) h⟩,
   ⟨inQueue (live.modDie 0 (fun x => { x with flash := { dir := { staged := true } } })) 0 (entryOf 0x88 0 0 0 0 0 []), .queue 0 0,
     reqAt 0 (entryOf 0x88 0 0 0 0 0 []), by unfold AdminAsks Asks; decide, by decide⟩,
   ⟨inQueue (live.modDie 0 (fun x => { x with flash := { dir := { staged := true } } })) 0 (entryOf 0x88 0 1 0 0 0 []), .queue 0 0,
     reqAt 0 (entryOf 0x88 0 1 0 0 0 []), by unfold AdminAsks Asks; decide, by decide⟩,
   ⟨live.modPkg (fun p => { p with reloading := some 1 }), 1, by decide⟩,
   ⟨live.modPkg (fun p => { p with reloading := some 1 }), 1, _, _, by decide, by decide, rfl, rfl, by decide⟩,
   ⟨live.modPkg (fun p => { p with reloading := some 0 }), 0, _, _, by decide, by decide, rfl, rfl, by decide⟩⟩

set_option maxRecDepth 20000 in
theorem witness_OtpCommitAndBlackboxRead :
    (∃ s : State, ∃ u v w src r g verify0 verify1 k0 k1, CommitOk s u src r g ∧ otpDone u 0 g verify0 = (k0, v) ∧ otpDone v 1 g verify1 = (k1,
      w) ∧ ((isLost u 0 = false → k0 ≠ 0)) ∧ ((isLost u 1 = false → k1 ≠ 0))) ∧
    (∃ s : State, ∃ src r d, AdminAsks s src 0x8A r (fieldsOk r 0x3FFFFFF false (!isMailbox r) false 32 32) (hasCap s r.fn 3) ∧ par r 0 1 = d ∧
      1 ≤ par r 13 13 ∧ par r 13 13 ≤ (if isMailbox r then 1 else 4096) ∧ eB r.bytes % 32 = 0 ∧ mustWait s r d = false ∧
      (isLost s d && !(s.die (1 - d)).arc.sideband) = false ∧ isMailbox r = true) ∧
    (∃ s : State, ∃ src r d, ∃ bs : List Byte, ∃ u,
      AdminAsks s src 0x8A r (fieldsOk r 0x3FFFFFF false (!isMailbox r) false 32 32) (hasCap s r.fn 3) ∧ par r 0 1 = d ∧ 1 ≤ par r 13 13 ∧
      par r 13 13 ≤ (if isMailbox r then 1 else 4096) ∧ eB r.bytes % 32 = 0 ∧ mustWait s r d = false ∧
      (isLost s d && !(s.die (1 - d)).arc.sideband) = false ∧
      bs = (List.range (par r 13 13)).flatMap (fun i => bbxBytes s d ((par r 1 12 + i) % 4096)) ∧ isMailbox r = false ∧
      reqPut s r (eB r.bytes) bs = (none, u)) :=
  ⟨⟨inQueue (streamed live gen0) 0 (entryOf 0x89 0 0 0 0 0x2000 []), inQueue (streamed live gen0) 0 (entryOf 0x89 0 0 0 0 0x2000 []), _, _,
    .queue 0 0, reqAt 0 (entryOf 0x89 0 0 0 0 0x2000 []), gen0, [], [], 1, 1, by unfold CommitOk AdminAsks Asks; decide +kernel,
    eq_pair (by decide +kernel), eq_pair (by decide +kernel), by decide⟩,
   ⟨inBox live (entryOf 0x8A 0 16383 0 0 0 []), .mailbox 0, boxReq (entryOf 0x8A 0 16383 0 0 0 []), 1, by unfold AdminAsks Asks; decide, by decide⟩,
   ⟨inQueue live 0 (entryOf 0x8A 0 24574 0 0x4000 0 []), .queue 0 0, reqAt 0 (entryOf 0x8A 0 24574 0 0x4000 0 []), 0, _, _,
     by unfold AdminAsks Asks; decide, by decide, by decide, by decide, by decide, by decide, by decide, rfl, by decide, eq_pair (by decide)⟩⟩

set_option maxRecDepth 20000 in
theorem witness_PoliciesAreLoadedAndControlled :
    (∃ s : State, ∃ u v src r d c h b cb db meters, AdminAsks s src 0x8B r (fieldsOk r 0xF false false true 32 32) (hasCap s r.fn 4) ∧
      par r 0 1 = d ∧ par r 1 3 = c ∧ mustWait s r d = false ∧ isLost s d = false ∧ (userCtx (s.die d).stw.core c).st ≠ .running ∧
      (userCtx (s.die d).stw.core c).st ≠ .waiting ∧ streamOf s r 176 = (.inr h, u) ∧ 176 ≤ h.length ∧
      meters = (List.range 128).filter (fun m => bit (u8 h (24 + m / 8)) (m % 8)) ∧ policyHeaderOk u d c r.fn h meters = true ∧
      streamOf u r (176 + 16 * u32 h 8 + u32 h 12) = (.inr b, v) ∧ 176 + 16 * u32 h 8 + u32 h 12 ≤ b.length ∧
      placeFor (codeUsed (v.die d).stw.core c) 8192 16384 (u32 b 8) = some cb ∧
      placeFor (dataUsed (v.die d).stw.core c) 4096 8192 (u32 b 12 / 64) = some db) ∧
    (∃ s : State, ∃ src r d c, PolicyAsks s src r 0 d c ∧
      ((userCtx (s.die d).stw.core c).st = .loaded ∨ (userCtx (s.die d).stw.core c).st = .faulted)) ∧
    (∃ s : State, ∃ src r d c, PolicyAsks s src r 0 d c ∧
      ((userCtx (s.die d).stw.core c).st = .running ∨ (userCtx (s.die d).stw.core c).st = .waiting)) ∧
    (∃ s : State, ∃ src r d c, PolicyAsks s src r 1 d c) ∧
    (∃ s : State, ∃ src r d c, PolicyAsks s src r 2 d c ∧ (userCtx ((ctxStopped s d c).die d).stw.core c).subs = []) ∧
    (∃ s : State, ∃ src r d c, PolicyAsks s src r 2 d c ∧ (userCtx ((ctxStopped s d c).die d).stw.core c).subs ≠ []) ∧
    (∃ s : State, ∃ src r d c, PolicyAsks s src r 3 d c) :=
  ⟨⟨inQueue (streamed live policy0) 0 (entryOf 0x8B 0 14 0 0 0x2000 []), _, _, .queue 0 0, reqAt 0 (entryOf 0x8B 0 14 0 0 0x2000 []), 0, 7,
    policy0.take 176, policy0, 8192, 4096, _, by unfold AdminAsks Asks; decide +kernel, by decide +kernel, by decide +kernel, by decide +kernel,
    by decide +kernel, by decide +kernel, by decide +kernel, eq_pair (by decide +kernel), by decide +kernel, rfl, by decide +kernel,
    eq_pair (by decide +kernel), by decide +kernel, by decide +kernel, by decide +kernel⟩,
   ⟨inQueue (ctxIs .loaded) 0 (entryOf 0x8C 0 14 0 0 0 []), .queue 0 0, reqAt 0 (entryOf 0x8C 0 14 0 0 0 []), 0, 7,
     by unfold PolicyAsks AdminAsks Asks; decide, by decide⟩,
   ⟨inQueue (ctxIs .running) 0 (entryOf 0x8C 0 14 0 0 0 []), .queue 0 0, reqAt 0 (entryOf 0x8C 0 14 0 0 0 []), 0, 7,
     by unfold PolicyAsks AdminAsks Asks; decide, by decide⟩,
   ⟨inQueue (ctxIs .running) 0 (entryOf 0x8C 0 30 0 0 0 []), .queue 0 0, reqAt 0 (entryOf 0x8C 0 30 0 0 0 []), 0, 7,
     by unfold PolicyAsks AdminAsks Asks; decide⟩,
   ⟨inQueue (ctxIs .loaded) 0 (entryOf 0x8C 0 46 0 0 0 []), .queue 0 0, reqAt 0 (entryOf 0x8C 0 46 0 0 0 []), 0, 7,
     by unfold PolicyAsks AdminAsks Asks; decide, by decide⟩,
   ⟨inQueue (ctxIs .loaded [⟨0, zeros 64, true⟩]) 0 (entryOf 0x8C 0 46 0 0 0 []), .queue 0 0, reqAt 0 (entryOf 0x8C 0 46 0 0 0 []), 0, 7,
     by unfold PolicyAsks AdminAsks Asks; decide, by decide⟩,
   ⟨inQueue live 0 (entryOf 0x8C 0 62 0 0 0 []), .queue 0 0, reqAt 0 (entryOf 0x8C 0 62 0 0 0 []), 0, 7, by unfold PolicyAsks AdminAsks Asks; decide⟩⟩

theorem witness_LinksAndTwinsAreConfigured :
    (∃ s : State, ∃ src r, LinkAsks s src r 0 0xFF false) ∧
    (∃ s : State, ∃ src r, LinkAsks s src r 1 0xFFF false ∧ mustWait s r 1 = false) ∧
    (∃ s : State, ∃ u src r, ∃ bs : List Byte, LinkAsks s src r 2 0xFFFF true ∧ par r 8 8 ≠ 0 ∧ par r 8 8 ≤ 128 ∧
      streamOf s r (4 * par r 8 8) = (.inr bs, u) ∧ 4 * par r 8 8 ≤ bs.length ∧ (aliasEntries (par r 8 8) bs).all (aliasOk u) = true) ∧
    (∃ s : State, ∃ src r p, LinkAsks s src r 3 0xFF false ∧ standoffPort s = some p ∧ s.pkg.acting = true) ∧
    (∃ s : State, ∃ src r l t, TwinAsks s src r 0x3FFFF l t ∧ twinBad s l t = false) ∧
    (∃ s : State, ∃ src r l t, TwinAsks s src r 0x8003FFFF l t ∧ par r 31 1 = 1 ∧ (twinOf s l).valid = true ∧ (twinOf s l).shadow = false ∧
      (twinOf s l).other = t ∧ (twinOf s l).failedOver = false ∧ isPartner s l = false) :=
  ⟨⟨inQueue live 0 (entryOf 0x8E 0 0 0 0 0 []), .queue 0 0, reqAt 0 (entryOf 0x8E 0 0 0 0 0 []), by unfold LinkAsks AdminAsks Asks; decide⟩,
   ⟨inQueue live 0 (entryOf 0x8E 0 0xF01 0 0 0 []), .queue 0 0, reqAt 0 (entryOf 0x8E 0 0xF01 0 0 0 []),
     by unfold LinkAsks AdminAsks Asks; decide, by decide⟩,
   ⟨inQueue (streamed live [127, 0x81, 0x20, 4]) 0 (entryOf 0x8E 0 0x102 0 0 0x2000 []), _, .queue 0 0,
     reqAt 0 (entryOf 0x8E 0 0x102 0 0 0x2000 []), [127, 0x81, 0x20, 4], by unfold LinkAsks AdminAsks Asks; decide, by decide, by decide,
     eq_pair (by decide), by decide⟩,
   ⟨inQueue ((live.modPort 3 (fun x => { x with st := .standoff })).modPkg (fun k => { k with acting := true })) 0 (entryOf 0x8E 0 3 0 0 0 []),
     .queue 0 0, reqAt 0 (entryOf 0x8E 0 3 0 0 0 []), 3, by unfold LinkAsks AdminAsks Asks; decide, by decide⟩,
   ⟨inQueue live 0 (entryOf 0x8F 0 196096 0 0 0 []), .queue 0 0, reqAt 0 (entryOf 0x8F 0 196096 0 0 0 []), 0, 383,
     by unfold TwinAsks AdminAsks Asks; decide, by decide⟩,
   ⟨inQueue (live.modPkg (fun k => { k with twins := [(0, { other := 383, valid := true })] })) 0 (entryOf 0x8F 0 2147679744 0 0 0 []),
     .queue 0 0, reqAt 0 (entryOf 0x8F 0 2147679744 0 0 0 []), 0, 383, by unfold TwinAsks AdminAsks Asks; decide, by decide⟩⟩

theorem witness_MailboxesDoorbellsAndAdminQueues :
    (∃ s : State, ∃ who f, ∃ v : Word, who.ok = true ∧ f < 8 ∧ mailboxReach s who f = true ∧ (s.func f).request = none ∧ wb v 31 = true) ∧
    (∃ s : State, ∃ f q, ∃ v : Word, let x := s.queue f q; let n := 2 ^ x.sizeLog2; let t := wf v 0 16; f < 8 ∧ q < 128 ∧
      dieUp s (fnPort f) = true ∧ fnPresent s f = true ∧ x.st = .running ∧ t < n ∧ (x.tail + n - x.head) % n ≤ (t + n - x.head) % n) ∧
    (∃ s : State, ∃ f q, ∃ v : Word, let x := s.queue f q; let n := 2 ^ x.sizeLog2; let t := wf v 0 16; f < 8 ∧ q < 128 ∧
      dieUp s (fnPort f) = true ∧ fnPresent s f = true ∧ x.st = .running ∧ (n ≤ t ∨ (t + n - x.head) % n < (x.tail + n - x.head) % n)) ∧
    (∃ s : State, ∃ f q, let x := s.queue f q; f < 8 ∧ q < 128 ∧ dieUp s (fnPort f) = true ∧ fnPresent s f = true ∧
      (x.st = .absent ∨ x.st = .destroying)) ∧
    (∃ s : State, ∃ f, ∃ v : Word, f < 8 ∧ dieUp s (fnPort f) = true ∧ fnPresent s f = true ∧ wb v 0 = true ∧ 4 ≤ wf v 8 4 ∧ wf v 8 4 ≤ 12 ∧
      wb (s.func f).adminCtrl 0 = false ∧ (s.func f).ready = true ∧ ringOk s (s.func f).adminBase.toNat (64 * 2 ^ wf v 8 4) = true ∧
      (s.func f).adminMirror.toNat % 4 = 0) ∧
    (∃ s : State, ∃ f, ∃ v : Word, f < 8 ∧ dieUp s (fnPort f) = true ∧ fnPresent s f = true ∧ wb v 0 = false ∧ 4 ≤ wf v 8 4 ∧ wf v 8 4 ≤ 12 ∧
      wb (s.func f).adminCtrl 0 = true ∧ wf (s.func f).adminCtrl 8 4 = wf v 8 4) ∧
    (∃ s : State, ∃ f d0 bme, f < 8 ∧ (d0 && bme && portUp s (fnPort f)) = true) ∧
    (∃ s : State, ∃ f d0 bme, f < 8 ∧ (d0 && bme && portUp s (fnPort f)) = false) :=
  ⟨⟨live, .fn 7, 7, 0x80000000, by decide⟩,
   ⟨live.modQueue 7 127 (fun x => { x with st := .running, sizeLog2 := 4, head := 9, tail := 12 }), 7, 127, 8, by decide⟩,
   ⟨live.modQueue 7 127 (fun x => { x with st := .running, sizeLog2 := 4, head := 9, tail := 12 }), 7, 127, 11, by decide⟩,
   ⟨live, 7, 127, by decide⟩,
   ⟨live.modFunc 7 (fun x => { x with adminBase := 0x10000, adminMirror := 0x2004 }), 7, 0xC01, by decide⟩,
   ⟨live.modFunc 7 (fun x => { x with adminCtrl := 0xC01 }), 7, 0xC00, by decide⟩,
   ⟨live, 7, true, true, by decide⟩,
   ⟨live, 7, false, true, by decide⟩⟩

theorem witness_EntriesAreFetchedAndHeadsPublished :
    (∃ s : State, ∃ u f, f < 8 ∧ frontTurn s (fnPort f) = some f ∧ takeEntry s f 0 = some u) ∧
    (∃ s : State, ∃ u f q before after, f < 8 ∧ frontTurn s (fnPort f) = some f ∧
      rangeL (s.func f).rr (128 - (s.func f).rr) ++ rangeL 1 ((s.func f).rr - 1) = before ++ q :: after ∧ takeEntry s f 0 = none ∧
      ((∀ p ∈ before, takeEntry s f p = none)) ∧ 0 ∉ before ∧ q ≠ 0 ∧ takeEntry s f q = some u) ∧
    (∃ s : State, ∃ u f q e, queueOffers s f q = true ∧ (s.queue f q).variable_ = false ∧ 1 ≤ (s.queue f q).sizeLog2 ∧
      ((s.queue f q).tail + 2 ^ (s.queue f q).sizeLog2 - (s.queue f q).fetch) % 2 ^ (s.queue f q).sizeLog2 ≠ 0 ∧
      fetchGet s (fnParty s f) ((s.queue f q).ring.toNat + 64 * ((s.queue f q).fetch % 2 ^ (s.queue f q).sizeLog2)) 64 = (.ok e, u) ∧
      eOwn e = true ∧ u.queue f q = s.queue f q) ∧
    (∃ s : State, ∃ f q gone e, f < 8 ∧ q < 128 ∧ dieUp s (fnPort f) = true ∧ (s.queue f q).st = .running ∧
      (s.queue f q).flight.takeWhile (·.done) = gone ++ [e]) :=
  ⟨⟨offered 0, _, 0, by decide, by decide, some_get (by decide +kernel)⟩,
   ⟨offered 2, _, 0, 2, [1], rangeL 3 125, by decide, by decide, by decide +kernel, by decide, by decide +kernel, by decide, by decide,
     some_get (by decide +kernel)⟩,
   ⟨offered 127, _, 0, 127, entryOf 0x0C 0 0 0 0 0 [], by decide, by decide, by decide, by decide, eq_pair (by decide +kernel), by decide,
     by decide +kernel⟩,
   ⟨live.modQueue 0 127 (fun x => { x with st := .running, flight := [done0] }), 0, 127, [], done0, by decide⟩⟩

theorem witness_EventHeadsAcksAndRoutes :
    (∃ s : State, ∃ t, ∃ v : Word, let g := s.target t; let n := 2 ^ g.sizeLog2; let h := wf v 0 12; t < 10 ∧ dieUp s (targetDie t) = true ∧
      (s.target t).live = true ∧ h < n ∧ (h + n - g.head) % n ≤ (g.tail + n - g.head) % n ∧ h = g.tail) ∧
    (∃ s : State, ∃ t, ∃ v : Word, let g := s.target t; let n := 2 ^ g.sizeLog2; let h := wf v 0 12; t < 10 ∧ dieUp s (targetDie t) = true ∧
      (s.target t).live = true ∧ h < n ∧ (h + n - g.head) % n ≤ (g.tail + n - g.head) % n ∧ h ≠ g.tail ∧ g.ready = true) ∧
    (∃ s : State, ∃ t, ∃ v : Word, let g := s.target t; let n := 2 ^ g.sizeLog2; let h := wf v 0 12; t < 10 ∧ dieUp s (targetDie t) = true ∧
      (s.target t).live = true ∧ h < n ∧ (h + n - g.head) % n ≤ (g.tail + n - g.head) % n ∧ h ≠ g.tail ∧ g.ready = false) ∧
    (∃ s : State, ∃ t, ∃ v : Word, t < 10 ∧ dieUp s (targetDie t) = true ∧ 256 ≤ wf v 0 10 ∧ wf v 0 10 < 768 ∧
      (s.source (wf v 0 10)).inService = true ∧ routeTarget (s.source (wf v 0 10)) = t) ∧
    (∃ s : State, ∃ who d n v, who.ok = true ∧ d < 2 ∧ 256 ≤ n ∧ n < 768 ∧ portReach s who d = true ∧ sourceDie n = d ∧ ¬(516 ≤ n ∧ n < 520) ∧
      ¬(524 ≤ n ∧ n < 528) ∧ routeOk s n v = true) :=
  ⟨⟨ringed 9 id, 9, 2, by decide⟩,
   ⟨ringed 9 (fun x => { x with ready := true }), 9, 1, by decide⟩,
   ⟨ringed 9 id, 9, 1, by decide⟩,
   ⟨live.modSource 767 (fun x => { x with route := 9, inService := true }), 9, 767, by decide⟩,
   ⟨live, .steward 1, 1, 767, 196185, by decide⟩⟩

theorem witness_ModerationRecordsAndMessages :
    (∃ s : State, ∃ t g, ∃ v : Word, t < 8 ∧ g < 16 ∧ dieUp s (targetDie t) = true ∧ modOk v = true) ∧
    (∃ s : State, ∃ t g, ∃ v : Word, t < 10 ∧ 16 ≤ g ∧ g < 48 ∧ portReach s (.fn 0) 0 = true ∧ modOk v = true) ∧
    (∃ s : State, ∃ t g, t < 10 ∧ g < 48 ∧ groupDue s t g = true) ∧
    (∃ s : State, ∃ t n o u, t < 10 ∧ (s.target t).live = true ∧ ((s.target t).tail + 1) % 2 ^ (s.target t).sizeLog2 ≠ (s.target t).head ∧
      writerRuns s t = true ∧ ((∀ a, (s.target t).wroteAt = some a → a + 4 ≤ s.edges)) ∧ nextSource s t = some n ∧ takeOcc s t n = some (o, u)) ∧
    (∃ s : State, ∃ f, f < 8 ∧ dieUp s (fnPort f) = true ∧ (s.target f).masked = true ∧ (s.target f).msixPending = true ∧ intOf (s.target f) = true) ∧
    (∃ s : State, ∃ f, f < 8 ∧ dieUp s (fnPort f) = true ∧ (s.target f).masked = true ∧ (s.target f).msixPending = true ∧
      intOf (s.target f) = false) ∧
    (∃ s : State, ∃ f, f < 8 ∧ dieUp s (fnPort f) = true ∧ ((s.target f).masked = false ∨ (s.target f).msixPending = false)) :=
  ⟨⟨live, 7, 15, 0x00010001, by decide⟩,
   ⟨live, 9, 47, 0xFFFFFF00, by decide⟩,
   ⟨ringed 9 (fun x => { x with paces := [(47, { count := 1 })] }), 9, 47, by decide⟩,
   ⟨ringed 9 (fun x => { x with pend := [(128, some { kind := 1, data := 0, time := 0 })] }), 9, 128, { kind := 1, data := 0, time := 0 }, _,
     by decide, by decide, by decide, by decide, by decide, by decide, rfl⟩,
   ⟨ringed 7 (fun x => { x with masked := true, msixPending := true, ready := true }), 7, by decide⟩,
   ⟨ringed 7 (fun x => { x with masked := true, msixPending := true }), 7, by decide⟩,
   ⟨live, 7, by decide⟩⟩

theorem witness_RegisterWriteGivesValue :
    (∃ s : State, ∃ d off, d < 2 ∧ portReach s (.fn 0) d = true ∧ off < 0x1000000 ∧ off % 4 = 0) ∧
    (∃ s : State, ∃ d, d < 2 ∧ portReach s (.fn 0) d = true ∧ (s.pkg.split && s.pkg.custody != d) = false) ∧
    (∃ s : State, ∃ d, d < 2 ∧ portReach s (.fn 0) d = true) ∧
    (∃ s : State, ∃ d t, d < 2 ∧ portReach s (.fn 0) d = true ∧ t < 16) ∧
    (∃ s : State, ∃ d i, d < 2 ∧ portReach s (.fn 0) d = true ∧ i < 32) :=
  ⟨⟨live, 1, 0xFFFFFC, by decide⟩,
   ⟨live, 1, by decide⟩,
   ⟨live, 0, by decide⟩,
   ⟨live, 1, 15, by decide⟩,
   ⟨live, 1, 31, by decide⟩⟩

theorem witness_ReadsLatchAndIdlePointsApply :
    (∃ s : State, ∃ who d off w, d < 2 ∧ off < 0x800000 ∧ off % 4 = 0 ∧ (who = .fn 0 ∨ who = .steward d) ∧ portReach s who d = true ∧
      portReg s d off = some (.wide w) ∧ ¬(0x30000 ≤ off ∧ off < 0x34000 ∧ off % 256 = 0x20)) ∧
    (∃ s : State, ∃ m, m < 128 ∧ dieUp s (m / 64) = true) ∧
    (∃ s : State, ∃ c w, c < 32 ∧ (s.cluster c).schedNew = some w ∧ clusterIdle s c = true) ∧
    (∃ s : State, ∃ n, n < 128 ∧ (s.xfr n).disable = true ∧ (s.xfr n).st ≠ .running) ∧
    (∃ s : State, ∃ n r, 256 ≤ n ∧ n < 768 ∧ (s.source n).next = some r ∧ sourceIdle (s.source n) = true) ∧
    (∃ s : State, ∃ p w, p < 4 ∧ (s.port p).cfgNew = some w ∧ (s.port p).st ≠ .up) :=
  ⟨⟨live, .fn 0, 1, 0x3010, 0, by decide⟩,
   ⟨live, 127, by decide⟩,
   ⟨live.modCluster 31 (fun x => { x with schedNew := some 32 }), 31, 32, by decide⟩,
   ⟨live.modXfr 127 (fun x => { x with disable := true }), 127, by decide⟩,
   ⟨live.modSource 767 (fun x => { x with next := some 9 }), 767, 9, by decide⟩,
   ⟨live.modPort 3 (fun x => { x with cfgNew := some 0x100 }), 3, 0x100, by decide⟩⟩

theorem witness_WindowTableWrites :
    (∃ s : State, ∃ who d e first, ∃ bs : List Byte, who.ok = true ∧ d < 2 ∧ e < 256 ∧ bs ≠ [] ∧ first + bs.length ≤ 12 ∧
      portReach s who d = true ∧ (s.pkg.split && s.pkg.custody != d) = false) ∧
    (∃ s : State, ∃ who d e, ∃ bs : List Byte, who.ok = true ∧ d < 2 ∧ e < 256 ∧ bs.length = 16 ∧ portReach s who d = true ∧
      (s.pkg.split && s.pkg.custody != d) = false ∧ winBad (winOf bs) = false ∧ (s.die (1 - d)).winStage = none) ∧
    (∃ s : State, ∃ who d, who.ok = true ∧ d < 2 ∧ portReach s who d = true ∧ (s.pkg.split && s.pkg.custody != d) = false ∧
      wb s.pkg.inval 31 = false) ∧
    (∃ s : State, ∃ r, r < 8 ∧ (s.region r).dropPending = true ∧ (r / 4 = s.pkg.custody ∨ arcUp s = true)) :=
  ⟨⟨live, .fn 0, 1, 255, 4, zeros 8, by decide⟩,
   ⟨live, .fn 0, 0, 255, [0x03, 0x10, 0, 0, 0, 0, 0, 0, 0, 0x10, 0, 0, 0, 0, 0, 0], by decide⟩,
   ⟨live, .fn 0, 1, by decide⟩,
   ⟨live.modRegion 7 (fun x => { x with dropPending := true }), 7, by decide⟩⟩

theorem witness_LaneWindowAndMeterWrites :
    (∃ s : State, ∃ who n, ∃ v : Word, who.ok = true ∧ n < 384 ∧ portReach s who (laneDie n) = true ∧ cfgBad s n v = false ∧
      laneOn (s.lane n) = false) ∧
    (∃ s : State, ∃ who i, ∃ v : Word, who.ok = true ∧ i < 64 ∧ portReach s who (i / 32) = true ∧ wf v 18 2 ≠ 3 ∧ wf v 18 2 ≠ 0 ∧
      wf (s.input i).win0.reg 0 20 ≠ wf (w32 (wf v 0 24)) 0 20 ∧ wf (w32 (wf v 0 24)) 18 2 ≠ 0) ∧
    (∃ s : State, ∃ who m w, who.ok = true ∧ m < 128 ∧ portReach s who (m / 64) = true ∧ w < 7) ∧
    (∃ s : State, ∃ who m, ∃ v : Word, ∃ b, who.ok = true ∧ m < 128 ∧ portReach s who (m / 64) = true ∧
      b = ((List.range 7).map (fun i => match tget none (meterStaged s m) i with | some w => leBytes 4 w.toNat | none => sub (match (s.meter m).next with | some b => b | none => sub (s.meter m).settings 0 32) (4 * i) 4)).flatten ++ leBytes 4 v.toNat ∧
      settingsOk (m / 64) b = true) ∧
    (∃ s : State, ∃ m, m < 128 ∧ dieUp s (m / 64) = true) :=
  ⟨⟨live, .steward 1, 383, 0x80000001, by decide⟩,
   ⟨live, .fn 0, 63, 0x40001, by decide⟩,
   ⟨live, .fn 0, 127, 6, by decide⟩,
   ⟨live, .fn 0, 127, 0, _, by decide, by decide, by decide, rfl, by decide⟩,
   ⟨live, 127, by decide⟩⟩

theorem witness_ControlBitsTimersAndCalibration :
    (∃ s : State, ∃ who c, who.ok = true ∧ c < 4096 ∧ portReach s who (chordDie c) = true ∧ (s.chord c).st = .spent ∧ isStandby s c = false) ∧
    (∃ s : State, ∃ c, c < 4096 ∧ dieUp s (chordDie c) = true) ∧
    (∃ s : State, ∃ r, r < 8 ∧ dieUp s (r / 4) = true) ∧
    (∃ s : State, ∃ d, d < 2 ∧ dieUp s d = true ∧ (s.die d).bbx.frozen = false) ∧
    (∃ s : State, ∃ d, d < 2 ∧ dieUp s d = true ∧ (s.die d).bbx.restored = false) ∧
    (∃ s : State, ∃ who t, who.ok = true ∧ t < 32 ∧ portReach s who (t / 16) = true ∧ (s.timer t).period ≠ 0) ∧
    (∃ s : State, ∃ t, t < 32 ∧ dieUp s (t / 16) = true) ∧
    (∃ s : State, ∃ t, t < 32 ∧ (s.timer t).run = true ∧ (s.timer t).left = 0 ∧ (s.timer t).periodic = true) ∧
    (∃ s : State, ∃ t, t < 32 ∧ (s.timer t).run = true ∧ (s.timer t).left = 0 ∧ (s.timer t).periodic = false) ∧
    (∃ s : State, ∃ d, d < 2 ∧ dieUp s d = true) ∧
    (∃ s : State, ∃ d, ∃ codes : List (Code × Code), d < 2 ∧ (s.die d).calBusy = true ∧ (s.die d).calEnd ≤ s.edges ∧ codes.length = 4) :=
  ⟨⟨live.modChord 4095 (fun x => { x with st := .spent }), .fn 0, 4095, by decide⟩,
   ⟨live, 4095, by decide⟩,
   ⟨live, 7, by decide⟩,
   ⟨live, 1, by decide⟩,
   ⟨live, 1, by decide⟩,
   ⟨live.modTimer 31 (fun x => { x with period := 1 }), .steward 1, 31, by decide⟩,
   ⟨live, 31, by decide⟩,
   ⟨live.modTimer 31 (fun x => { x with run := true, periodic := true }), 31, by decide⟩,
   ⟨live.modTimer 31 (fun x => { x with run := true }), 31, by decide⟩,
   ⟨live, 1, by decide⟩,
   ⟨live.modDie 1 (fun x => { x with calBusy := true }), 1, List.replicate 4 (4095, 0), by decide⟩⟩

theorem witness_UnitAndRegionResets :
    (∃ s : State, ∃ who d n, who.ok = true ∧ d < 2 ∧ portReach s who d = true ∧ n < 384 ∧ laneDie n = d ∧ (s.lane n).unit = .inService) ∧
    (∃ s : State, ∃ who d c, who.ok = true ∧ d < 2 ∧ portReach s who d = true ∧ c < 32 ∧ c / 16 = d ∧ (s.cluster c).engineUnit = .inService) ∧
    (∃ s : State, ∃ who d n, who.ok = true ∧ d < 2 ∧ portReach s who d = true ∧ n < 2048 ∧ slotDie n = d ∧ (s.slot n).unit = .inService) ∧
    (∃ s : State, ∃ who d n, who.ok = true ∧ d < 2 ∧ portReach s who d = true ∧ n < 128 ∧ n / 64 = d ∧ (s.xfr n).unit = .inService) ∧
    (∃ s : State, ∃ who d m, who.ok = true ∧ d < 2 ∧ portReach s who d = true ∧ m < 128 ∧ m / 64 = d ∧ (s.meter m).unit = .inService) ∧
    (∃ s : State, ∃ who d r, who.ok = true ∧ d < 2 ∧ portReach s who d = true ∧ r < 8 ∧ r / 4 = d ∧ (s.region r).spareUnit = .inService ∧
      (s.region r).spareBad = false) ∧
    (∃ s : State, ∃ who d c, who.ok = true ∧ d < 2 ∧ portReach s who d = true ∧ c < 4096 ∧ chordDie c = d ∧ (s.chord c).unit = .inService) ∧
    (∃ s : State, ∃ n, n < 2048 ∧ (s.slot n).unit = .resetting ∧ (s.slot n).st = .free) ∧
    (∃ s : State, ∃ n, n < 128 ∧ (s.xfr n).unit = .resetting) ∧
    (∃ s : State, ∃ n, n < 128 ∧ (s.meter n).unit = .resetting ∧ (s.meter n).resetPending = false) ∧
    (∃ s : State, ∃ c, c < 4096 ∧ (s.chord c).unit = .resetting) ∧
    (∃ s : State, ∃ who d q, who.ok = true ∧ d < 2 ∧ q < 4 ∧ portReach s who d = true ∧ (s.region (4 * d + q)).inReset = false) ∧
    (∃ s : State, ∃ d, d < 2 ∧ portReach s (.steward d) d = true ∧ (s.pkg.split && s.pkg.custody != d) = false) :=
  ⟨⟨live, .fn 0, 1, 383, by decide⟩,
   ⟨live, .fn 0, 1, 31, by decide⟩,
   ⟨live, .steward 1, 1, 2047, by decide⟩,
   ⟨live, .fn 0, 1, 127, by decide⟩,
   ⟨live, .fn 0, 1, 127, by decide⟩,
   ⟨live, .fn 0, 1, 7, by decide⟩,
   ⟨live, .fn 0, 1, 4095, by decide⟩,
   ⟨live.modSlot 2047 (fun x => { x with unit := .resetting }), 2047, by decide⟩,
   ⟨live.modXfr 127 (fun x => { x with unit := .resetting }), 127, by decide⟩,
   ⟨live.modMeter 127 (fun x => { x with unit := .resetting }), 127, by decide⟩,
   ⟨live.modChord 4095 (fun x => { x with unit := .resetting }), 4095, by decide⟩,
   ⟨live, .fn 0, 1, 3, by decide⟩,
   ⟨live, 1, by decide⟩⟩

theorem witness_ChannelsAndBus :
    (∃ s : State, ∃ u who ch, who.ok = true ∧ ch < 128 ∧ portReach s who (ch / 64) = true ∧ (s.xfr ch).st ≠ .running ∧
      xfrOn (s.xfr ch).cfg = true ∧ xfrDirect (s.xfr ch).cfg = true ∧ (s.xfr ch).unit = .inService ∧ xfrStartFail s ch = (none, u)) ∧
    (∃ s : State, ∃ ch, ch < 128 ∧ dieUp s (ch / 64) = true ∧ (s.xfr ch).st = .running) ∧
    (∃ s : State, ∃ u v ch, ∃ bs : List Byte, let x := s.xfr ch; ch < 128 ∧ regionRuns s (ch / 16) = true ∧ (s.xfr ch).st = .running ∧
      xfrStream (s.xfr ch).cfg = false ∧ (s.xfr ch).done.toNat < (s.xfr ch).count.toNat ∧
      crossesDown s ch (x.src.toNat + x.done.toNat) (xfrParty s ch).fn = false ∧
      crossesDown s ch (x.dst.toNat + x.done.toNat) (xfrParty s ch).fn = false ∧
      rawRead s (xfrParty s ch) (x.src.toNat + x.done.toNat) (min 256 (x.count.toNat - x.done.toNat)) = (.ok bs, u) ∧
      rawWrite portPw u (xfrParty s ch) (x.dst.toNat + x.done.toNat) bs .data false = (none, v)) ∧
    (∃ s : State, ∃ ch, ch < 128 ∧ regionRuns s (ch / 16) = true ∧ (s.xfr ch).st = .running ∧ (s.xfr ch).done = (s.xfr ch).count ∧
      xfrStore (s.xfr ch).cfg = false ∧ xfrWrap (s.xfr ch).cfg = false) ∧
    (∃ s : State, ∃ r reqs, r < 8 ∧ regionRuns s r = true ∧ arbOk reqs = true) :=
  ⟨⟨live.modXfr 127 (fun x => { x with count := 8, src := 0x8000, dst := 0x9000, cfg := 0x80000001 }), _, .fn 0, 127, by decide, by decide,
    by decide, by decide, by decide, by decide, by decide, eq_pair (by decide)⟩,
   ⟨live.modXfr 127 (fun x => { x with st := .running }), 127, by decide⟩,
   ⟨live.modXfr 127 (fun x => { x with st := .running, count := 8, src := 0x8000, dst := 0x9000, cfg := 0x80000001 }), _, _, 127, zeros 8,
     by decide, by decide, by decide, by decide, by decide, by decide, by decide, eq_pair (by decide), eq_pair (by decide)⟩,
   ⟨live.modXfr 127 (fun x => { x with st := .running, count := 8, done := 8, cfg := 0x80000001 }), 127, by decide⟩,
   ⟨live, 7, [⟨23, 8, true⟩], by decide⟩⟩

theorem witness_InputsComparatorsAndThermometers :
    (∃ s : State, ∃ n pinB lvl samples phase t, n < 384 ∧ dieUp s (laneDie n) = true ∧ ballLanes s n = [n] ∧
      filterAccepts (pinFilter s n phase) samples = true ∧ s.turned.any (fun t => t.vertex = 2 * n + b2n pinB && !t.inv) = false ∧
      t = s.modLane n (fun l => busSeen s.edges pinB (if pinB then { l with levelB := lvl } else { l with levelA := lvl }))) ∧
    (∃ s : State, ∃ i lvl samples t, i < 32 ∧ dieUp s (i / 16) = true ∧ wf (tget 0 s.fvCfg i) 4 4 ≠ 0 ∧
      filterAccepts (wf (tget 0 s.fvCfg i) 4 4) samples = true ∧ s.turned.any (fun t => t.vertex = 768 + i && !t.inv) = false ∧
      lvl ≠ wb (tget 0 s.fvCfg i) 0 ∧ t = { s with fvRaw := tset false s.fvRaw i lvl }) ∧
    (∃ s : State, ∃ i k code samples, i < 64 ∧ k < 2 ∧ dieUp s (i / 32) = true ∧ (winOfInput (s.input i) k).hold = none ∧
      windowMet (winOfInput (s.input i) k) code ≠ (winOfInput (s.input i) k).level ∧
      filterAccepts (wf (winOfInput (s.input i) k).reg 20 4) samples = true) ∧
    (∃ s : State, ∃ i k h, i < 64 ∧ k < 2 ∧ dieUp s (i / 32) = true ∧ (winOfInput (s.input i) k).hold = some h ∧ h ≤ s.edges) ∧
    (∃ s : State, ∃ d, d < 2 ∧ dieUp s d = true) :=
  ⟨⟨live, 383, true, true, 10, false, _, by decide, by decide, by decide, by decide, by decide, rfl⟩,
   ⟨{ live with fvCfg := [(31, 0x10)] }, 31, true, 1, _, by decide, by decide, by decide, by decide, by decide, by decide, rfl⟩,
   ⟨live.modInput 63 (fun x => { x with win1 := { reg := 0x4000F } }), 63, 1, 16, 1, by decide⟩,
   ⟨live.modInput 63 (fun x => { x with win1 := { hold := some 10 } }), 63, 1, 10, by decide⟩,
   ⟨live, 1, by decide⟩⟩

theorem witness_ChordsFireAndLeadSegmentsRun :
    (∃ s : State, ∃ c, c < 4096 ∧ dieUp s (chordDie c) = true ∧ (s.chord c).matched ≠ none) ∧
    (∃ s : State, ∃ c m, c < 4096 ∧ dieUp s (chordDie c) = true ∧ (s.chord c).matched = some m ∧ (s.chord c).st = .armed ∧
      hasStandby s c = false ∧ recClaims (s.chord c).record = [] ∧ recChain (s.chord c).record ≠ 0) ∧
    (∃ s : State, ∃ c, c < 4096 ∧ dieUp s (chordDie c) = true ∧ (s.chord c).st = .holdoff ∧
      (s.chord c).launch + recHoldoff (s.chord c).record ≤ s.edges) ∧
    (∃ s : State, ∃ n x m pinB, n < 384 ∧ launcherRuns s n = true ∧ (s.lane n).lead = some x ∧ x.frame = false ∧ x.closed = false ∧
      x.pulse = none ∧ x.due ≤ s.edges ∧ x.stroke < strokeCount x.param.toNat ∧ leadPin n (strokePin x.seg x.stroke) = (m, pinB) ∧
      strokeAction x.seg x.stroke = 0) ∧
    (∃ s : State, ∃ n x m pinB, n < 384 ∧ launcherRuns s n = true ∧ (s.lane n).lead = some x ∧ x.frame = false ∧ x.closed = false ∧
      x.pulse = none ∧ x.due ≤ s.edges ∧ x.stroke < strokeCount x.param.toNat ∧ leadPin n (strokePin x.seg x.stroke) = (m, pinB) ∧
      strokeAction x.seg x.stroke = 1) ∧
    (∃ s : State, ∃ n x m pinB, n < 384 ∧ launcherRuns s n = true ∧ (s.lane n).lead = some x ∧ x.frame = false ∧ x.closed = false ∧
      x.pulse = none ∧ x.due ≤ s.edges ∧ x.stroke < strokeCount x.param.toNat ∧ leadPin n (strokePin x.seg x.stroke) = (m, pinB) ∧
      strokeAction x.seg x.stroke = 2) ∧
    (∃ s : State, ∃ n x m pinB, n < 384 ∧ launcherRuns s n = true ∧ (s.lane n).lead = some x ∧ x.frame = false ∧ x.closed = false ∧
      x.pulse = none ∧ x.due ≤ s.edges ∧ x.stroke < strokeCount x.param.toNat ∧ leadPin n (strokePin x.seg x.stroke) = (m, pinB) ∧
      3 ≤ strokeAction x.seg x.stroke) ∧
    (∃ s : State, ∃ n x u, n < 384 ∧ launcherRuns s n = true ∧ (s.lane n).lead = some x ∧ x.pulse = some u ∧ u.until_ ≤ s.edges) ∧
    (∃ s : State, ∃ n x from_ b, n < 384 ∧ launcherRuns s n = true ∧ (s.lane n).lead = some x ∧ x.frame = true ∧ x.closed = false ∧ x.half ≠ 0 ∧
      from_ = x.launch + fld x.param.toNat 12 4 ∧ x.begun = false ∧ s.edges = from_ ∧ x.due ≤ s.edges ∧ fld x.param.toNat 0 8 ≠ 0 ∧
      (bytesBits (wb (s.lane n).frmCfg 9) x.seg).head? = some b) ∧
    (∃ s : State, ∃ n x from_, n < 384 ∧ launcherRuns s n = true ∧ (s.lane n).lead = some x ∧ x.frame = true ∧ x.closed = false ∧ x.half ≠ 0 ∧
      from_ = x.launch + fld x.param.toNat 12 4 ∧ x.begun = true ∧ x.due = from_ + 2 * x.half * (fld x.param.toNat 0 8 + fld x.param.toNat 8 4) ∧
      x.due ≤ s.edges) :=
  ⟨⟨live.modChord 4095 (fun x => { x with st := .armed, matched := some ⟨9, 0⟩, record := record0 }), 4095, by decide +kernel⟩,
   ⟨live.modChord 4095 (fun x => { x with st := .armed, matched := some ⟨9, 0⟩, record := record0 }), 4095, ⟨9, 0⟩, by decide +kernel⟩,
   ⟨live.modChord 4095 (fun x => { x with st := .holdoff, matched := some ⟨9, 0⟩, record := record0 }), 4095, by decide +kernel⟩,
   ⟨led (lead0 false false 0 none), 0, lead0 false false 0 none, 0, false, by decide, by decide, by decide, by decide, by decide, by decide,
     by decide, by decide, eq_pair (by decide), by decide⟩,
   ⟨led (lead0 false false 1 none), 0, lead0 false false 1 none, 0, false, by decide, by decide, by decide, by decide, by decide, by decide,
     by decide, by decide, eq_pair (by decide), by decide⟩,
   ⟨led (lead0 false false 2 none), 0, lead0 false false 2 none, 0, false, by decide, by decide, by decide, by decide, by decide, by decide,
     by decide, by decide, eq_pair (by decide), by decide⟩,
   ⟨led (lead0 false false 3 none), 0, lead0 false false 3 none, 0, false, by decide, by decide, by decide, by decide, by decide, by decide,
     by decide, by decide, eq_pair (by decide), by decide⟩,
   ⟨led (lead0 false false 3 (some ⟨0, some .low, 9⟩)), 0, lead0 false false 3 (some ⟨0, some .low, 9⟩), ⟨0, some .low, 9⟩, by decide⟩,
   ⟨led { lead0 true false 0 none with launch := 199999999, param := 0x1001, due := 9 }, 0,
     { lead0 true false 0 none with launch := 199999999, param := 0x1001, due := 9 }, _, false, by decide, by decide, by decide, by decide,
     by decide, by decide, rfl, by decide⟩,
   ⟨(led { lead0 true true 0 none with launch := 199999999, param := 0x1001, due := 200000004 }) |> (fun s => { s with edges := 200000004 }), 0,
     { lead0 true true 0 none with launch := 199999999, param := 0x1001, due := 200000004 }, 200000000, by decide⟩⟩

theorem witness_ConversionsAndMeters :
    (∃ s : State, ∃ i, i < 64 ∧ dieUp s (i / 32) = true ∧ (s.die (i / 32)).meterRun = true ∧ (s.die (i / 32)).calBusy = false ∧
      lastSample s i ≠ none ∧ (s.input i).sampled ≠ lastSample s i) ∧
    (∃ s : State, ∃ m d, m < 128 ∧ d = m / 64 ∧ dieUp s d = true ∧ slotMay s m = true) :=
  ⟨⟨{ live with pilot := 1000 }, 63, by decide⟩,
   ⟨(({ live with pilot := 1000 }).modDie 0 (fun x => { x with meterPass := 1 })).modDie 1 (fun x => { x with meterNext := 63 }), 127, 1, by decide⟩⟩

theorem witness_BusDevicesTachometersAndPwm :
    (∃ s : State, ∃ n, n < 384 ∧ laneHears s n = true ∧ (personality (s.lane n) = 3 ∨ personality (s.lane n) = 4) ∧ wb (s.lane n).opt 5 = true ∧
      ((s.lane n).txn = none ∨ (s.lane n).begun = false) ∧ (s.lane n).held = none ∧ (s.lane n).lead = none ∧ wb (s.lane n).notify 7 = false) ∧
    (∃ s : State, ∃ n, ∃ address : BitVec 7, n < 384 ∧ laneHears s n = true ∧ personality (s.lane n) = 5 ∧ wb (s.lane n).opt 7 = true ∧
      (s.lane n).devices.contains (w8 address.toNat) = true ∧ (s.lane n).ibi.length < 16) ∧
    (∃ s : State, ∃ n, ∃ address : BitVec 7, n < 384 ∧ laneHears s n = true ∧ personality (s.lane n) = 5 ∧
      (wb (s.lane n).opt 7 = false ∨ (s.lane n).devices.contains (w8 address.toNat) = false ∨ 16 ≤ (s.lane n).ibi.length)) ∧
    (∃ s : State, ∃ n byte parity stop, n < 384 ∧ laneHears s n = true ∧ personality (s.lane n) = 8 ∧ (s.lane n).txn = none ∧
      wb (s.lane n).opt 4 = true ∧ (s.lane n).rx.length < fifoBytes (s.lane n).fifo ∧ uartBad (s.lane n) byte parity stop = false) ∧
    (∃ s : State, ∃ n, n < 384 ∧ tachOn s n = true) ∧
    (∃ s : State, ∃ n, n < 384 ∧ tachOn s n = true ∧
      (match (s.lane n).tachLast with | some t => max t (s.lane n).tachFrom | none => (s.lane n).tachFrom) + 100000 * (if wf (s.lane n).opt 8 16 = 0 then 1000 else wf (s.lane n).opt 8 16) ≤ s.edges) ∧
    (∃ s : State, ∃ n, n < 384 ∧ laneOn (s.lane n) = true ∧ personality (s.lane n) = 0xA ∧ governor s n = n ∧ dieUp s (laneDieNow s n) = true) ∧
    (∃ s : State, ∃ n, ∃ off : Byte, ∃ f, n < 384 ∧ off.toNat < 0x40 ∧ laneHears s n = true ∧ f = wf (s.lane n).tgt 8 3 ∧
      mailboxReach s (.oob n) f = true ∧ (laneDie n = fnPort f ∨ arcUp s = true)) ∧
    (∃ s : State, ∃ n, ∃ to_ : BitVec 7, n < 384 ∧ laneHears s n = true ∧ personality (s.lane n) = 0xE ∧ wf (s.lane n).tgt 0 7 = to_.toNat) :=
  ⟨⟨(laneAs 3).modLane 0 (fun l => { l with opt := 0x20 }), 0, by decide⟩,
   ⟨(laneAs 5).modLane 0 (fun l => { l with opt := 0x80, devices := [8] }), 0, 8, by decide⟩,
   ⟨(laneAs 5), 0, 8, by decide⟩,
   ⟨(laneAs 8).modLane 0 (fun l => { l with opt := 0x10 }), 0, 9, true, true, by decide⟩,
   ⟨laneAs 0xB, 0, by decide⟩,
   ⟨(laneAs 0xB).modLane 0 (fun l => { l with opt := 0x100, tachLast := some 9 }), 0, by decide⟩,
   ⟨laneAs 0xA, 0, by decide⟩,
   ⟨live.modLane 239 (fun l => { l with cfg := 0x8000000D, tgt := 0x700 }), 239, 0x3F, 7, by decide⟩,
   ⟨live.modLane 239 (fun l => { l with cfg := 0x8000000E, tgt := 9 }), 239, 9, by decide⟩⟩

theorem witness_BankEngineAndLaneFaults :
    (∃ s : State, ∃ c v inRange, c < 32 ∧ dieUp s (c / 16) = true ∧ (s.cluster c).bankFault = false ∧ (v ≠ (s.cluster c).volts ∨ inRange = false)) ∧
    (∃ s : State, ∃ c u q, c < 32 ∧ dieUp s (c / 16) = true ∧ (s.cluster c).engine = .own ∧
      u = unitError ((s.modCluster c (fun x => { x with engineUnit := .spared })).modRegion (c / 4) (fun x => { x with enginesFailed := x.enginesFailed + 1 })) (c / 16) 2 c (laneUsers s (rangeL (12 * c) 12)) ∧
      spareChoice u (c / 4) = some q) ∧
    (∃ s : State, ∃ c u, c < 32 ∧ dieUp s (c / 16) = true ∧ (s.cluster c).engine = .own ∧
      u = unitError ((s.modCluster c (fun x => { x with engineUnit := .spared })).modRegion (c / 4) (fun x => { x with enginesFailed := x.enginesFailed + 1 })) (c / 16) 2 c (laneUsers s (rangeL (12 * c) 12)) ∧
      spareChoice u (c / 4) = none) ∧
    (∃ s : State, ∃ c q, c < 32 ∧ dieUp s (c / 16) = true ∧ (s.cluster c).engine = .failed ∧ spareOf s c = some q) ∧
    (∃ s : State, ∃ n u, n < 384 ∧ dieUp s (laneDie n) = true ∧ (s.lane n).unit = .inService ∧
      ((twinOf s n).valid && (twinOf s n).shadow && (twinOf s n).failedOver) = false ∧ u = unitError s (laneDie n) 1 n (laneUsers s [n]) ∧
      twinReady u n = true) ∧
    (∃ s : State, ∃ n u, n < 384 ∧ dieUp s (laneDie n) = true ∧ (s.lane n).unit = .inService ∧
      ((twinOf s n).valid && (twinOf s n).shadow && (twinOf s n).failedOver) = false ∧ u = unitError s (laneDie n) 1 n (laneUsers s [n]) ∧
      twinReady u n = false) :=
  ⟨⟨live, 31, 3, false, by decide⟩,
   ⟨live, 31, _, 7, by decide, by decide, by decide, rfl, by decide⟩,
   ⟨(live.modRegion 7 (fun x => { x with spareFor := some 30 })).modRegion 6 (fun x => { x with spareFor := some 24 }), 31, _, by decide,
     by decide, by decide, rfl, by decide⟩,
   ⟨(live.modRegion 6 (fun x => { x with spareFor := some 31 })).modCluster 31 (fun x => { x with engine := .failed }), 31, 6, by decide⟩,
   ⟨twinned, 0, _, by decide, by decide, by decide, by decide, rfl, by decide⟩,
   ⟨twinned, 383, _, by decide, by decide, by decide, by decide, rfl, by decide⟩⟩

theorem witness_MismatchesAndFatalFaults :
    (∃ s : State, ∃ d, d < 2 ∧ pairRuns s d = true ∧ (s.die d).stw.repeats < 3) ∧
    (∃ s : State, ∃ d, d < 2 ∧ pairRuns s d = true ∧ 3 ≤ (s.die d).stw.repeats) ∧
    (∃ s : State, ∃ d, d < 2 ∧ dieUp s d = true ∧ (s.die d).stw.pair = 1) ∧
    (∃ s : State, ∃ d, d < 2 ∧ dieUp s d = true) ∧
    (∃ s : State, ∃ d, d < 2 ∧ (s.die d).alive = true ∧ (s.die d).stewardClock = true ∧ (s.die d).stw.pair = 0) ∧
    (∃ s : State, ∃ d, dieUp s d = true) :=
  ⟨⟨live, 1, by decide⟩,
   ⟨live.modDie 1 (fun x => { x with stw := { x.stw with repeats := 3 } }), 1, by decide⟩,
   ⟨live.modDie 1 (fun x => { x with stw := { x.stw with pair := 1 } }), 1, by decide⟩,
   ⟨live, 1, by decide⟩,
   ⟨live, 1, by decide⟩,
   ⟨live, 1, by decide⟩⟩

theorem witness_HalvesAreLostAndRejoin :
    (∃ s : State, ∃ d, d < 2 ∧ dieUp s d = true ∧ (s.die d).monitor = true ∧ (s.die d).wireFault = false ∧ isLost s (1 - d) = false ∧
      (arcUp s && (s.die d).arc.sideband) = true) ∧
    (∃ s : State, ∃ d, d < 2 ∧ dieUp s d = true ∧ (s.die d).monitor = true ∧ (s.die d).wireFault = false ∧ isLost s (1 - d) = false ∧
      (arcUp s && (s.die d).arc.sideband) = false) ∧
    (∃ s : State, ∃ d, d < 2 ∧ dieUp s d = true ∧ (s.die (1 - d)).alive = true ∧ (s.die d).seen = false) ∧
    (∃ s : State, ∃ d t, d < 2 ∧ dieUp s d = true ∧ (s.die d).startAt = some t ∧ (s.die d).monitor = false ∧ isLost s (1 - d) = false ∧
      t + 50000000 ≤ s.edges) ∧
    (∃ s : State, s.pkg.split = false ∧ arcUp s = false ∧ dieUp s 0 = true ∧ dieUp s 1 = true ∧ s.die0.alive = true ∧ s.die1.alive = true ∧
      s.die0.arc.downAt + 200 ≤ s.edges) ∧
    (∃ s : State, ∃ l, l < 32 ∧ isLost s (l / 16) = true ∧ (s.cluster l).adopted = false ∧ regionRuns s ((l ^^^ 16) / 4) = true) ∧
    (∃ s : State, ∃ d t, d < 2 ∧ isLost s d = true ∧ (s.die d).lostAt = some t ∧ s.pkg.holdLost = false ∧ t + 1000000 ≤ s.edges) ∧
    (∃ s : State, ∃ d, d < 2 ∧ isLost s d = true ∧ (s.die d).lostAt = none ∧ (s.die d).alive = true ∧ (s.die (1 - d)).seen = true ∧ arcUp s = true) :=
  ⟨⟨live, 1, by decide⟩,
   ⟨apart, 1, by decide⟩,
   ⟨live.modDie 1 (fun x => { x with seen := false }), 1, by decide⟩,
   ⟨live.modDie 1 (fun x => { x with startAt := some 9, monitor := false }), 1, 9, by decide⟩,
   ⟨apart, by decide⟩,
   ⟨halfGone id, 31, by decide⟩,
   ⟨halfGone (fun x => { x with lostAt := some 9 }), 1, 9, by decide⟩,
   ⟨halfGone id, 1, by decide⟩⟩

theorem witness_ArcCarriesFlits :
    (∃ s : State, ∃ d ch, d < 2 ∧ arcUp s = true ∧ (s.die d).arc.link = 2 ∧ arcFull (s.die d).arc ch = false) ∧
    (∃ s : State, ∃ d ch, d < 2 ∧ arcUp s = true ∧ (s.die d).arc.link = 2 ∧ arcFull (s.die d).arc ch = false ∧ (s.die d).arc.bad ≠ 3) ∧
    (∃ s : State, ∃ d ch, d < 2 ∧ arcUp s = true ∧ (s.die d).arc.link = 2 ∧ arcFull (s.die d).arc ch = false ∧ (s.die d).arc.bad = 3) ∧
    (∃ s : State, ∃ cause : ArcCause, arcUp s = true ∧ (s.die0.arc.link ≠ 3 ∨ s.die1.arc.link ≠ 3 ∨ (cause ≠ .silence ∧ cause ≠ .replayLimit))) ∧
    (∃ s : State, arcUp s = false ∧ halfLives s 0 = true ∧ halfLives s 1 = true ∧ s.die0.arc.tryAt ≤ s.edges ∧ s.die1.arc.tryAt ≤ s.edges) :=
  ⟨⟨live.modDie 1 (fun x => { x with arc := { link := 2, bad := 0 } }), 1, .completion, by decide⟩,
   ⟨live.modDie 1 (fun x => { x with arc := { link := 2, bad := 2 } }), 1, .posted, by decide⟩,
   ⟨live.modDie 1 (fun x => { x with arc := { link := 2, bad := 3 } }), 1, .nonPosted, by decide⟩,
   ⟨live, .otherReset, by decide⟩,
   ⟨apart, by decide⟩⟩

theorem witness_ScrubReadsFindErrors :
    (∃ s : State, ∃ k i w, memOk k i = true ∧ scrubs s k i = true ∧ w < memWords k ∧ s.ecc.contains (k, i, w) = false) ∧
    (∃ s : State, ∃ k i w, memOk k i = true ∧ scrubs s k i = true ∧ w < memWords k ∧ s.ecc.contains (k, i, w) = false ∧
      ((∀ e ∈ (s.die (memDie k i)).scrubCe, ¬(e.1 = k ∧ e.2.1 = i ∧ e.2.2 / 64 = w / 64 ∧ e.2.2 ≤ w)))) ∧
    (∃ s : State, ∃ k i w v, memOk k i = true ∧ scrubs s k i = true ∧ w < memWords k ∧ s.ecc.contains (k, i, w) = false ∧ v ≤ w ∧
      v / 64 = w / 64 ∧ (k, i, v) ∈ (s.die (memDie k i)).scrubCe) ∧
    (∃ s : State, ∃ k i w, ∃ t : State, ∃ u, memOk k i = true ∧ scrubs s k i = true ∧ w < memWords k ∧ s.ecc.contains (k, i, w) = false ∧
      u = t.modDie (memDie k i) (fun x => { x with scrubCe := x.scrubCe.filter (fun e => !(e.1 = k && e.2.1 = i && e.2.2 / 64 = w / 64)) }) ∧
      rowsLeft u k i ≠ 0) ∧
    (∃ s : State, ∃ k i w, ∃ t : State, ∃ u, memOk k i = true ∧ scrubs s k i = true ∧ w < memWords k ∧ s.ecc.contains (k, i, w) = false ∧
      u = t.modDie (memDie k i) (fun x => { x with scrubCe := x.scrubCe.filter (fun e => !(e.1 = k && e.2.1 = i && e.2.2 / 64 = w / 64)) }) ∧
      rowsLeft u k i = 0) :=
  ⟨⟨live, .chordStore, 1, 32767, by decide⟩,
   ⟨live, .regionSram, 7, 262143, by decide⟩,
   ⟨live.modDie 1 (fun x => { x with scrubCe := [(.regionSram, 7, 262080)] }), .regionSram, 7, 262143, 262080, by decide⟩,
   ⟨live, .clusterMem, 31, 12287, live, _, by decide, by decide, by decide, by decide, rfl, by decide⟩,
   ⟨live.modDie 1 (fun x => { x with bbx := { x.bbx with rows := 0 } }), .blackBox, 1, 16383,
     live.modDie 1 (fun x => { x with bbx := { x.bbx with rows := 0 } }), _, by decide, by decide, by decide, by decide, rfl, by decide⟩⟩

theorem witness_FunctionAndPortResets :
    (∃ s : State, s.pkg.warmAt = none) ∧
    (∃ s : State, ∃ p, p < 2 ∧ dieUp s p = true ∧ portInReset s p = false) ∧
    (∃ s : State, ∃ f, f < 8 ∧ dieUp s (fnPort f) = true ∧ fnPresent s f = true ∧ portInReset s (fnPort f) = false ∧ (s.func f).inReset = false ∧
      s.pkg.reloading ≠ some (fnPort f)) ∧
    (∃ s : State, ∃ f, f < 8 ∧ dieUp s (fnPort f) = true ∧ fnPresent s f = true ∧ portInReset s (fnPort f) = false ∧ (s.func f).inReset = false ∧
      s.pkg.reloading = some (fnPort f)) ∧
    (∃ s : State, ∃ p, p < 2 ∧ dieUp s p = true) :=
  ⟨⟨live, by decide⟩,
   ⟨live, 1, by decide⟩,
   ⟨live, 7, by decide⟩,
   ⟨live.modPkg (fun p => { p with reloading := some 1 }), 7, by decide⟩,
   ⟨live, 1, by decide⟩⟩

theorem witness_HalvesBoot :
    (Config.payloadHashOk image0 = true → ∃ s : State, ∃ d src image readOk img, d < 2 ∧ halfLives s d = true ∧ (s.die d).boot.state.toNat < 2 ∧
      (bootList s d)[(s.die d).boot.attempts.toNat]? = some src ∧ img = (if src = 4 then s.die0.boot.image else image) ∧ (((d = 1 ∧
      arcUp s = true) → s.die0.boot.state = 2)) ∧ imageReject (s.die d).otp img (readOk || src = 4) = 0 ∧ (((d = 1 ∧ arcUp s = true ∧
      src ≠ 4) → imageVersion img = s.die0.boot.version.toNat))) ∧
    (∃ s : State, ∃ d src image readOk img, d < 2 ∧ halfLives s d = true ∧ (s.die d).boot.state.toNat < 2 ∧
      (bootList s d)[(s.die d).boot.attempts.toNat]? = some src ∧ img = (if src = 4 then s.die0.boot.image else image) ∧ (((d = 1 ∧
      arcUp s = true) → s.die0.boot.state = 2)) ∧ imageReject (s.die d).otp img (readOk || src = 4) ≠ 0) ∧
    (∃ s : State, ∃ d, d < 2 ∧ halfLives s d = true ∧ (s.die d).boot.state.toNat < 2 ∧ (bootList s d)[(s.die d).boot.attempts.toNat]? = none) ∧
    (∃ s : State, ∃ d, d < 2 ∧ (s.die d).boot.state = 3) ∧
    (∃ s : State, ∃ d, d < 2 ∧ dieUp s d = true ∧ (s.die d).boot.state = 2 ∧ (s.func (4 * d)).ready = false) :=
  ⟨fun h => ⟨live.modDie 0 (fun x => { x with boot := {} }), 0, 0, image0, true, image0, by decide, by decide, by decide, by decide, by decide,
    by decide, image0_ok (by decide) h, by decide⟩,
   ⟨live.modDie 0 (fun x => { x with boot := {} }), 0, 0, [], true, [], by decide⟩,
   ⟨apart.modDie 1 (fun x => { x with boot := {} }), 1, by decide⟩,
   ⟨live.modDie 1 (fun x => { x with boot := { state := 3 } }), 1, by decide⟩,
   ⟨live.modFunc 4 (fun x => { x with ready := false }), 1, by decide⟩⟩

theorem witness_ClockAndPowerFailures :
    (∃ s : State, ∃ n u v, 2 ≤ n ∧ s.pkg.pfail = false ∧ dieUp u 0 = true ∧ dieUp v 1 = true ∧
      u = vertexSet portPw (s.modPkg (fun p => { p with pfail := true })) 1494 true ∧
      v = (let t := bbxFreezeBox (bbxRecord u 0 0x15 0 []) 0 3; if maySave t 0 then t.modDie 0 (fun x => { x with bbx := { x.bbx with saving := true } }) else t)) ∧
    (∃ s : State, ∃ d, d < 2 ∧ (s.die d).bbx.saving = true ∧ halfLives s d = true) :=
  ⟨⟨live, 2, _, _, by decide, by decide, by decide, by decide, rfl, rfl⟩,
   ⟨live.modDie 1 (fun x => { x with bbx := { saving := true } }), 1, by decide⟩⟩

theorem witness_RegionsAndDiesSleepAndWake :
    (∃ s : State, ∃ r, r < 8 ∧ (s.region r).power = .run ∧ dieUp s (r / 4) = true ∧ regionBusy s r = false ∧
      sleepDue s (s.region r).idleSince 0 = true) ∧
    (∃ s : State, ∃ r, r < 8 ∧ dieUp s (r / 4) = true ∧ regionBusy s r = false ∧ (s.region r).power = .doze ∧
      sleepDue s (s.region r).idleSince 16 = true) ∧
    (∃ s : State, ∃ r, r < 8 ∧ dieUp s (r / 4) = true ∧ regionBusy s r = false ∧ (s.region r).power = .gated ∧ regionMayOff s r = true) ∧
    (∃ s : State, ∃ d, d < 2 ∧ dieUp s d = true ∧ (s.die d).power = .run ∧ ((∀ r ∈ rangeL (4 * d) 4, (s.region r).power ≠ .run)) ∧
      stewardIdle s d = true ∧ sleepDue s (s.die d).idleSince 0 = true) ∧
    (∃ s : State, ∃ d, d < 2 ∧ dieUp s d = true ∧ (s.die d).power = .doze ∧ wb s.pkg.sleep (32 + d) = true ∧ ((∀ r ∈ rangeL (4 * d) 4,
      (s.region r).power = .gated ∨ (s.region r).power = .off)) ∧ (s.die d).bbx.saving = false ∧ s.pkg.reloading ≠ some d ∧
      (wb s.pkg.sleep 34 = false ∨ metersOn s d = 0) ∧ sleepDue s (s.die d).idleSince 16 = true) ∧
    (∃ s : State, ∃ d ticks access, d < 2 ∧ dieUp s d = true ∧ (access || dieAsked s d) = true ∧
      ((s.die d).power = .doze ∨ (s.die d).power = .rest) ∧ ticks ≤ dieWakeBound (s.die d).power) ∧
    (∃ s : State, ∃ r ticks access, r < 8 ∧ dieUp s (r / 4) = true ∧ (s.region r).power ≠ .run ∧
      (access || (s.region r).asked || regionBusy s r) = true ∧ ticks ≤ regionWakeBound (s.region r).power) :=
  ⟨⟨live, 7, by decide⟩,
   ⟨(live.modPkg (fun p => { p with sleep := 0xC03E8000A })).modRegion 7 (fun x => { x with power := .doze }), 7, by decide⟩,
   ⟨(live.modPkg (fun p => { p with sleep := 0xC03E8000A })).modRegion 7 (fun x => { x with power := .gated }), 7, by decide⟩,
   ⟨{ live with regions := (List.range 8).map (fun r => (r, { power := .gated })) }, 1, by decide⟩,
   ⟨(({ live with regions := (List.range 8).map (fun r => (r, { power := .gated })) }).modPkg (fun p => { p with sleep := 0x203E8000A })).modDie 1 (fun x => { x with power := .doze }),
     1, by decide⟩,
   ⟨live.modDie 1 (fun x => { x with power := .rest }), 1, 1000, true, by decide⟩,
   ⟨live.modRegion 7 (fun x => { x with power := .off }), 7, 10000, true, by decide⟩⟩

theorem witness_StewardIssuesBundles :
    (∃ s : State, ∃ d c t b ms, d < 2 ∧ Issues s d c t b ms ∧ doubleWrite ms = false ∧
      ms.any (fun m => portDenied c m.src || portDenied c m.dst) = false ∧ ms.any (moveHeld (coreOf t d).units) = false) ∧
    (∃ s : State, ∃ d c t b ms, d < 2 ∧ Issues s d c t b ms ∧ doubleWrite ms = false ∧
      ms.any (fun m => portDenied c m.src || portDenied c m.dst) = false ∧ ms.any (moveHeld (coreOf t d).units) = true) ∧
    (∃ s : State, ∃ d c t b ms, d < 2 ∧ Issues s d c t b ms ∧ doubleWrite ms = true) ∧
    (∃ s : State, ∃ d c t b ms, d < 2 ∧ Issues s d c t b ms ∧ doubleWrite ms = false ∧
      ms.any (fun m => portDenied c m.src || portDenied c m.dst) = true) ∧
    (∃ s : State, ∃ d c t, d < 2 ∧ Fetching s d c t ∧ isUser c = true ∧ (ctxOf t d c).codeLen ≤ (ctxOf t d c).pc) ∧
    (∃ s : State, ∃ d c, d < 2 ∧ pairRuns s d = true ∧ c = (coreOf (schedule s d) d).running ∧ (c = 15 ∨ (isUser c = true ∧
      1024 ≤ ((schedule s d).die d).stw.slice ∧ (ctxOf (schedule s d) d c).delay = none))) :=
  ⟨⟨issuing (bundleOf (mv false 0xFFF 1 0xFFF) (mv true 0x800 0 0)), 0, 2, _, (bundleOf (mv false 0xFFF 1 0xFFF) (mv true 0x800 0 0)), _,
    by decide, ⟨⟨by decide, by decide, by decide, by decide, by decide, rfl⟩, by decide, by decide, by decide, by decide, by decide, rfl⟩,
    by decide⟩,
   ⟨issuing (bundleOf (mv false 0x3C2 1 0) (mv true 0x800 0 0)) (fun u => { u with lspBusy := true }), 0, 2, _,
     (bundleOf (mv false 0x3C2 1 0) (mv true 0x800 0 0)), _, by decide, ⟨⟨by decide, by decide, by decide, by decide, by decide, rfl⟩, by decide,
     by decide, by decide, by decide, by decide, rfl⟩, by decide⟩,
   ⟨issuing (bundleOf (mv false 0x800 1 0) (mv false 0x800 1 0)), 0, 2, _, (bundleOf (mv false 0x800 1 0) (mv false 0x800 1 0)), _, by decide,
     ⟨⟨by decide, by decide, by decide, by decide, by decide, rfl⟩, by decide, by decide, by decide, by decide, by decide, rfl⟩, by decide⟩,
   ⟨issuing (bundleOf (mv false 0x483 1 0) (mv true 0x800 0 0)), 0, 2, _, (bundleOf (mv false 0x483 1 0) (mv true 0x800 0 0)), _, by decide,
     ⟨⟨by decide, by decide, by decide, by decide, by decide, rfl⟩, by decide, by decide, by decide, by decide, by decide, rfl⟩, by decide⟩,
   ⟨slicing 1023, 0, 2, _, by decide, ⟨by decide, by decide, by decide, by decide, by decide, rfl⟩, by decide⟩,
   ⟨slicing 1024, 0, 2, by decide⟩⟩

theorem witness_StewardUnitsCompute :
    (∃ x : Stw, x.bpbar = false) :=
  ⟨({} : Stw), by decide⟩

theorem witness_StewardContextsGoOn :
    (∃ s : State, ∃ d k x, d < 2 ∧ pairRuns s d = true ∧ intOf (s.target (8 + d)) = true ∧ (s.die d).stw.emask = false ∧
      (coreOf s d).running ≠ 1 ∧ k = coreOf (schedule s d) d ∧ x = ctxOf (schedule s d) d k.running ∧ (k.running = 15 ∨ (x.delay = none ∧
      x.squash = false))) ∧
    (∃ s : State, ∃ d, d < 2 ∧ pairRuns s d = true ∧ isUser (coreOf s d).running = true ∧ 1024 ≤ (s.die d).stw.slice ∧
      (ctxOf s d (coreOf s d).running).delay = none) ∧
    (∃ s : State, ∃ d c v r lim k b, d < 2 ∧ pairRuns s d = true ∧ (c = 0 ∨ isUser c = true) ∧ (ctxOf s d c).st = .waiting ∧
      (ctxOf s d c).wait = some { vertex := some v, regTick := r, deadline := lim, toContinue := k } ∧ (ctxOf s d c).sysR = some b) ∧
    (∃ s : State, ∃ d c v r lim k t, d < 2 ∧ pairRuns s d = true ∧ (c = 0 ∨ isUser c = true) ∧ (ctxOf s d c).st = .waiting ∧
      (ctxOf s d c).wait = some { vertex := some v, regTick := r, deadline := lim, toContinue := k } ∧ (ctxOf s d c).sysR = none ∧ lim = some t ∧
      t < s.edges) ∧
    (∃ s : State, ∃ d t, d < 2 ∧ pairRuns s d = true ∧ (coreOf s d).units.lspBusy = true ∧
      t = modUnits s d (fun u => { u with lspBusy := false, r := ((coreOf s d).units.due.filter (fun e => e.1 = 7)).foldl (fun t e => tset 0 t e.1 e.2.2) u.r, due := u.due.filter (fun e => e.1 != 7) })) ∧
    (∃ s : State, ∃ d t, d < 2 ∧ pairRuns s d = true ∧ wb (coreOf s d).units.ctl 5 = true ∧
      streamWords d (coreOf s d).running (coreOf s d).units.cnt.toNat s = (none, t)) ∧
    (∃ s : State, ∃ d f t, d < 2 ∧ pairRuns s d = true ∧ wb (coreOf s d).units.ctl 5 = true ∧
      streamWords d (coreOf s d).running (coreOf s d).units.cnt.toNat s = (some f, t)) :=
  ⟨⟨ringed 8 (fun x => { x with ready := true }), 0, _, _, by decide, by decide, by decide, by decide, by decide, rfl, rfl, by decide⟩,
   ⟨slicing 1024, 0, by decide⟩,
   ⟨slicing 0 (fun x => { x with st := .waiting, wait := some ⟨some 1056, 0, none, false⟩, sysR := some 1 }), 0, 2, 1056, 0, none, false, 1,
     by decide⟩,
   ⟨slicing 0 (fun x => { x with st := .waiting, wait := some ⟨some 1056, 0, some 9, false⟩ }), 0, 2, 1056, 0, some 9, false, 9, by decide⟩,
   ⟨issuing 0 (fun u => { u with lspBusy := true }), 0, _, by decide, by decide, by decide, rfl⟩,
   ⟨modCore (issuing 0 (fun u => { u with ctl := 0x20, cnt := 1 })) 0 (fun k => { k with ctxs := [], running := 0 }), 0, _, by decide, by decide,
     by decide, eq_pair (by decide)⟩,
   ⟨modCore (issuing 0 (fun u => { u with ctl := 0x20, cnt := 1, o1 := [(9, 2)] })) 0 (fun k => { k with ctxs := [], running := 0 }), 0, 0x09, _,
     by decide, by decide, by decide, eq_pair (by decide)⟩⟩

theorem witness_HeartbeatsAndDelays :
    (∃ s : State, ∃ p, p < 4 ∧ portAlive s p = true ∧ ((s.port p).st = .up ∨ (s.port p).st = .standoff)) ∧
    (∃ s : State, ∃ p root hops attached epoch rootSeq takesUs t, p < 4 ∧ portAlive s p = true ∧
      ((s.port p).st = .up ∨ (s.port p).st = .standoff) ∧
      t = retree portPw (hearRoot (s.modPort p (fun x => { x with peerRoot := root, peerHops := hops, peerAttached := attached, peerTakes := takesUs, peerSeq := rootSeq, seqAt := if seqLater rootSeq x.peerSeq then s.edges else x.seqAt })) root epoch) ∧
      upPort t = some p ∧ attached = true) ∧
    (∃ s : State, ∃ p root hops attached epoch rootSeq takesUs t, p < 4 ∧ portAlive s p = true ∧
      ((s.port p).st = .up ∨ (s.port p).st = .standoff) ∧
      t = retree portPw (hearRoot (s.modPort p (fun x => { x with peerRoot := root, peerHops := hops, peerAttached := attached, peerTakes := takesUs, peerSeq := rootSeq, seqAt := if seqLater rootSeq x.peerSeq then s.edges else x.seqAt })) root epoch) ∧
      (upPort t ≠ some p ∨ attached = false)) ∧
    (∃ s : State, ∃ p, p < 4 ∧ portAlive s p = true ∧ (s.port p).st = .up) :=
  ⟨⟨linked .standoff 0, 3, by decide⟩,
   ⟨linked .up 5, 3, 0, 0, true, 1, 1, false, _, by decide, by decide, by decide, rfl, by decide⟩,
   ⟨linked .up 5, 3, 0, 0, false, 1, 1, false, _, by decide, by decide, by decide, rfl, by decide⟩,
   ⟨linked .up 5, 3, by decide⟩⟩

theorem witness_BlocksAndAcks :
    (∃ s : State, ∃ p b t, TakesBlock s p b t) ∧
    (∃ s : State, ∃ p dest b t, TakesBlock s p b t ∧ dest ≠ s.pkg.sysId) ∧
    (∃ s : State, ∃ p dest b t, TakesBlock s p b t ∧ dest ≠ 31 ∧ dest = s.pkg.sysId) ∧
    (∃ s : State, ∃ p dest b t, TakesBlock s p b t ∧ dest ≠ 31 ∧ dest ≠ s.pkg.sysId) ∧
    (∃ s : State, ∃ p, p < 4 ∧ portAlive s p = true ∧ ((s.port p).st = .up ∨ ((s.port p).st = .training ∧ (s.port p).locked = true))) ∧
    (∃ s : State, ∃ p, p < 4 ∧ portAlive s p = true ∧ (s.port p).st = .up) :=
  ⟨⟨linked .up 5, 3, 0, _, ⟨by decide, by decide, by decide, by decide, rfl⟩⟩,
   ⟨linked .up 5, 3, 6, 0, _, ⟨by decide, by decide, by decide, by decide, rfl⟩, by decide⟩,
   ⟨linked .up 5, 3, 5, 0, _, ⟨by decide, by decide, by decide, by decide, rfl⟩, by decide⟩,
   ⟨linked .up 5, 3, 6, 0, _, ⟨by decide, by decide, by decide, by decide, rfl⟩, by decide⟩,
   ⟨linked .up 5, 3, by decide⟩,
   ⟨linked .up 5, 3, by decide⟩⟩

theorem witness_PacketsArriveOrGoOn :
    (∃ s : State, ∃ p, ∃ h : PktHdr, ∃ t, ∃ cmd : RemoteCmd, TakesPacket s p h (.laneCmd h.src h.dest cmd) t ∧ h.dest = s.pkg.sysId) ∧
    (∃ s : State, ∃ p, ∃ h : PktHdr, ∃ t, ∃ cmd : RemoteCmd, TakesPacket s p h (.laneCmd h.src h.dest cmd) t ∧ h.dest ≠ s.pkg.sysId) ∧
    (∃ s : State, ∃ p, ∃ h : PktHdr, ∃ t, ∃ lane : Nat, ∃ slot : Nat, ∃ data : List Byte,
      TakesPacket s p h (.laneData h.src h.dest lane slot data) t ∧ h.dest = s.pkg.sysId) ∧
    (∃ s : State, ∃ p, ∃ h : PktHdr, ∃ t, ∃ lane : Nat, ∃ slot : Nat, ∃ data : List Byte,
      TakesPacket s p h (.laneData h.src h.dest lane slot data) t ∧ h.dest ≠ s.pkg.sysId) ∧
    (∃ s : State, ∃ p, ∃ h : PktHdr, ∃ t, ∃ slot : Nat, ∃ tag : Half, ∃ gen : BitVec 4, ∃ res : Option RemoteRes, ∃ data : List Byte,
      TakesPacket s p h (.laneResult h.src h.dest slot tag gen res data) t ∧ h.dest = s.pkg.sysId) ∧
    (∃ s : State, ∃ p, ∃ h : PktHdr, ∃ t, ∃ slot : Nat, ∃ tag : Half, ∃ gen : BitVec 4, ∃ res : Option RemoteRes, ∃ data : List Byte,
      TakesPacket s p h (.laneResult h.src h.dest slot tag gen res data) t ∧ h.dest ≠ s.pkg.sysId) ∧
    (∃ s : State, ∃ p, ∃ h : PktHdr, ∃ t, ∃ index : BitVec 7, ∃ v : BitVec 11, ∃ on : Bool,
      TakesPacket s p h (.subscribe h.src h.dest index v on) t ∧ h.dest = s.pkg.sysId) ∧
    (∃ s : State, ∃ p, ∃ h : PktHdr, ∃ t, ∃ index : BitVec 7, ∃ v : BitVec 11, ∃ on : Bool,
      TakesPacket s p h (.subscribe h.src h.dest index v on) t ∧ h.dest ≠ s.pkg.sysId) ∧
    (∃ s : State, ∃ p, ∃ h : PktHdr, p < 4 ∧ portAlive s p = true ∧ (s.port p).st = .up ∧ h.crcOk = true ∧ h.seq = (s.port p).rxSeq ∧
      rxRoom s p 0 = true) ∧
    (∃ s : State, ∃ p, ∃ h : PktHdr, p < 4 ∧ portAlive s p = true ∧ (s.port p).st = .standoff ∧ h.crcOk = true ∧ h.seq = (s.port p).rxSeq ∧
      rxRoom s p 0 = true ∧ s.pkg.sysId = 0 ∧ s.pkg.standoff = true) :=
  ⟨⟨linked .up 5, 3, hdr 5, _, { fn := 0, slot := 0, tag := 0, gen := 0, lane := 0, code := 1, count := 0, target := 0 }, ⟨by decide, by decide,
    by decide, by decide, by decide, by decide, rfl⟩, by decide⟩,
   ⟨linked .up 5, 3, hdr 6, _, { fn := 0, slot := 0, tag := 0, gen := 0, lane := 0, code := 1, count := 0, target := 0 }, ⟨by decide, by decide,
     by decide, by decide, by decide, by decide, rfl⟩, by decide⟩,
   ⟨linked .up 5, 3, hdr 5, _, 0, 0, [], ⟨by decide, by decide, by decide, by decide, by decide, by decide, rfl⟩, by decide⟩,
   ⟨linked .up 5, 3, hdr 6, _, 0, 0, [], ⟨by decide, by decide, by decide, by decide, by decide, by decide, rfl⟩, by decide⟩,
   ⟨linked .up 5, 3, hdr 5, _, 0, 0, 0, none, [], ⟨by decide, by decide, by decide, by decide, by decide, by decide, rfl⟩, by decide⟩,
   ⟨linked .up 5, 3, hdr 6, _, 0, 0, 0, none, [], ⟨by decide, by decide, by decide, by decide, by decide, by decide, rfl⟩, by decide⟩,
   ⟨linked .up 5, 3, hdr 5, _, 0, 0, true, ⟨by decide, by decide, by decide, by decide, by decide, by decide, rfl⟩, by decide⟩,
   ⟨linked .up 5, 3, hdr 6, _, 0, 0, true, ⟨by decide, by decide, by decide, by decide, by decide, by decide, rfl⟩, by decide⟩,
   ⟨linked .up 5, 3, hdr 5, by decide⟩,
   ⟨(linked .standoff 0).modPkg (fun p => { p with standoff := true }), 3, hdr 0, by decide⟩⟩

theorem witness_PortsTrainAndPathsEnd :
    (∃ s : State, ∃ p, p < 4 ∧ portAlive s p = true ∧ (s.port p).st = .training ∧ (s.port p).locked = false) ∧
    (∃ s : State, ∃ p serial, p < 4 ∧ portAlive s p = true ∧ (s.port p).st = .training ∧ (s.port p).locked = true ∧
      ((s.port p).peerSerial = none ∨ (s.port p).peerSerial = some serial)) ∧
    (∃ s : State, ∃ p, p < 4 ∧ portAlive s p = true ∧ portEnabled s p = true ∧ (s.port p).st = .down ∧ (s.port p).downAt + 1000 ≤ s.edges) ∧
    (∃ s : State, ∃ p, ∃ why : PortLoss, p < 4 ∧ dieUp s (p / 2) = true ∧ ((s.port p).st = .up ∨ (s.port p).st = .standoff) ∧
      ((why = .nakLimit → 4 ≤ (s.port p).naks)) ∧ ((why = .refclkLost → (s.die (p / 2)).refLost = true))) ∧
    (∃ s : State, ∃ p, upPort s = some p ∧ isRoot s = false ∧ s.pkg.rootSeqAt + 3000 ≤ s.edges) ∧
    (∃ s : State, apexGone s = true ∧ (dieUp s 0 = true ∨ dieUp s 1 = true)) :=
  ⟨⟨linked .training 5, 3, by decide⟩,
   ⟨linked .training 5 (fun x => { x with locked := true, peerSerial := some 9 }), 3, 9, by decide⟩,
   ⟨linked .down 5, 3, by decide⟩,
   ⟨linked .up 5 (fun x => { x with naks := 4 }), 3, .nakLimit, by decide⟩,
   ⟨linked .up 5 (fun x => { x with role := .upstream }), 3, by decide⟩,
   ⟨(linked .training 5).modPkg (fun p => { p with standby := true }), by decide⟩⟩

theorem witness_StepTakesTheFrontCommand :
    (∃ s : State, ∃ c rest, s.pending = c :: rest) :=
  ⟨{ live with pending := [.pcieLinkUp 1] }, .pcieLinkUp 1, [], by decide⟩

theorem witness_TheQueueIsServedInOrder :
    (∃ s : State, s.pending = []) ∧
    (∃ s : State, ∃ c rest, s.pending = c :: rest) :=
  ⟨⟨live, by decide⟩,
   ⟨{ live with pending := [.pcieLinkUp 1] }, .pcieLinkUp 1, [], by decide⟩⟩

theorem witness_OnlyColdResetChangesIdentity :
    (∃ k g0 g1, ∃ s : State, ∃ t, Identity k g0 g1 s ∧ step s = .next t ∧ ((∀ c rest, s.pending = c :: rest → isColdReset c = false))) ∧
    (∃ n k g0 g1, ∃ s : State, ∃ t, Identity k g0 g1 s ∧ Runs n s t ∧ ((∀ c ∈ s.pending.take n, isColdReset c = false))) :=
  ⟨⟨⟨0, false, false, false⟩, 0, 0, { live with pending := [.pcieLinkUp 1] }, _, by unfold Identity; decide, rfl, by intro c rest h; cases h; rfl⟩,
   ⟨1, ⟨0, false, false, false⟩, 0, 0, { live with pending := [.pcieLinkUp 1] }, _, by unfold Identity; decide, ⟨_, rfl, rfl⟩, by decide⟩⟩

theorem witness_PostedWritesLand :
    (∃ s : State, memWf s.hostMem = true) ∧
    (∃ s : State, ∃ f, (s.func f).inReset = true) ∧
    (∃ s : State, ∃ f holds, (s.func f).inReset = false ∧ (holds = false ∨ masters s f = true)) ∧
    (∃ s : State, ∃ f, (s.func f).inReset = false ∧ masters s f = false) ∧
    (∃ s : State, ∃ f g, (s.func f).inReset = false ∧ masters s f = false ∧ g ≠ f) :=
  ⟨⟨{ live with hostMem := [(9, 1)] }, by decide⟩,
   ⟨live.modFunc 7 (fun x => { x with inReset := true }), 7, by decide⟩,
   ⟨live, 7, true, by decide⟩,
   ⟨State.reset, 7, by decide⟩,
   ⟨State.reset, 7, 0, by decide⟩⟩

theorem witness_ReportsChangeOnlyReports :
    (∃ s : State, ∃ d e, (s.die d).bbx.frozen = true ∧ d < 2 ∧ e < 2) :=
  ⟨live.modDie 1 (fun x => { x with bbx := { frozen := true } }), 1, 1, by decide⟩

theorem witness_BytesAreLittleEndian :
    (∃ bs : List Byte, ∃ i, i + 8 ≤ bs.length) :=
  ⟨zeros 8, 0, by decide⟩

theorem witness_TilesHaveOnChipAddresses :
    (∃ r t, r < 8 ∧ t < 512) :=
  ⟨7, 511, by decide⟩

theorem witness_NewerEpochIsFollowed :
    (∃ s : State, ∃ epoch : Byte, s.pkg.sysId ≠ 0 ∧ epochNewer epoch s.pkg.epoch = true) ∧
    (∃ s : State, ∃ root : BitVec 5, s.pkg.sysId ≠ 0 ∧ root.toNat < s.pkg.root.toNat) ∧
    (∃ s : State, ∃ root : BitVec 5, ∃ epoch : Byte, s.pkg.sysId ≠ 0 ∧ epochNewer epoch s.pkg.epoch = false ∧ ¬(epoch = s.pkg.epoch ∧
      root.toNat < s.pkg.root.toNat)) ∧
    (∃ s : State, ∃ epoch : Byte, s.pkg.sysId = 0 ∧ epochNewer epoch s.pkg.epoch = true) ∧
    (∃ s : State, ∃ epoch : Byte, ∃ p, s.pkg.sysId = 0 ∧ epochNewer epoch s.pkg.epoch = true ∧ p < 4 ∧ (s.port p).st = .up) :=
  ⟨⟨live.modPkg (fun p => { p with sysId := 5, epoch := 255, root := 4 }), 126, by decide⟩,
   ⟨live.modPkg (fun p => { p with sysId := 5, epoch := 0, root := 4 }), 3, by decide⟩,
   ⟨live.modPkg (fun p => { p with sysId := 5, epoch := 0, root := 4 }), 4, 0, by decide⟩,
   ⟨live, 127, by decide⟩,
   ⟨linked .up 0, 1, 3, by decide⟩⟩

end Sys2Proof.Tests
end

section
/-! SUPPORT. Proofs about bytes and fields: little-endian spelling (R7), and the bits of a word. -/

namespace Sys2Proof.Machine

/-! ### Little-endian bytes -/

@[simp] theorem leBytes_length (n v : Nat) : (leBytes n v).length = n := by
  induction n generalizing v with
  | zero => rfl
  | succ n ih => simp [leBytes, ih]

/-- The bytes of a number spell its remainder by the field's range. -/
theorem leNat_leBytes (n v : Nat) : leNat (leBytes n v) = v % 256 ^ n := by
  induction n generalizing v with
  | zero => simp [leBytes, leNat, Nat.mod_one]
  | succ n ih => rw [leBytes, leNat, ih, BitVec.toNat_ofNat, Nat.pow_succ' (n := n), Nat.mod_mul]

/-- The number that bytes spell is spelt by those bytes. -/
theorem leBytes_leNat (bs : List Byte) : leBytes bs.length (leNat bs) = bs := by
  induction bs with
  | nil => rfl
  | cons b bs ih =>
    have low : BitVec.ofNat 8 (b.toNat + 256 * leNat bs) = b := by
      apply BitVec.eq_of_toNat_eq; rw [BitVec.toNat_ofNat]; omega
    have rest : (b.toNat + 256 * leNat bs) / 256 = leNat bs := by omega
    rw [List.length_cons, leBytes, leNat, low, rest, ih]

/-- Byte `i` of a number is its digit `i` to base 256. -/
theorem leBytes_getD_toNat (n v i : Nat) (h : i < n) : ((leBytes n v).getD i 0).toNat = v / 256 ^ i % 256 := by
  induction n generalizing v i with
  | zero => omega
  | succ n ih =>
    cases i with
    | zero => simp [leBytes]
    | succ i => rw [leBytes, List.getD_cons_succ, ih _ _ (by omega), Nat.div_div_eq_div_mul, Nat.pow_succ']

theorem leNat_append (as bs : List Byte) : leNat (as ++ bs) = leNat as + 256 ^ as.length * leNat bs := by
  induction as with
  | nil => simp [leNat]
  | cons a as ih => rw [List.cons_append, leNat, leNat, ih, List.length_cons, Nat.pow_succ', Nat.mul_add, ← Nat.mul_assoc, Nat.add_assoc]

/-! ### Fields of a structure -/

/-- A field that lies within the bytes needs no padding. -/
theorem sub_eq_take_drop (bs : List Byte) (i n : Nat) (h : i + n ≤ bs.length) : sub bs i n = (bs.drop i).take n := by
  rw [sub, Nat.sub_eq_zero_of_le (by omega : n ≤ bs.length - i), List.replicate_zero, List.append_nil]

/-- A whole list of bytes is its own field. -/
theorem sub_zero_of_length (bs : List Byte) (n : Nat) (h : bs.length = n) : sub bs 0 n = bs := by
  rw [sub_eq_take_drop _ _ _ (by omega), List.drop_zero, ← h, List.take_length]

/-- A field of `m + n` bytes is its first `m` bytes and, above them, the `n` bytes that follow. -/
theorem leNat_sub_add (bs : List Byte) (i m n : Nat) (h : i + (m + n) ≤ bs.length) :
    leNat (sub bs i (m + n)) = leNat (sub bs i m) + 256 ^ m * leNat (sub bs (i + m) n) := by
  rw [sub_eq_take_drop _ _ _ h, sub_eq_take_drop _ _ _ (by omega), sub_eq_take_drop _ _ _ (by omega), List.take_add, leNat_append,
    List.drop_drop, List.length_take_of_le (by rw [List.length_drop]; omega)]

/-- A field of one byte is that byte. -/
theorem leNat_sub_one (bs : List Byte) (i : Nat) (h : i < bs.length) : leNat (sub bs i 1) = u8 bs i := by
  rw [sub_eq_take_drop _ _ _ h, List.drop_eq_getElem_cons h, List.take_succ_cons, List.take_zero, leNat, leNat, Nat.mul_zero,
    Nat.add_zero, u8, List.getD_eq_getElem?_getD, List.getElem?_eq_getElem h, Option.getD_some]

/-- A field's bytes are in increasing order of weight, at every width the structures use. -/
theorem u64_eq (bs : List Byte) (i : Nat) (h : i + 8 ≤ bs.length) : u64 bs i = u32 bs i + 2 ^ 32 * u32 bs (i + 4) :=
  leNat_sub_add bs i 4 4 h

theorem u32_eq (bs : List Byte) (i : Nat) (h : i + 4 ≤ bs.length) : u32 bs i = u16 bs i + 2 ^ 16 * u16 bs (i + 2) :=
  leNat_sub_add bs i 2 2 h

theorem u16_eq (bs : List Byte) (i : Nat) (h : i + 2 ≤ bs.length) : u16 bs i = u8 bs i + 2 ^ 8 * u8 bs (i + 1) := by
  rw [← leNat_sub_one bs i (by omega), ← leNat_sub_one bs (i + 1) (by omega)]
  exact leNat_sub_add bs i 1 1 h

/-- Settles O57: each field is split at its middle, down to single bytes. -/
theorem bytesAreLittleEndian : Obligations.BytesAreLittleEndian :=
  ⟨leNat_leBytes, leBytes_leNat, leBytes_getD_toNat,
   fun bs i h => ⟨u64_eq bs i h, u32_eq bs i (by omega), u16_eq bs i (by omega)⟩⟩

/-! ### Bits of a word -/

theorem bit_eq_testBit (v i : Nat) : bit v i = v.testBit i := by
  rw [bit, Nat.testBit_eq_decide_div_mod_eq]; rfl

theorem wb_eq_getLsbD (w : BitVec n) (i : Nat) : wb w i = w.getLsbD i := bit_eq_testBit w.toNat i

/-- A write keeps the bits that its mask has. -/
theorem wb_masked (v : Word) (m i : Nat) (h : i < 32) : wb (w32 (v.toNat &&& m)) i = (wb v i && m.testBit i) := by
  rw [wb_eq_getLsbD, wb_eq_getLsbD, w32, BitVec.getLsbD_ofNat, Nat.testBit_and, decide_eq_true h, Bool.true_and]
  rfl

end Sys2Proof.Machine
end

section
/-! SUPPORT. Proofs about the register mailbox, the doorbells, the switch of the admin queue and bus mastering (R255, R262, R263, R265,
R270). -/

namespace Sys2Proof.Machine

/-! ### The commands as runs -/

theorem exec_mailboxRequest (s : State) (who : Who) (f : Nat) (v : Word) (hw : who.ok = true) (hf : f < 8)
    (hr : mailboxReach s who f = true) :
    exec (.mailboxRequest who f v) s = .next (settle s (mailboxWrite s who f 15 (leBytes 4 v.toNat))) := by
  refine (run_eq (.mailboxRequest who f v) s _ (Bool.and_eq_true_iff.2 ⟨hw, decide_eq_true hf⟩)).trans ?_
  rw [if_pos hr]

theorem exec_doorbell (s : State) (f q : Nat) (v : Word) (hf : f < 8) (hq : q < 128) (hd : dieUp s (fnPort f) = true)
    (hp : fnPresent s f = true) : exec (.doorbell f q v) s = .next (settle s (doorbellWrite s f q v)) := by
  refine (run_eq (.doorbell f q v) s _ (Bool.and_eq_true_iff.2 ⟨decide_eq_true hf, decide_eq_true hq⟩)).trans ?_
  rw [if_pos (by rw [hd, hp]; rfl)]

theorem adminWrite_eq (s : State) (f : Nat) (v : Word) (on : Bool) (hd : dieUp s (fnPort f) = true) (hp : fnPresent s f = true)
    (hv : wb v 0 = on) : adminWrite s f v on = adminCtrlWrite s (.fn f) f v := by
  simp [adminWrite, hd, hp, hv]

theorem exec_adminEnable (s : State) (f : Nat) (v : Word) (hf : f < 8) (hd : dieUp s (fnPort f) = true) (hp : fnPresent s f = true)
    (hv : wb v 0 = true) : exec (.adminEnable f v) s = .next (settle s (adminCtrlWrite s (.fn f) f v)) := by
  refine (run_eq (.adminEnable f v) s (fun s => adminWrite s f v true) (decide_eq_true hf)).trans ?_
  rw [adminWrite_eq s f v true hd hp hv]

theorem exec_adminDisable (s : State) (f : Nat) (v : Word) (hf : f < 8) (hd : dieUp s (fnPort f) = true) (hp : fnPresent s f = true)
    (hv : wb v 0 = false) : exec (.adminDisable f v) s = .next (settle s (adminCtrlWrite s (.fn f) f v)) := by
  refine (run_eq (.adminDisable f v) s (fun s => adminWrite s f v false) (decide_eq_true hf)).trans ?_
  rw [adminWrite_eq s f v false hd hp hv]

theorem exec_busMasterChange (s : State) (f : Nat) (d0 bme : Bool) (bar0 bar2 : Option DWord) (hf : f < 8) :
    exec (.busMasterChange f d0 bme bar0 bar2) s = .next (settle s (busMaster s f d0 bme bar0 bar2)) :=
  run_eq (.busMasterChange f d0 bme bar0 bar2) s (fun s => busMaster s f d0 bme bar0 bar2) (decide_eq_true hf)

/-! ### The mailbox -/

/-- OWN of the mailbox's last dword is bit 31 of the word written. -/
theorem bit_seven_of_top_byte (v : Word) : bit (u8 (leBytes 4 v.toNat) 3) 7 = wb v 31 := by
  rw [u8, leBytes_getD_toNat _ _ _ (by omega), wb, bit, bit]
  congr 1
  omega

/-- Issuing a request (R263): the last dword stands in the mailbox, the request holds what the mailbox then holds, and the half's
firmware is told. -/
theorem mailboxWrite_issues (s : State) (who : Who) (f : Nat) (v : Word) (hr : (s.func f).request = none) (hv : wb v 31 = true) :
    mailboxWrite s who f 15 (leBytes 4 v.toNat) =
      stewardNotice ((mailboxPut s f 0x3C (leBytes 4 v.toNat)).modFunc f (fun x => { x with
        request := some { bytes := mailboxEntry (mailboxBytes (mailboxPut s f 0x3C (leBytes 4 v.toNat)) f), effect := false } }))
        (fnPort f) f 1 := by
  have free : mailboxOwned s f = false := by rw [mailboxOwned, hr]; rfl
  simp [mailboxWrite, free, bit_seven_of_top_byte, hv, sub_zero_of_length]

/-! ### Doorbells -/

/-- A doorbell of a RUNNING queue tells the firmware, and sets the tail unless the index lies outside the ring or, counted from the head,
before the tail: that puts the queue into ERROR. -/
theorem doorbellWrite_running (s : State) (f q : Nat) (v : Word) (h : (s.queue f q).st = .running) :
    doorbellWrite s f q v =
      if 2 ^ (s.queue f q).sizeLog2 ≤ wf v 0 16 ∨
          (wf v 0 16 + 2 ^ (s.queue f q).sizeLog2 - (s.queue f q).head) % 2 ^ (s.queue f q).sizeLog2 <
            ((s.queue f q).tail + 2 ^ (s.queue f q).sizeLog2 - (s.queue f q).head) % 2 ^ (s.queue f q).sizeLog2
      then queueFail (stewardNotice s (fnPort f) f 0) f q 0x04 (s.queue f q).tail
      else (stewardNotice s (fnPort f) f 0).modQueue f q (fun x => { x with tail := wf v 0 16 }) := by
  simp [doorbellWrite, h]

/-- A doorbell of an ABSENT or DESTROYING queue is ignored and logged; its ADDRESS is the BAR0 offset and it gives no notice (log 19, log 70). -/
theorem doorbellWrite_ignored (s : State) (f q : Nat) (v : Word) (h : (s.queue f q).st = .absent ∨ (s.queue f q).st = .destroying) :
    doorbellWrite s f q v = violate s (fnPort f) vRequest (.fn f) (0x1000 + 8 * q) v.toNat 0 := by
  rcases h with h | h <;> simp [doorbellWrite, h]

/-! ### The admin queue -/

/-- FN_ADMIN_CTRL.ENABLE goes from 0 to 1 with a size, a ring and a mirror that are allowed (R265): the queue starts empty. -/
theorem adminCtrlWrite_starts (s : State) (who : Who) (f : Nat) (v : Word) (hv : wb v 0 = true) (lo : 4 ≤ wf v 8 4) (hi : wf v 8 4 ≤ 12)
    (off : wb (s.func f).adminCtrl 0 = false) (ready : (s.func f).ready = true)
    (ring : ringOk s (s.func f).adminBase.toNat (64 * 2 ^ wf v 8 4) = true) (mirror : (s.func f).adminMirror.toNat % 4 = 0) :
    adminCtrlWrite s who f v = adminStarted (s.modFunc f (fun x => { x with adminCtrl := w32 (v.toNat &&& 0xF01) })) f := by
  have on : wb (w32 (v.toNat &&& 0xF01)) 0 = true := by rw [wb_masked _ _ _ (by omega), hv]; decide
  simp [adminCtrlWrite, Nat.not_lt.2 lo, Nat.not_lt.2 hi, off, on, ready, ring, mirror]

/-- ENABLE goes from 1 to 0 and SIZE stays (R265): the queue waits for its idle point, which may be now. -/
theorem adminCtrlWrite_stops (s : State) (who : Who) (f : Nat) (v : Word) (hv : wb v 0 = false) (lo : 4 ≤ wf v 8 4) (hi : wf v 8 4 ≤ 12)
    (on : wb (s.func f).adminCtrl 0 = true) (size : wf (s.func f).adminCtrl 8 4 = wf v 8 4) :
    adminCtrlWrite s who f v = adminStopped (s.modFunc f (fun x => { x with adminNew := some (put x.adminCtrl 0 1 0) })) f := by
  have off : wb (w32 (v.toNat &&& 0xF01)) 0 = false := by rw [wb_masked _ _ _ (by omega), hv]; rfl
  simp [adminCtrlWrite, Nat.not_lt.2 lo, Nat.not_lt.2 hi, on, off, size]

/-- The admin queue that starts takes its ring, mirror and size from the function's registers. -/
theorem adminStarted_modFunc (s : State) (f : Nat) (w : Word) :
    adminStarted (s.modFunc f (fun x => { x with adminCtrl := w })) f =
      mirrorWrite ((s.modFunc f (fun x => { x with adminCtrl := w })).modQueue f 0 (fun _ => {
        st := .running, ring := (s.func f).adminBase, mirror := (s.func f).adminMirror, sizeLog2 := wf w 8 4 })) f 0 false := by
  simp [adminStarted]

/-! ### Bus mastering -/

@[simp] theorem portUp_modFunc (s : State) (f p : Nat) (g : Func → Func) : portUp (s.modFunc f g) p = portUp s p := rfl

/-- The configuration of function `f` takes force; held writes leave when it then masters the bus on a link that is up (R255). -/
theorem busMaster_eq (s t : State) (f : Nat) (d0 bme : Bool) (bar0 bar2 : Option DWord)
    (ht : t = s.modFunc f (fun x => { x with d0 := d0, bme := bme, bar0 := bar0, bar2 := if f = 0 then bar2 else none })) :
    busMaster s f d0 bme bar0 bar2 =
      if d0 && bme && portUp s (fnPort f) then (s.func f).held.foldl postOut (t.modFunc f (fun x => { x with held := [] })) else t := by
  subst ht
  simp [busMaster, masters]

/-- Settles O19: each command is the run of one write, and each write has its equation above. -/
theorem mailboxesDoorbellsAndAdminQueues : Obligations.MailboxesDoorbellsAndAdminQueues := by
  refine ⟨?mailbox, ?doorbell, ?enable, ?disable, ?busMaster⟩
  case mailbox =>
    intro s who f v t hw hf hr free own ht
    rw [exec_mailboxRequest s who f v hw hf hr, mailboxWrite_issues s who f v free own, ht]
  case doorbell =>
    intro s f q v hf hq hd hp
    refine ⟨fun run inRing forward => ?_, fun run bad => ?_, fun st => ?_⟩ <;> rw [exec_doorbell s f q v hf hq hd hp]
    · rw [doorbellWrite_running s f q v run, if_neg (by omega)]
    · rw [doorbellWrite_running s f q v run, if_pos bad]
    · rw [doorbellWrite_ignored s f q v st]
  case enable =>
    intro s f v hf hd hp hv lo hi off ready ring mirror
    rw [exec_adminEnable s f v hf hd hp hv, adminCtrlWrite_starts s _ f v hv lo hi off ready ring mirror, adminStarted_modFunc]
  case disable =>
    intro s f v hf hd hp hv lo hi on size
    rw [exec_adminDisable s f v hf hd hp hv, adminCtrlWrite_stops s _ f v hv lo hi on size]
  case busMaster =>
    intro s f d0 bme bar0 bar2 hf t ht
    refine ⟨fun up => ?_, fun down => ?_⟩ <;> rw [exec_busMasterChange s f d0 bme bar0 bar2 hf, busMaster_eq s t f d0 bme bar0 bar2 ht]
    · rw [if_pos up]
    · rw [if_neg (by rw [down]; decide)]

end Sys2Proof.Machine
end

section
/-! SUPPORT. Proofs about reads that latch (R59, R251) and about the idle points at which waiting registers come into force (R69, R70). -/

namespace Sys2Proof.Machine

/-! ### The commands as runs -/

theorem exec_lowDwordRead (s : State) (who : Who) (bar2 : Bool) (off : Nat) (hw : who.ok = true) (hoff : off < 2 ^ 25) (h4 : off % 4 = 0) :
    exec (.lowDwordRead who bar2 off) s = .next (settle s (accessRead s who bar2 off)) :=
  run_eq (.lowDwordRead who bar2 off) s (fun s => accessRead s who bar2 off)
    (Bool.and_eq_true_iff.2 ⟨Bool.and_eq_true_iff.2 ⟨hw, decide_eq_true hoff⟩, decide_eq_true h4⟩)

theorem exec_snapshotLatchRead (s : State) (m : Nat) (hm : m < 128) (hd : dieUp s (m / 64) = true) :
    exec (.snapshotLatchRead m) s = .next (settle s (portReadEffect s (m / 64) (meterOff m 0x20))) := by
  refine (run_eq (.snapshotLatchRead m) s _ (decide_eq_true hm)).trans ?_
  rw [if_pos hd]

theorem exec_idlePointApply (s : State) (b : IdleBlock) (hb : b.ok = true) :
    exec (.idlePointApply b) s = .next (settle s (idleApply s b)) :=
  run_eq (.idlePointApply b) s (fun s => idleApply s b) hb

/-! ### Reads with an effect -/

/-- An offset of die `d`'s port space within BAR2 (R54). -/
theorem bar2_offset (d off : Nat) (h : off < 0x1000000) :
    (d * 0x1000000 + off) / 0x1000000 = d ∧ (d * 0x1000000 + off) % 0x1000000 = off := by omega

/-- Function 0 over BAR2 and the die's steward read the same port space. -/
theorem accessRead_port (s : State) (who : Who) (d off : Nat) (hoff : off < 0x1000000) (hw : who = .fn 0 ∨ who = .steward d)
    (hr : portReach s who d = true) : accessRead s who true (d * 0x1000000 + off) = portReadEffect s d off := by
  obtain ⟨hdiv, hmod⟩ := bar2_offset d off hoff
  rcases hw with rfl | rfl
  · simp [accessRead, hdiv, hmod, hr]
  · simp [accessRead, hmod, hr]

/-- A read of a wide register's low dword, MTR_SNAP0 apart, latches its high part (R59). -/
theorem portReadEffect_wide (s : State) (d off w : Nat) (hreg : portReg s d off = some (.wide w))
    (hsnap : ¬(0x30000 ≤ off ∧ off < 0x34000 ∧ off % 256 = 0x20)) :
    portReadEffect s d off = s.modDie d (fun x => { x with latches := tset 0 x.latches (off + 4) (w32 (w / 2 ^ 32)) }) := by
  rw [portReadEffect, if_neg (by simpa [and_assoc] using hsnap), hreg]

/-- A read of MTR_SNAP0 latches the meter's snapshot (R251). -/
theorem portReadEffect_snap (s : State) (m : Nat) :
    portReadEffect s (m / 64) (meterOff m 0x20) = s.modMeter m (fun x => { x with latch := snapRead s m }) := by
  have inBlock : 0x30000 ≤ meterOff m 0x20 ∧ meterOff m 0x20 < 0x34000 ∧ meterOff m 0x20 % 256 = 0x20 := by unfold meterOff; omega
  have number : 64 * (m / 64) + (meterOff m 0x20 - 0x30000) / 256 = m := by unfold meterOff; omega
  rw [portReadEffect, if_pos (by simpa [and_assoc] using inBlock), number]

/-! ### Idle points -/

/-- A cluster at its idle point takes its waiting CLU_SCHED. -/
theorem schedApplied_idle (s : State) (c : Nat) (w : Word) (hw : (s.cluster c).schedNew = some w) (hc : clusterIdle s c = true) :
    schedApplied s c = s.modCluster c (fun x => { x with sched := w, schedNew := none }) := by
  simp [schedApplied, hw, hc]

/-- A channel that does not run takes a waiting clear of ENABLE. -/
theorem xfrIdleApply_disable (x : Xfr) (hd : x.disable = true) (hs : x.st ≠ .running) :
    xfrIdleApply x = { x with cfg := put x.cfg 31 1 0, disable := false } := by
  simp [xfrIdleApply, hd, hs]

theorem modXfr_disable (s : State) (n : Nat) (hd : (s.xfr n).disable = true) (hs : (s.xfr n).st ≠ .running) :
    s.modXfr n xfrIdleApply = s.modXfr n (fun x => { x with cfg := put x.cfg 31 1 0, disable := false }) := by
  rw [State.modXfr, xfrIdleApply_disable _ hd hs]; rfl

/-- A source that is neither pending nor in service takes its waiting route, but for ENABLE, and its level is sampled anew. -/
theorem routeApply_idle (s : State) (n : Nat) (r : Word) (hr : (s.source n).next = some r) (hi : sourceIdle (s.source n) = true) :
    routeApply s n =
      sampleLevel (s.modSource n (fun x => { x with route := put r 6 1 (wf (s.source n).route 6 1), next := none })) n := by
  simp only [routeApply, hr, hi]
  exact if_neg (by decide)

/-- A port that is not UP takes its waiting TX_PRESET, and keeps ENABLE. -/
theorem presetApplied_notUp (x : LinkPort) (w : Word) (hw : x.cfgNew = some w) (hu : x.st ≠ .up) :
    presetApplied x = { x with cfg := put w 0 1 (wf x.cfg 0 1), cfgNew := none } := by
  simp [presetApplied, hw, hu]

theorem modPort_preset (s : State) (p : Nat) (w : Word) (hw : (s.port p).cfgNew = some w) (hu : (s.port p).st ≠ .up) :
    s.modPort p presetApplied = s.modPort p (fun x => { x with cfg := put w 0 1 (wf x.cfg 0 1), cfgNew := none }) := by
  rw [State.modPort, presetApplied_notUp _ w hw hu]; rfl

/-- Settles O24: a read is one access of the port space, an idle point the application of one block's waiting registers. -/
theorem readsLatchAndIdlePointsApply : Obligations.ReadsLatchAndIdlePointsApply := by
  refine ⟨?wide, ?snapshot, ?lane, ?cluster, ?adminQueue, ?channel, ?route, ?linkPort⟩
  case wide =>
    intro s who d off w hd hoff h4 hw hr hreg hsnap
    have ok : who.ok = true := by
      rcases hw with rfl | rfl
      · rfl
      · exact decide_eq_true hd
    rw [exec_lowDwordRead s who true _ ok (by omega) (by omega), accessRead_port s who d off (by omega) hw hr,
      portReadEffect_wide s d off w hreg hsnap]
  case snapshot =>
    intro s m hm hd
    rw [exec_snapshotLatchRead s m hm hd, portReadEffect_snap]
  case lane =>
    intro s n hn
    exact exec_idlePointApply s (.lane n) (decide_eq_true hn)
  case cluster =>
    intro s c w hc hw idle
    rw [exec_idlePointApply s (.cluster c) (decide_eq_true hc), idleApply, schedApplied_idle s c w hw idle]
  case adminQueue =>
    intro s f hf
    exact exec_idlePointApply s (.adminQueue f) (decide_eq_true hf)
  case channel =>
    intro s n hn hd hs
    rw [exec_idlePointApply s (.channel n) (decide_eq_true hn), idleApply, modXfr_disable s n hd hs]
  case route =>
    intro s n r lo hi hr idle
    rw [exec_idlePointApply s (.route n) (Bool.and_eq_true_iff.2 ⟨decide_eq_true lo, decide_eq_true hi⟩), idleApply,
      routeApply_idle s n r hr idle]
  case linkPort =>
    intro s p w hp hw hu
    rw [exec_idlePointApply s (.linkPort p) (decide_eq_true hp), idleApply, modPort_preset s p w hw hu]

end Sys2Proof.Machine
end

section
/-! SUPPORT. Proofs about whole and partial register writes (R55, R66, R72, R201, R231, R419), about the window table and its caches
(R57, R64–R68) and about the addresses of tiles (R62). -/

namespace Sys2Proof.Machine

/-! ### The commands as runs -/

theorem exec_registerWrite_dword (s : State) (who : Who) (bar2 : Bool) (off : Nat) (v : Word) (full : Bool) (hw : who.ok = true)
    (hoff : off < 2 ^ 25) (h4 : off % 4 = 0) :
    exec (.registerWrite who bar2 off v none full) s = .next (settle s (accessWrite s who bar2 off v full)) :=
  run_eq (.registerWrite who bar2 off v none full) s (fun s => accessWrites s who bar2 off v none full)
    (Bool.and_eq_true_iff.2 ⟨Bool.and_eq_true_iff.2 ⟨hw, decide_eq_true hoff⟩, decide_eq_true h4⟩)

theorem exec_windowEntryWrite (s : State) (who : Who) (d e first : Nat) (bs : List Byte) (hw : who.ok = true) (hd : d < 2) (he : e < 256)
    (hn : 0 < bs.length) (hl : first + bs.length ≤ 16) (hr : portReach s who d = true) :
    exec (.windowEntryWrite who d e first bs) s = .next (settle s (windowWrite s who d e first bs)) := by
  have ok : (Instr.windowEntryWrite who d e first bs).wf = true := by simp [Instr.wf, hw, hd, he, hn, hl]
  refine (run_eq _ s (fun s => if portReach s who d then windowWrite s who d e first bs
    else splitIgnored s who d (0x1000 + 16 * e + first) (w32 (leNat (bs.take 4)))) ok).trans ?_
  rw [if_pos hr]

theorem exec_windowInvalidate (s : State) (who : Who) (d : Nat) (v : Word) (hw : who.ok = true) (hd : d < 2)
    (hr : portReach s who d = true) : exec (.windowInvalidate who d v) s = .next (settle s (pkgWrite s who d 0x44 v)) := by
  refine (run_eq (.windowInvalidate who d v) s
    (fun s => if portReach s who d then pkgWrite s who d 0x44 v else splitIgnored s who d 0x44 v)
    (Bool.and_eq_true_iff.2 ⟨hw, decide_eq_true hd⟩)).trans ?_
  rw [if_pos hr]

theorem exec_windowCacheDrop (s : State) (r : Nat) (hr : r < 8) : exec (.windowCacheDrop r) s = .next (settle s (windowDrop s r)) :=
  run_eq (.windowCacheDrop r) s (fun s => windowDrop s r) (decide_eq_true hr)

/-! ### Writes of function 0 over BAR2 -/

/-- A whole dword over BAR2 is a write of the port space of the die that its offset names (R54). -/
theorem accessWrite_bar2_full (s : State) (d off : Nat) (v : Word) (hoff : off < 0x1000000) (hr : portReach s (.fn 0) d = true) :
    accessWrite s (.fn 0) true (d * 0x1000000 + off) v true = portWrite s (.fn 0) d off v := by
  obtain ⟨hdiv, hmod⟩ := bar2_offset d off hoff
  simp [accessWrite, hdiv, hmod, hr]

/-- A part of a dword over BAR2 is logged and writes nothing, whatever stands at the offset (R72, log 70). -/
theorem accessWrite_bar2_partial (s : State) (d off : Nat) (v : Word) (hoff : off < 0x1000000) (hr : portReach s (.fn 0) d = true) :
    accessWrite s (.fn 0) true (d * 0x1000000 + off) v false = violate s d vPartialWrite (.fn 0) off v.toNat 0 := by
  obtain ⟨hdiv, hmod⟩ := bar2_offset d off hoff
  simp [accessWrite, hdiv, hmod, hr]

theorem exec_registerWrite_full (s : State) (d off : Nat) (v : Word) (hd : d < 2) (hoff : off < 0x1000000) (h4 : off % 4 = 0)
    (hr : portReach s (.fn 0) d = true) :
    exec (.registerWrite (.fn 0) true (d * 0x1000000 + off) v none true) s = .next (settle s (portWrite s (.fn 0) d off v)) := by
  rw [exec_registerWrite_dword s _ _ _ v true rfl (by omega) (by omega), accessWrite_bar2_full s d off v hoff hr]

theorem exec_registerWrite_partial (s : State) (d off : Nat) (v : Word) (hd : d < 2) (hoff : off < 0x1000000) (h4 : off % 4 = 0)
    (hr : portReach s (.fn 0) d = true) :
    exec (.registerWrite (.fn 0) true (d * 0x1000000 + off) v none false) s =
      .next (settle s (violate s d vPartialWrite (.fn 0) off v.toNat 0)) := by
  rw [exec_registerWrite_dword s _ _ _ v false rfl (by omega) (by omega), accessWrite_bar2_partial s d off v hoff hr]

/-! ### Registers of the die blocks -/

/-- A register of a die block outside the four whose write reaches further is written within its block. -/
theorem portWrite_die (s : State) (who : Who) (d off : Nat) (v : Word) (die : off < 0x100000)
    (own : off ≠ 0x2018 ∧ off ≠ 0x4004 ∧ off ≠ 0x104 ∧ off ≠ 0x40000 ∧ off ≠ 0x48000) :
    portWrite s who d off v = dieBlockWrite s who d off v := by
  obtain ⟨unitReset, regionReset, lostCtrl, link0, link1⟩ := own
  simp [portWrite, blockWrite, die, unitReset, regionReset, lostCtrl, link0, link1]

theorem dieBlockWrite_pkg (s : State) (who : Who) (d off : Nat) (v : Word) (h : off < 0x2000) :
    dieBlockWrite s who d off v = pkgWrite s who d off v := by
  rw [dieBlockWrite, if_pos h]

theorem dieBlockWrite_bbx (s : State) (who : Who) (d o : Nat) (v : Word) (h : o < 0x1000) :
    dieBlockWrite s who d (0x7000 + o) v = bbxWrite s who d o v := by
  have lo : ¬ 0x7000 + o < 0x2000 := by omega
  have hi : 0x7000 + o < 0x8000 := by omega
  simp [dieBlockWrite, lo, hi]

theorem dieBlockWrite_vtx (s : State) (who : Who) (d o : Nat) (v : Word) (h : o < 0x10000) :
    dieBlockWrite s who d (0x10000 + o) v = vtxWrite s who d o v := by
  have lo : ¬ 0x10000 + o < 0x2000 := by omega
  have bbx : ¬ 0x10000 + o < 0x8000 := by omega
  have hi : 0x10000 + o < 0x20000 := by omega
  simp [dieBlockWrite, lo, bbx, hi]

theorem dieBlockWrite_sns (s : State) (who : Who) (d o : Nat) (v : Word) (h : o < 0xC000) :
    dieBlockWrite s who d (0x34000 + o) v = snsWrite s who d o v := by
  have lo : ¬ 0x34000 + o < 0x2000 := by omega
  have bbx : ¬ 0x34000 + o < 0x8000 := by omega
  have vtx : ¬ 0x34000 + o < 0x20000 := by omega
  have evc : ¬ 0x34000 + o < 0x30000 := by omega
  have mtr : ¬ 0x34000 + o < 0x34000 := by omega
  have hi : 0x34000 + o < 0x40000 := by omega
  simp [dieBlockWrite, lo, bbx, vtx, evc, mtr, hi]

/-- PKG_WIN_ENFORCE takes its eight bits (R66). -/
theorem pkgWrite_enforce (s : State) (who : Who) (d : Nat) (v : Word) (hs : (s.pkg.split && s.pkg.custody != d) = false) :
    pkgWrite s who d 0x40 v = s.modPkg (fun p => { p with enforce := w32 (wf v 0 8) }) := by
  simp [pkgWrite, hs]

/-- A write to PKG_WIN_INVAL (R67). -/
theorem pkgWrite_inval (s : State) (who : Who) (d : Nat) (v : Word) (hs : (s.pkg.split && s.pkg.custody != d) = false) :
    pkgWrite s who d 0x44 v = winInval s who d v := by
  simp [pkgWrite, hs]

/-- BBX_TRIGGER takes its twenty bits (R419). -/
theorem bbxWrite_trigger (s : State) (who : Who) (d : Nat) (v : Word) :
    bbxWrite s who d 0x08 v = s.modDie d (fun x => { x with bbx := { x.bbx with trigger := w32 (wf v 0 20) } }) := by
  simp [bbxWrite]

/-- VTX_TMR_PERIOD of the die's timer `t` takes the word (R201). -/
theorem vtxWrite_period (s : State) (who : Who) (d t : Nat) (v : Word) (ht : t < 16) :
    vtxWrite s who d (0x204 + 16 * t) v = s.modTimer (16 * d + t) (fun x => { x with period := v }) := by
  have cfg : ¬ 0x204 + 16 * t < 0x40 := by omega
  have pol : ¬ 0x204 + 16 * t < 0x70 := by omega
  have lo : 0x200 ≤ 0x204 + 16 * t := by omega
  have hi : 0x204 + 16 * t < 0x300 := by omega
  have reg : (0x204 + 16 * t) % 16 = 4 := by omega
  have number : (0x204 + 16 * t - 0x200) / 16 = t := by omega
  simp only [vtxWrite, cfg, pol, lo, hi, reg, number]
  simp

/-- SNS_GAIN of the die's input `i` takes the word (R231). -/
theorem snsWrite_gain (s : State) (who : Who) (d i : Nat) (v : Word) (hi : i < 32) :
    snsWrite s who d (256 * i) v = s.modInput (32 * d + i) (fun x => { x with gain := v }) := by
  have input : 256 * i < 0x2000 := by omega
  simp [snsWrite, input]

/-- Settles O23: an access over BAR2 is a write of the port space, and each register has its equation above. -/
theorem registerWriteGivesValue : Obligations.RegisterWriteGivesValue := by
  intro s d v hd hr
  refine ⟨?partialWrite, ?enforce, ?trigger, ?period, ?gain⟩
  case partialWrite =>
    intro off hoff h4
    exact exec_registerWrite_partial s d off v hd hoff h4 hr
  case enforce =>
    intro hs
    rw [exec_registerWrite_full s d 0x40 v hd (by omega) (by omega) hr, portWrite_die s _ d _ v (by omega) (by decide),
      dieBlockWrite_pkg s _ d _ v (by omega), pkgWrite_enforce s _ d v hs]
  case trigger =>
    rw [exec_registerWrite_full s d 0x7008 v hd (by omega) (by omega) hr, portWrite_die s _ d _ v (by omega) (by decide),
      dieBlockWrite_bbx s _ d 0x08 v (by omega), bbxWrite_trigger]
  case period =>
    intro t ht
    rw [Nat.add_assoc, exec_registerWrite_full s d (0x10204 + 16 * t) v hd (by omega) (by omega) hr,
      portWrite_die s _ d _ v (by omega) (by omega), show 0x10204 + 16 * t = 0x10000 + (0x204 + 16 * t) by omega,
      dieBlockWrite_vtx s _ d _ v (by omega), vtxWrite_period s _ d t v ht]
  case gain =>
    intro i hi
    rw [Nat.add_assoc, exec_registerWrite_full s d (0x34000 + 256 * i) v hd (by omega) (by omega) hr,
      portWrite_die s _ d _ v (by omega) (by omega), dieBlockWrite_sns s _ d _ v (by omega), snsWrite_gain s _ d i v hi]

/-! ### Window entries (R64, R65) -/

/-- The die whose range the entry is written through answers for the PKG block (R57): the bytes reach the table. -/
theorem windowWrite_inCustody (s : State) (who : Who) (d e first : Nat) (bs : List Byte)
    (hs : (s.pkg.split && s.pkg.custody != d) = false) : windowWrite s who d e first bs = winWrite s who d e first bs := by
  simp [windowWrite, hs]

/-- The bytes that die `d` has staged for entry `e`: what it staged for another entry is dropped. -/
def stagedFor (s : State) (d e : Nat) : Tab (Option Byte) :=
  match (s.die d).winStage with
  | some (k, t) => if k = e then t else []
  | none => []

/-- Bytes that end before the entry's last dword are added to the staging. -/
theorem winWrite_stages (s : State) (who : Who) (d e first : Nat) (bs : List Byte) (h : first + bs.length ≤ 12) :
    winWrite s who d e first bs = s.modDie d (fun x => { x with
      winStage := some (e, (enumL first bs).foldl (fun t b => tset none t b.1 (some b.2)) (stagedFor s d e)) }) := by
  simp only [winWrite, if_pos h]
  rfl

/-- All sixteen bytes written at once are the entry, whatever stood there or was staged. -/
theorem winByte_whole (old bs : List Byte) (staged : Tab (Option Byte)) (hb : bs.length = 16) :
    (List.range 16).map (winByte old staged 0 bs) = bs := by
  apply List.ext_getElem
  · simp [hb]
  · intro i _ hi
    have inside : i < bs.length := hi
    simp [winByte, inside]

/-- A change that leaves the die as it is leaves the state as it is. -/
theorem modDie_of_fixed (s : State) (d : Nat) (f : Die → Die) (h : f (s.die d) = s.die d) : s.modDie d f = s := by
  rw [State.modDie, h, State.setDie, State.die]
  split <;> rfl

/-- The die's staging is gone. -/
def stageEnded (x : Die) : Die := { x with winStage := none }

/-- What a commit of entry `e` drops of a die's staging: what was staged for that entry. -/
def stageDropped (e : Nat) (x : Die) : Die :=
  match x.winStage with
  | some (k, _) => if k = e then { x with winStage := none } else x
  | none => x

theorem stageDropped_of_none (e : Nat) (x : Die) (h : x.winStage = none) : stageDropped e x = x := by
  rw [stageDropped, h]

/-- Sixteen good bytes commit the entry; the die's staging ends, and so does what either die has staged for the entry. -/
theorem winWrite_whole (s : State) (who : Who) (d e : Nat) (bs : List Byte) (hb : bs.length = 16) (good : winBad (winOf bs) = false) :
    winWrite s who d e 0 bs = (((s.modDie d stageEnded).modDie 0 (stageDropped e)).modDie 1 (stageDropped e)).modPkg
      (fun p => { p with windows := tset {} p.windows e (winOf bs) }) := by
  have last : ¬ 0 + bs.length ≤ 12 := by omega
  simp only [winWrite, if_neg last, winByte_whole _ bs _ hb, good]
  rfl

/-- Die `d`'s staging has ended and the other die had none. -/
theorem stageEnded_clear (s : State) (d k : Nat) (hd : d < 2) (hk : k < 2) (other : (s.die (1 - d)).winStage = none) :
    ((s.modDie d stageEnded).die k).winStage = none := by
  by_cases same : k = d
  · rw [same, State.modDie_die, if_pos rfl, stageEnded]
  · have isOther : k = 1 - d := by omega
    have apart : ¬ (k = 0) = (d = 0) := by rw [eq_iff_iff]; omega
    rw [State.modDie_die, if_neg apart, isOther, other]

/-- With nothing staged through the other die, a commit ends the staging of its own die alone. -/
theorem winWrite_commits (s : State) (who : Who) (d e : Nat) (bs : List Byte) (hd : d < 2) (hb : bs.length = 16)
    (good : winBad (winOf bs) = false) (other : (s.die (1 - d)).winStage = none) :
    winWrite s who d e 0 bs =
      (s.modDie d stageEnded).modPkg (fun p => { p with windows := tset {} p.windows e (winOf bs) }) := by
  have clear := fun k hk => stageDropped_of_none e _ (stageEnded_clear s d k hd hk other)
  rw [winWrite_whole s who d e bs hb good, modDie_of_fixed _ 0 _ (clear 0 (by omega)), modDie_of_fixed _ 1 _ (clear 1 (by omega))]

/-! ### PKG_WIN_INVAL (R67) -/

/-- A region with a drop to make, not beyond a bridge that is down, makes it. -/
theorem windowDrop_pending (s : State) (r : Nat) (hp : (s.region r).dropPending = true) (near : r / 4 = s.pkg.custody ∨ arcUp s = true) :
    windowDrop s r = invalSettled (s.modRegion r (cacheDropped s.pkg.inval)) := by
  rcases near with near | near <;> simp [windowDrop, hp, near]

/-- Settles O25: bytes of an entry are staged or, all sixteen at once, commit it; PKG_WIN_INVAL is one write of the PKG block (log 44), and a
region's drop is the change that `cacheDropped` makes. -/
theorem windowTableWrites : Obligations.WindowTableWrites := by
  refine ⟨?staged, ?committed, ?invalidate, ?drop⟩
  case staged =>
    intro s who d e first bs old hw hd he hne hl hr hs hold
    rw [exec_windowEntryWrite s who d e first bs hw hd he (List.length_pos_iff.2 hne) (by omega) hr, windowWrite_inCustody s who d e first bs hs,
      winWrite_stages s who d e first bs hl, hold]
    rfl
  case committed =>
    intro s who d e bs hw hd he hb hr hs good other
    rw [exec_windowEntryWrite s who d e 0 bs hw hd he (by omega) (by omega) hr, windowWrite_inCustody s who d e 0 bs hs,
      winWrite_commits s who d e bs hd hb good other]
    rfl
  case invalidate =>
    intro s who d v hw hd hr hs _
    rw [exec_windowInvalidate s who d v hw hd hr, pkgWrite_inval s who d v hs]
  case drop =>
    intro s r hr hp near
    rw [exec_windowCacheDrop s r hr, windowDrop_pending s r hp near]
    rfl

/-! ### Tiles (R62) -/

/-- Settles O58: tile `t` of region `r` is number 512r + t, whose digits give back `r / 4`, `r % 4` and `t`. -/
theorem tilesHaveOnChipAddresses : Obligations.TilesHaveOnChipAddresses := by
  intro r t _ ht
  have half : (512 * r + t) / 2048 = r / 4 := by omega
  have region : (512 * r + t) / 512 % 4 = r % 4 := by omega
  have tile : (512 * r + t) % 512 = t := by omega
  rw [tileAddr, half, region, tile, show (2 : Nat) ^ 63 = 0x8000000000000000 from rfl]

end Sys2Proof.Machine
end

section
/-! SUPPORT. Proofs about channel command words: what a CCW that stands ready does (R77, R93, R125), and the commands that run on no lane
(R84–R89, R101, R114, R120). -/

namespace Sys2Proof.Machine
open Claims

/-! ### Dispatch (R77, R125) -/

/-- A turn changes the round of its cluster alone. -/
theorem takesTurn_eq {s t : State} {n : Nat} (h : takesTurn s n = some t) : ∃ c f, t = s.modCluster c f := by
  dsimp only [takesTurn] at h
  split at h
  · split at h
    · exact ⟨_, _, (Option.some.inj h).symm⟩
    · cases h
  · cases h

/-- Where slot `n` may take its turn, only the round of a cluster changes. -/
theorem turn_eq (s : State) (n : Nat) : turn s n = s ∨ ∃ c f, turn s n = s.modCluster c f := by
  unfold turn
  cases h : takesTurn s n with
  | none => exact .inl rfl
  | some t => exact .inr (takesTurn_eq h)

@[simp] theorem turn_slot (s : State) (n m : Nat) : (turn s n).slot m = s.slot m := by
  rcases turn_eq s n with h | ⟨c, f, h⟩ <;> rw [h]
  rfl

/-- A CCW that stands ready executes (R77), a JUMP where no JUMP came before it (R93). -/
theorem dispatch_of_stands {s : State} {n : Nat} {c : Ccw} {a : DWord} (h : Stands s n c a) (mine : Ccw → Bool)
    (act : State → Ccw → DWord → State) (hm : mine c = true) (hj : c.cmd = 0x08 → (s.slot n).jumped = none) :
    dispatch s n mine act = act (taken s n c a) c a := by
  obtain ⟨-, hturn, e, ready, nofail, rfl, rfl, pause, form⟩ := h
  obtain ⟨t, ht⟩ := Option.isSome_iff_exists.1 hturn
  have turned : turn s n = t := by rw [turn, ht, Option.getD_some]
  have slot : t.slot n = s.slot n := by rw [← turned, turn_slot]
  have jump : ¬((ccwOf e.bytes).cmd = 0x08 ∧ (s.slot n).jumped.isSome = true) := fun ⟨is, jumped⟩ => by simp [hj is] at jumped
  simp [dispatch, ready, ht, nofail, hm, dispatched, jump, slot, pause, form, taken, turned]

/-- The run of a command that dispatches the CCW in its slot. -/
theorem run_dispatch {s : State} {n : Nat} {c : Ccw} {a : DWord} (h : Stands s n c a) (i : Instr) (mine : Ccw → Bool)
    (act : State → Ccw → DWord → State) (hw : i.wf = decide (n < 2048)) (hm : mine c = true)
    (hj : c.cmd = 0x08 → (s.slot n).jumped = none) :
    run i s (fun s => dispatch s n mine act) = .next (settle s (act (taken s n c a) c a)) := by
  rw [run_eq i s _ (hw.trans (decide_eq_true h.1)), dispatch_of_stands h mine act hm hj]

/-- The same for a CCW that is no JUMP, named by its CMD. -/
theorem run_dispatch_isCmd {s : State} {n : Nat} {c : Ccw} {a : DWord} (h : Stands s n c a) (i : Instr) (code : Nat)
    (act : State → Ccw → DWord → State) (hw : i.wf = decide (n < 2048)) (hc : c.cmd = code) (hj : code ≠ 0x08) :
    run i s (fun s => dispatch s n (isCmd code) act) = .next (settle s (act (taken s n c a) c a)) :=
  run_dispatch h i _ act hw (decide_eq_true hc) (fun is => absurd (hc.symm.trans is) hj)

/-! ### Changes of one slot -/

/-- State `t` is `s` with slot `n` become `x`, and host reads as they may be. -/
def SlotBecomes (s t : State) (n : Nat) (x : Slot) : Prop := OnlySlots s t ∧ (∀ m, m ≠ n → t.slot m = s.slot m) ∧ t.slot n = x

theorem onlySlots_trans {s t u : State} (h : OnlySlots s t) (k : OnlySlots t u) : OnlySlots s u := by
  unfold OnlySlots at *
  rw [k, h]

theorem SlotBecomes.modSlot (s : State) (n : Nat) (f : Slot → Slot) : SlotBecomes s (s.modSlot n f) n (f (s.slot n)) :=
  ⟨rfl, fun m hm => by simp [hm], by simp⟩

theorem SlotBecomes.trans {s t u : State} {n : Nat} {x y : Slot} (h : SlotBecomes s t n x) (k : SlotBecomes t u n y) : SlotBecomes s u n y :=
  ⟨onlySlots_trans h.1 k.1, fun m hm => (k.2.1 m hm).trans (h.2.1 m hm), k.2.2⟩

/-- A further change of slot `n`. -/
theorem SlotBecomes.thenMod {s t : State} {n : Nat} {x : Slot} (h : SlotBecomes s t n x) (f : Slot → Slot) :
    SlotBecomes s (t.modSlot n f) n (f x) := by
  obtain ⟨only, others, rfl⟩ := h
  exact SlotBecomes.trans ⟨only, others, rfl⟩ (SlotBecomes.modSlot t n f)

theorem SlotBecomes.thenReadsVoid {s t : State} {n : Nat} {x : Slot} (h : SlotBecomes s t n x) (k : Option DWord) :
    SlotBecomes s (readsVoid t n k) n x :=
  h.trans ⟨rfl, fun _ _ => rfl, h.2.2⟩

/-- Slot `x` whose CCW `c` at `a` executes. -/
def takenSlot (x : Slot) (c : Ccw) (a : DWord) : Slot :=
  { x with ccw := a, begun := a, flags := w8 c.flags, buf := x.buf.tail, jumped := none }

theorem SlotBecomes.taken (s : State) (n : Nat) (c : Ccw) (a : DWord) :
    SlotBecomes (turn s n) (taken s n c a) n (takenSlot (s.slot n) c a) := by
  rw [← turn_slot s n n]
  exact SlotBecomes.modSlot (turn s n) n (fun x => takenSlot x c a)

/-- A run keeps a state that differs from the turn's in slots and reads alone. -/
theorem settle_onlySlots {s t : State} {n : Nat} (h : OnlySlots (turn s n) t) : settle s t = t := by
  unfold OnlySlots at h
  rw [h]
  rcases turn_eq s n with k | ⟨c, f, k⟩ <;> rw [k] <;> rfl

/-! ### The chain goes on (R93, R97) -/

/-- Slot `x` after the CCW at `last` has ended and the chain has gone on to `next`. -/
def chained (x : Slot) (last next : DWord) : Slot :=
  { x with last := last, exec := none, wait := none, st := .active, pc := next, buf := keepFrom next x.buf, honour := true, jumped := none }

/-- With no status post and no halt in its way, the chain goes on: nothing but the slot and its reads changes. -/
theorem ccwEnded_continues {s t : State} {n : Nat} {x : Slot} (h : SlotBecomes s t n x) (pw : PortWriter) (last next : DWord)
    (halt : x.halt = none) : SlotBecomes s (ccwEnded pw t n last false (some next)) n (chained x last next) := by
  have ended := h.thenMod (fun x => { x with last := last, exec := none, wait := none, st := .active })
  have onward := ended.thenMod (fun x => { x with pc := next, buf := keepFrom next x.buf, honour := true, jumped := none })
  simp only [ccwEnded, Bool.false_eq_true, if_false, Bool.not_true, ended.2.2, halt]
  split
  · exact onward.thenReadsVoid _
  · exact onward

/-- The chain has gone on from the CCW that was taken, and `f` is what else the CCW changed in its slot. -/
theorem chainsTo_of_slotBecomes {s t : State} {n : Nat} {c : Ccw} {a next : DWord} {f : Slot → Slot}
    (h : SlotBecomes (turn s n) t n (f (chained (takenSlot (s.slot n) c a) a next))) : ChainsTo s t n c a next f :=
  ⟨h.1, fun m hm => (h.2.1 m hm).trans (turn_slot s n m), h.2.2⟩

/-! ### NOP, JUMP and TEST (R93, R101, R114) -/

/-- A CCW that ends well by NEXT, with no NOTE, goes on at the next CCW. -/
theorem ccwDone_next (s : State) (n : Nat) (c : Ccw) (a : DWord) (note : noteOf c.flags = false) (next : nextOf c.flags = true) :
    ccwDone s n c a = ccwEnded portPw s n a false (some (a + 16)) := by
  simp [ccwDone, note, byNext, next]

theorem nopAct_plain (n : Nat) (s : State) (c : Ccw) (a : DWord) (crc : crcOf c.flags = false) : nopAct n s c a = ccwDone s n c a := by
  simp [nopAct, crc]

/-- NOP with CRC loads the accumulator (R114). -/
theorem nopAct_crc (n : Nat) (s : State) (c : Ccw) (a : DWord) (k : Acc) (crc : crcOf c.flags = true) (loads : nopAcc c = some k) :
    nopAct n s c a = ccwDone (s.modSlot n (fun x => { x with acc := k })) n c a := by
  simp [nopAct, crc, loads]

/-- A slot with a CCW to execute runs a program that has not ended. -/
theorem ended_of_stands {s : State} {n : Nat} {c : Ccw} {a : DWord} (h : Stands s n c a) : (s.slot n).ended = none := by
  obtain ⟨-, -, e, ready, -⟩ := h
  cases ended : (s.slot n).ended with
  | none => rfl
  | some b => simp [readyCcw, ended] at ready

/-- JUMP is remembered in a slot that goes on at its ADDRESS (R93). -/
theorem jumpAct_continues {s t : State} {n : Nat} {x : Slot} (h : SlotBecomes s t n x) (c : Ccw) (a : DWord) (halt : x.halt = none)
    (runs : x.ended = none) :
    SlotBecomes s (jumpAct n t c a) n { chained x a (w64 c.addr) with jumped := some a } := by
  have on := (ccwEnded_continues h portPw a (w64 c.addr) halt).thenMod
    (fun x => if x.st = .active && x.ended.isNone && x.pc = w64 c.addr then { x with jumped := some a } else x)
  have holds : ((chained x a (w64 c.addr)).st = .active && (chained x a (w64 c.addr)).ended.isNone &&
      (chained x a (w64 c.addr)).pc = w64 c.addr) = true := by simp [chained, runs]
  rwa [if_pos holds] at on

/-- TEST of a value in no memory continues after the next CCW where it is true, else at the next (R101, R102). -/
theorem testAct_compares (n : Nat) (s s1 : State) (c : Ccw) (a : DWord) (b : List Byte) (aligned : c.addr % 8 = 0)
    (descriptor : tableGet s (partyOf s n) c.addr 32 = (.ok b, s1)) (form : testFault s1 b = none) (source : u8 b 0 ≠ 1) :
    testAct n s c a = ccwEnded portPw s1 n a (noteOf c.flags)
      (some (if testTrue (u8 b 1) (w32 (leNat (leBytes 4 (testValue s1 (slotServer s1 n / 16) (s1.slot n) (u8 b 0) (u16 b 2)).toNat)) &&&
          w32 (u32 b 4)) (w32 (u32 b 8))
        then a + 32 else a + 16)) := by
  simp [testAct, aligned, descriptor, form, source]

/-- Settles O1: what the CCW that was taken does, and how the chain goes on. -/
theorem nopJumpAndTest : Obligations.NopJumpAndTest := by
  refine ⟨?nop, ?nopCrc, ?jump, ?test⟩
  case nop =>
    intro s n c a h cmd ⟨note, next, halt⟩ crc
    have on := ccwEnded_continues (SlotBecomes.taken s n c a) portPw a (a + 16) halt
    refine ⟨_, (run_dispatch_isCmd h (.nop n) 0x00 (nopAct n) rfl cmd (by decide)).trans ?_, chainsTo_of_slotBecomes on⟩
    rw [nopAct_plain n _ c a crc, ccwDone_next _ n c a note next, settle_onlySlots on.1]
  case nopCrc =>
    intro s n c a k h cmd ⟨note, next, halt⟩ crc loads
    have on := ccwEnded_continues ((SlotBecomes.taken s n c a).thenMod (fun x => { x with acc := k })) portPw a (a + 16) halt
    refine ⟨_, (run_dispatch_isCmd h (.nop n) 0x00 (nopAct n) rfl cmd (by decide)).trans ?_, chainsTo_of_slotBecomes on⟩
    rw [nopAct_crc n _ c a k crc loads, ccwDone_next _ n c a note next, settle_onlySlots on.1]
  case jump =>
    intro s n c a h cmd jumped halt
    have on := jumpAct_continues (SlotBecomes.taken s n c a) c a halt (ended_of_stands h)
    refine ⟨_, (run_dispatch h (.jump n) (isCmd 0x08) (jumpAct n) rfl (decide_eq_true cmd) (fun _ => jumped)).trans ?_,
      chainsTo_of_slotBecomes on⟩
    rw [settle_onlySlots on.1]
  case test =>
    intro s n c a b s1 h cmd aligned descriptor form source
    refine (run_dispatch_isCmd h (.test n) 0x09 (testAct n) rfl cmd (by decide)).trans ?_
    rw [testAct_compares n _ s1 c a b aligned descriptor form source]

end Sys2Proof.Machine
end

section
/-! SUPPORT. Proofs about the CCWs that run on no lane: SIGNAL, MARK, HALT, POST, METER and COPY (R84–R89, R114, R120, R315). -/

namespace Sys2Proof.Machine
open Claims

/-! ### SIGNAL, MARK, HALT and POST (R85–R87, R89, R120) -/

/-- SIGNAL to this device fires the soft vertex (R86). -/
theorem signalAct_here (n : Nat) (s : State) (c : Ccw) (a : DWord) (unused : fld c.target 13 3 = 0) (data : c.addr < 2 ^ 32)
    (here : localDevice s (fld c.target 8 5) = true) :
    signalAct n s c a = ccwDone (fireSoft portPw s (fld c.target 0 8) (w32 c.addr)) n c a := by
  have fits : ¬ 4294967296 ≤ c.addr := Nat.not_le.2 data
  simp [signalAct, unused, fits, here, signalTo]

/-- POST writes an interim status and the chain goes on (R87). -/
theorem postAct_plain (n : Nat) (s u : State) (c : Ccw) (a : DWord) (crc : crcOf c.flags = false)
    (post : interimPost portPw s n a = (true, u)) : postAct n s c a = ccwEnded portPw u n a false (byNext c.flags a) := by
  simp [postAct, crc, post]

/-- POST with CRC stores the check result first (R120). -/
theorem postAct_crc (n : Nat) (s v u : State) (c : Ccw) (a : DWord) (crc : crcOf c.flags = true)
    (store : memPut portPw s (partyOf s n) c.addr (leBytes 4 (accResult (s.slot n).acc).toNat) .data false = (none, v))
    (post : interimPost portPw (dropOverlap v n c.addr 4) n a = (true, u)) :
    postAct n s c a = ccwEnded portPw u n a false (byNext c.flags a) := by
  simp [postAct, crc, store, post]

/-- Settles O3: each command is the run of the CCW that was taken. MARK and HALT are their definitions (R85, R89). -/
theorem signalMarkHaltAndPost : Obligations.SignalMarkHaltAndPost := by
  refine ⟨?signal, ?mark, ?halt, ?post, ?postCrc⟩
  case signal =>
    intro s n c a h cmd unused data here
    refine (run_dispatch_isCmd h (.signal n) 0x0C (signalAct n) rfl cmd (by decide)).trans ?_
    rw [signalAct_here n _ c a unused data here]
    rfl
  case mark =>
    intro s n c a h cmd
    exact run_dispatch_isCmd h (.mark n) 0x0F (markAct n) rfl cmd (by decide)
  case halt =>
    intro s n c a h cmd
    exact run_dispatch_isCmd h (.halt n) 0xFF (haltAct n) rfl cmd (by decide)
  case post =>
    intro s n c a u h cmd crc post
    refine (run_dispatch_isCmd h (.post n) 0x0D (postAct n) rfl cmd (by decide)).trans ?_
    rw [postAct_plain n _ u c a crc post]
  case postCrc =>
    intro s n c a v u h cmd crc store post
    refine (run_dispatch_isCmd h (.post n) 0x0D (postAct n) rfl cmd (by decide)).trans ?_
    rw [postAct_crc n _ v u c a crc store post]

/-! ### METER (R84, R247, R248) -/

section
variable {s : State} {n m : Nat} {c : Ccw} {a : DWord}

/-- A METER of operation `op` that passes the checks made before any access: its fields and COUNT, a meter that is there, that it may
set, and whose die it can reach. -/
structure MeterFits (s : State) (n op m : Nat) (c : Ccw) : Prop where
  number : fld c.target 0 7 = m
  operation : fld c.target 12 4 = op
  unused : fld c.target 7 5 = 0
  count : c.count = if op = 2 then 0 else 32
  addr : op = 2 → c.addr = 0
  there : (s.meter m).unit ≠ .retired
  rights : op ≠ 0 → meterRights s (partyOf s n).fn m = true
  reach : meterReach s (partyOf s n).die m = true

/-- METER READ stores the snapshot. -/
theorem meterAct_read {u : State} (fits : MeterFits s n 0 m c)
    (store : memPut portPw s (partyOf s n) c.addr (snapRead s m) .data false = (none, u)) :
    meterAct n s c a = ccwDone (dropOverlap u n c.addr 32) n c a := by
  obtain ⟨rfl, operation, unused, count, -, there, -, reach⟩ := fits
  simp [meterAct, operation, unused, count, there, reach, store]

/-- METER LOAD of settings that pass their checks waits for the meter's slot while the meter domain runs. -/
theorem meterAct_load {u : State} {b : List Byte} (fits : MeterFits s n 1 m c)
    (settings : memGet s (partyOf s n) c.addr 32 = (.ok b, u)) (ok : settingsOk (m / 64) b = true)
    (run : (u.die (m / 64)).meterRun = true) : meterAct n s c a = meterAwait (meterCommit u m b) n m c a := by
  obtain ⟨rfl, operation, unused, count, -, there, rights, reach⟩ := fits
  simp [meterAct, operation, unused, count, there, rights, reach, settings, ok, run]

/-- METER CLEAR asks for the clear and waits. -/
theorem meterAct_clear (fits : MeterFits s n 2 m c) : meterAct n s c a = meterAwait (meterClearRequest s m) n m c a := by
  obtain ⟨rfl, operation, unused, count, addr, there, rights, reach⟩ := fits
  simp [meterAct, operation, unused, count, addr, there, rights, reach]

end

/-- The run of a METER of operation `op`. -/
theorem run_dispatch_isMeter {s : State} {n : Nat} {c : Ccw} {a : DWord} (h : Stands s n c a) (i : Instr) (op : Nat)
    (hw : i.wf = decide (n < 2048)) (cmd : c.cmd = 0x0E) (operation : fld c.target 12 4 = op) :
    run i s (fun s => dispatch s n (isMeter op) (meterAct n)) = .next (settle s (meterAct n (taken s n c a) c a)) :=
  run_dispatch h i _ _ hw (by simp [isMeter, cmd, operation]) (fun is => by rw [cmd] at is; cases is)

/-! ### COPY (R88, R114, R315) -/

/-- The descriptor `b` of a COPY is read, and it and the two ranges pass every check (R88): `s1` to `s3` are the states after the three
accesses. -/
structure CopyFits (s s1 s2 s3 : State) (n : Nat) (c : Ccw) (b : List Byte) : Prop where
  aligned : c.addr % 16 = 0
  descriptor : tableGet s (partyOf s n) c.addr 16 = (.ok b, s1)
  source : u64 b 0 % 8 = 0
  destination : u64 b 8 % 8 = 0
  nonzero : c.count ≠ 0
  words : c.count % 8 = 0
  apart : ¬(u64 b 0 < u64 b 8 + c.count ∧ u64 b 8 < u64 b 0 + c.count)
  read : accessFail s1 (partyOf s n) (u64 b 0) c.count rightRead = (none, s2)
  write : accessFail s2 (partyOf s n) (u64 b 8) c.count rightWrite = (none, s3)

/-- COPY whose descriptor and ranges pass every check stands in its slot and has moved nothing. -/
theorem copyAct_begins {s s1 s2 s3 : State} {n : Nat} {c : Ccw} {b : List Byte} (fits : CopyFits s s1 s2 s3 n c b) (a : DWord) :
    copyAct n s c a = s3.modSlot n (fun x => { x with exec := some {
      code := 0x11, op := .write, parts := [⟨a, w8 c.flags, c.count, [], none⟩], copySrc := w64 (u64 b 0), copyDst := w64 (u64 b 8) } }) := by
  obtain ⟨aligned, descriptor, source, destination, nonzero, words, apart, read, write⟩ := fits
  simp only [copyAct, aligned, descriptor, source, destination, nonzero, words, read, write]
  simp [apart]

/-- The state after a piece of a COPY that moved the bytes `bs` into state `v`. -/
def copyMoved (v : State) (n : Nat) (e : Exec) (bs : List Byte) (k : Nat) : State :=
  (dropOverlap v n (e.copyDst.toNat + e.moved) k).modSlot n (fun x => { x with
    exec := some { e with moved := e.moved + k }, acc := if crcOf x.flags.toNat then accFeed x.acc bs else x.acc })

/-- A piece of a COPY moves its bytes, and at COUNT the CCW ends with its result registers clear (R88, R114, R315). -/
theorem copyPiece_moves (s u v : State) (n : Nat) (e : Exec) (k : Nat) (bs : List Byte) (size : k = min 256 (partsCount e.parts - e.moved))
    (read : rawRead s (partyOf s n) (e.copySrc.toNat + e.moved) k = (.ok bs, u))
    (write : rawWrite portPw u (partyOf s n) (e.copyDst.toNat + e.moved) bs .data false = (none, v)) (still : (v.slot n).exec = some e) :
    copyPiece s n e =
      if e.moved + k < partsCount e.parts then copyMoved v n e bs k
      else ccwEnded portPw ((copyMoved v n e bs k).modSlot n (fun x => { x with dev := 0, resid := 0, laneRes := 0 })) n (s.slot n).ccw
        (noteOf (s.slot n).flags.toNat) (byNext (s.slot n).flags.toNat (s.slot n).ccw) := by
  subst size
  simp only [copyPiece, read, write, still, bne_self_eq_false, Bool.false_eq_true, if_false]
  rfl

/-- A running COPY's piece of the transfer path is `copyPiece` (R315). -/
theorem pathPieceOf_copy (s : State) (n : Nat) (e : Exec) (running : (s.slot n).exec = some e) (copy : e.code = 0x11)
    (power : (s.region (slotServer s n / 4)).power = .run) (noReset : (s.region (slotServer s n / 4)).inReset = false)
    (up : dieUp s (slotServer s n / 16) = true) (channel : (pathChannel s (slotServer s n / 4)).isSome = true) (op : e.op ≠ .read) :
    pathPieceOf s n 0 [] = copyPiece s n e := by
  simp [pathPieceOf, running, copy, power, noReset, up, Option.isSome_iff_ne_none.1 channel, op]

theorem exec_pathPiece (s : State) (n : Nat) (hn : n < 2048) : exec (.pathPiece n 0 []) s = .next (settle s (pathPieceOf s n 0 [])) :=
  run_eq (.pathPiece n 0 []) s (fun s => pathPieceOf s n 0 []) (by simp [Instr.wf, hn])

/-- Settles O4. -/
theorem meterCommandsAndCopy : Obligations.MeterCommandsAndCopy := by
  refine ⟨?read, ?load, ?clear, ?copy, ?piece⟩
  case read =>
    intro s n c a u h cmd operation unused count there reach store
    refine (run_dispatch_isMeter h (.meterCcwRead n) 0 rfl cmd operation).trans ?_
    rw [meterAct_read ⟨rfl, operation, unused, count, nofun, there, nofun, reach⟩ store]
    rfl
  case load =>
    intro s n c a b u h cmd operation unused count there rights reach settings ok runs
    refine (run_dispatch_isMeter h (.meterCcwLoad n) 1 rfl cmd operation).trans ?_
    rw [meterAct_load ⟨rfl, operation, unused, count, nofun, there, fun _ => rights, reach⟩ settings ok runs]
  case clear =>
    intro s n c a h cmd operation unused count addr there rights reach
    refine (run_dispatch_isMeter h (.meterCcwClear n) 2 rfl cmd operation).trans ?_
    rw [meterAct_clear ⟨rfl, operation, unused, count, fun _ => addr, there, fun _ => rights, reach⟩]
  case copy =>
    intro s n c a b s1 s2 s3 h cmd aligned descriptor source destination nonzero words apart read write
    refine (run_dispatch_isCmd h (.copy n) 0x11 (copyAct n) rfl cmd (by decide)).trans ?_
    rw [copyAct_begins ⟨aligned, descriptor, source, destination, nonzero, words, apart, read, write⟩]
  case piece =>
    intro s u v n e k bs hn running copy power noReset up channel op size read write still t ht
    have moves := copyPiece_moves s u v n e k bs size read write still
    rw [exec_pathPiece s n hn, pathPieceOf_copy s n e running copy power noReset up channel op, moves, ht]
    exact ⟨fun more => by rw [if_pos more]; rfl, fun done => by rw [if_neg (Nat.not_lt.2 done)]; rfl⟩

end Sys2Proof.Machine
end

section
/-! SUPPORT. Proofs about lane commands as they begin (R78–R83, R107). -/

namespace Sys2Proof.Machine
open Claims

/-- A lane command whose rules hold and whose data passes its first checks begins with the parameters `out` that it has read: none but of
a CONTROL (R83). -/
theorem laneCommand_begins {s u v : State} {n : Nat} {c : Ccw} {a : DWord} {lf : LaneField} {w : Walk} {out : List Byte}
    (h : LaneBegins s u n c a lf w)
    (params : controlData u (partyOf (taken s n c a) n) (opOf c.cmd) w.pieces = ((out, none), v))
    (data : opOf c.cmd = .control →
      dataFails v (opOf c.cmd) c.target out (lf.lanes.filter (fun l => !laneGone (taken s n c a) l)) = none) :
    laneCommand n (taken s n c a) c a = begun v n c a lf w out := by
  obtain ⟨-, field, here, kind, count, drop, form, part⟩ := h
  have checked : (if opOf c.cmd = .control then
      dataFails v (opOf c.cmd) c.target out (lf.lanes.filter (fun l => !laneGone (taken s n c a) l)) else none) = none := by
    split
    · next control => exact data control
    · rfl
  simp only [laneCommand, field, laneBegins, kind, count, drop, here, form, part, params, checked, bne_self_eq_false,
    Bool.false_eq_true, if_false, Bool.false_and]
  simp only [begun, begunExec, here]

section
variable {s u v : State} {n : Nat} {c : Ccw} {a : DWord} {lf : LaneField} {w : Walk} {out : List Byte}

/-- The run of a lane command that reads no parameters. -/
theorem run_laneCommand (h : LaneBegins s u n c a lf w) (i : Instr) (code : Nat) (hw : i.wf = decide (n < 2048)) (cmd : c.cmd = code)
    (noJump : code ≠ 0x08) (noParams : opOf code ≠ .control) :
    run i s (fun s => dispatchLane s n (isCmd code)) = .next (settle s (begun u n c a lf w [])) := by
  have plain : opOf c.cmd ≠ .control := cmd ▸ noParams
  refine (run_dispatch_isCmd h.1 i code (laneCommand n) hw cmd noJump).trans ?_
  rw [laneCommand_begins h (if_neg plain) (fun is => absurd is plain)]

/-- The run of a CONTROL of code `code`, its parameters `out` read and passed. -/
theorem run_controlCommand (h : LaneBegins s u n c a lf w) (cmd : c.cmd = 0x04)
    (params : controlData u (partyOf (taken s n c a) n) .control w.pieces = ((out, none), v))
    (data : dataFails v .control c.target out (lf.lanes.filter (fun l => !laneGone (taken s n c a) l)) = none)
    (i : Instr) (code : Nat) (hw : i.wf = decide (n < 2048)) (target : c.target = code) :
    run i s (fun s => dispatchLane s n (isControl code)) = .next (settle s (begun v n c a lf w out)) := by
  have control : opOf c.cmd = .control := by rw [cmd]; rfl
  have mine : isControl code c = true := by simp [isControl, cmd, target]
  refine (run_dispatch h.1 i _ (laneCommand n) hw mine (fun is => by rw [cmd] at is; cases is)).trans ?_
  rw [laneCommand_begins h (control ▸ params) (fun _ => control ▸ data)]

end

/-- Settles O5: the rows of lane commands differ in the CMD and the control code that they take, and begin alike. Members begin in position
order (log 66), and the parameters of a CONTROL are read as it begins (log 15). -/
theorem laneAndControlCommandsBegin : Obligations.LaneAndControlCommandsBegin := by
  refine ⟨?lanes, ?controls⟩
  case lanes =>
    intro s u n c a lf w h
    have begins := run_laneCommand h
    exact ⟨fun cmd => begins (.write n) 0x01 rfl cmd (by decide) (by decide),
      fun cmd => begins (.read n) 0x02 rfl cmd (by decide) (by decide),
      fun cmd => begins (.xact n) 0x03 rfl cmd (by decide) (by decide),
      fun cmd => begins (.sense n) 0x05 rfl cmd (by decide) (by decide),
      fun cmd => begins (.gangWrite n) 0x06 rfl cmd (by decide) (by decide)⟩
  case controls =>
    intro s u n c a lf w v out h cmd params data
    have begins := run_controlCommand h cmd params data
    exact ⟨begins (.laneReset n) 0x0000 rfl, begins (.busRecover n) 0x0001 rfl, begins (.release n) 0x0002 rfl,
      begins (.rxFlush n) 0x0100 rfl, begins (.uartBreak n) 0x0110 rfl, begins (.tachRestart n) 0x0120 rfl,
      begins (.pwmForce n) 0x0130 rfl⟩

end Sys2Proof.Machine
end

section
/-! SUPPORT. Proofs about lane commands that end (R80, R83, R100, R182). -/

namespace Sys2Proof.Machine
open Claims

/-! ### A CONTROL of another device whose data the lane refuses (R80, R83, R182) -/

/-- A UART break of device 1 that runs on lane 0 of this device with a duration of 0, which R182 refuses: COUNT 2, both bytes 0. -/
def breakOfNoLength : LaneCmd :=
  { user := { device := 33, slot := 0, fn := 0, tag := 0, gen := 0 }, pos := 0, op := .control, count := 2, wlen := 0, target := 0x0110, out := [0, 0] }

/-- The transaction's end: the bus shows no condition, and nothing moved. -/
def endsQuietly : BusResult := { cls := 0, sent := 0, recv := [], pec := none, losses := 0, pulses := 0, recovered := false }

/-- Lane 0 runs that break, and link port 0 is UP towards the device that sent it. -/
def remoteBreakRuns : State :=
  (State.reset.modLane 0 (fun l => { l with txn := some breakOfNoLength, begun := true })).modPort 0 (fun p => { p with st := .up, role := .upstream })

/-- RESIDUAL of a lane result that is on the line. -/
def resultResidual : LinkItem → Option Nat
  | .packet _ (.laneResult _ _ _ _ _ (some r) _) => some r.resid
  | _ => none

/-- RESIDUAL of each lane result that a command leaves on the line of link port 0. -/
def sentResiduals : Host.Outcome State Fault Refusal → List Nat
  | .next t => (t.port 0).sent.filterMap resultResidual
  | .fault _ | .refused _ => []

/-- The device that sent the break is told that neither byte of COUNT moved. -/
theorem remoteBreak_reports_count : sentResiduals (exec (.laneTransactionEnd 0 endsQuietly) remoteBreakRuns) = [2] := by decide

/-- The statement's result for the same end: of a CONTROL `memberRes` leaves RESIDUAL 0, refused or not. -/
theorem remoteBreak_stated_zero :
    sentResiduals (.next (settle remoteBreakRuns (laneDone portPw
      (some (breakOfNoLength, memberRes breakOfNoLength 0 (some badField) (breakOfNoLength.count - breakOfNoLength.got) []),
        laneNext (txnOver remoteBreakRuns 0 { breakOfNoLength with target := put breakOfNoLength.target 14 1 0 } 0 0) 0) 0))) = [0] := by
  decide

/-- Refutes O8 in its first clause: a lane that refuses the data of another device's CONTROL reports RESIDUAL = COUNT, as of any command that
moved nothing (R100), where the clause says 0. The counterexample is a UART break of duration 0; a run checks it before it starts, but the
clause speaks of every state. -/
theorem not_laneCommandsEnd : ¬ Obligations.LaneCommandsEnd := by
  intro h
  obtain ⟨ends, -⟩ := h
  obtain ⟨refused, -⟩ := ends remoteBreakRuns 0 endsQuietly breakOfNoLength (by decide) (by decide) (by decide) (by decide)
  have reported := congrArg sentResiduals (refused badField (by decide) (by decide) (by decide))
  rw [remoteBreak_reports_count, remoteBreak_stated_zero] at reported
  exact absurd reported (by decide)

end Sys2Proof.Machine
end

section
/-! SUPPORT. Proofs about the small work orders: SIGNAL, NOP, METER-SET, METER-READ, BUFFER-ALLOC, BUFFER-FREE and LANE-CONFIG (R86, R247,
R248, R280, R282, R286–R288). -/

namespace Sys2Proof.Machine
open Claims

/-! ### A request that takes effect (R272, R280) -/

/-- The request that stands first at a source that takes its opcode is acted on. -/
theorem serve_of_asks {s : State} {src : EntrySrc} {op : Nat} {r : Req} (h : Asks s src op r) (mine : Req → Bool)
    (act : State → Req → State) (hm : mine r = true) : serve s src mine act = act s r := by
  obtain ⟨-, next, opcode, accepted⟩ := h
  unfold serve
  rw [next]
  simp only [hm, Bool.not_true, Bool.and_false]
  rw [opcode, accepted]
  rfl

/-- The run of a command that serves it. -/
theorem run_serve {s : State} {src : EntrySrc} {op : Nat} {r : Req} (h : Asks s src op r) (i : Instr) (mine : Req → Bool)
    (act : State → Req → State) (hw : i.wf = src.ok) (hm : mine r = true) :
    run i s (fun s => serve s src mine act) = .next (settle s (act s r)) := by
  rw [run_eq i s _ (hw.trans h.1), serve_of_asks h mine act hm]

/-- The same for a row that takes its whole opcode. -/
theorem run_serve_isOp {s : State} {src : EntrySrc} {op : Nat} {r : Req} (h : Asks s src op r) (i : Instr) (act : State → Req → State)
    (hw : i.wf = src.ok) : run i s (fun s => serve s src (isOp op) act) = .next (settle s (act s r)) :=
  run_serve h i _ act hw (decide_eq_true h.2.2.1)

/-- The run of a LANE-CONFIG of kind `k`. -/
theorem run_serve_isLaneConfig {s : State} {src : EntrySrc} {r : Req} (h : Asks s src 0x0B r) (i : Instr) (k : Nat)
    (act : State → Req → State) (hw : i.wf = src.ok) (kind : par r 0 2 = k) :
    run i s (fun s => serve s src (isLaneConfig k) act) = .next (settle s (act s r)) :=
  run_serve h i _ act hw (by simp [isLaneConfig, isOp, h.2.2.1, kind])

/-! ### SIGNAL and NOP (R86, R280) -/

/-- SIGNAL to this device fires the soft vertex and completes. -/
theorem signalWork_here (s : State) (r : Req) (fields : fieldsOk r 0x1FFF false false false 32 36 = true)
    (here : localDevice s (par r 8 5) = true) :
    signalWork s r = reply (fireSoft portPw s (par r 0 8) (w32 (u32 r.bytes 32))) r ccSuccess := by
  simp [signalWork, fields, here, signalTo]

theorem nopWork_completes (s : State) (r : Req) (fields : fieldsOk r 0 false false false 32 32 = true) :
    nopWork s r = reply s r ccSuccess := by
  rw [nopWork, if_pos fields]

/-! ### METER-SET and METER-READ (R247, R248) -/

/-- The element `m` of die `d` that a request names is there and may be acted on now (R13, R412). -/
structure DieServes (s : State) (r : Req) (d : Nat) : Prop where
  now : mustWait s r d = false
  there : isLost s d = false

/-- METER-SET of settings that pass their checks: the settings are committed, an unowned meter becoming the function's, and the entry waits
for the meter's slot while the meter domain runs. -/
theorem meterSetAct_commits (s u v : State) (r : Req) (m : Nat) (b : List Byte) (number : par r 0 7 = m)
    (fields : fieldsOk r 0x7F (!isMailbox r) false false 32 32 = true) (die : DieServes s r (m / 64)) (unit : (s.meter m).unit ≠ .retired)
    (may : meterMay s r m = true) (bytes : meterBytes s r = (some b, u)) (ok : settingsOk (m / 64) b = true)
    (hv : v = meterCommit (u.modMeter m (fun x => { x with owner := if x.owner = 15 then r.fn else x.owner })) m b) :
    meterSetAct s r =
      if (v.die (m / 64)).meterRun then (tookEffect v r).modMeter m (fun x => { x with waiters := x.waiters ++ [.entry r.src r.idx] })
      else reply v r ccSuccess := by
  subst number hv
  cases source : r.src <;>
    (simp only [isMailbox, source, Bool.not_true, Bool.not_false] at fields
     simp only [meterSetAct, source, fields, die.now, lostDie, die.there, unit, may, bytes, ok, Bool.not_true, Bool.not_false,
       Bool.false_eq_true, decide_false, Bool.or_self, if_false])

/-- RESULT of METER-READ: the meter's value and flags byte. -/
def meterResult (s : State) (m : Nat) : List Byte := sub (snapRead s m) 0 4 ++ [(snapRead s m).getD 24 0]

/-- What a METER-READ with a buffer completes with: RESULT `res`, or the failure of its store. -/
def storedReply (r : Req) (res : List Byte) : Option Fail × State → State
  | (none, u) => replyWith u r ccSuccess 0 res
  | (some _, u) => reply u r ccDataWriteFailed

/-- A METER-READ passes its checks. -/
structure MeterReadFits (s : State) (r : Req) (m : Nat) : Prop where
  number : par r 0 7 = m
  fields : fieldsOk r 0x7F false (!isMailbox r) false 32 32 = true
  aligned : eB r.bytes % 8 = 0
  die : DieServes s r (m / 64)
  unit : (s.meter m).unit ≠ .retired

/-- METER-READ in the mailbox puts the snapshot into DATA; from a queue it stores it at B, where B is not 0. -/
theorem meterReadAct_eq {s : State} {r : Req} {m : Nat} (fits : MeterReadFits s r m) :
    meterReadAct s r =
      if isMailbox r then replyWith (mailboxPut s r.fn 0x10 (snapRead s m)) r ccSuccess 0 (meterResult s m)
      else if eB r.bytes = 0 then replyWith s r ccSuccess 0 (meterResult s m)
      else storedReply r (meterResult s m) (reqPut s r (eB r.bytes) (snapRead s m)) := by
  obtain ⟨rfl, fields, aligned, die, unit⟩ := fits
  cases source : r.src <;>
    (simp only [isMailbox, source, Bool.not_true, Bool.not_false] at fields ⊢
     simp only [meterReadAct, source, fields, aligned, die.now, lostDie, die.there, unit, Bool.not_true, Bool.not_false,
       Bool.false_eq_true, decide_false, Bool.or_self, bne_self_eq_false, if_false, if_true, meterResult])
  all_goals rcases reqPut s r (eB r.bytes) (snapRead s (par r 0 7)) with ⟨_ | f, u⟩ <;> rfl

/-! ### BUFFER-ALLOC and BUFFER-FREE (R286–R288) -/

/-- What BUFFER-ALLOC completes with: the tile is the function's, and RESULT is its handle. -/
def allocated (s : State) (r : Req) (t : Nat) : State :=
  replyWith (tileTaken s r.fn t) r ccSuccess 0 (leBytes 2 (t + 4096 * (tileGen (tileTaken s r.fn t) t).toNat))

/-- Without EXACT, the lowest free tile of the region is taken while one is left for the request. -/
theorem bufferAllocAct_lowest (s : State) (r : Req) (q t : Nat) (region : par r 0 3 = q) (die : DieServes s r (q / 4))
    (any : par r 3 1 = 0) (fields : fieldsOk r 0xF false false false 32 32 = true) (left : tilesLeft s r q ≠ 0)
    (lowest : (rangeL (512 * q + 16) 496).find? (tileFree s) = some t) : bufferAllocAct s r = allocated s r t := by
  subst region
  simp only [bufferAllocAct, any, die.now, lostDie, die.there, left, lowest]
  simp [fields, allocated]

/-- With EXACT, the tile that the request names is taken where it is free and no request fetched before is to have it. -/
theorem bufferAllocAct_exact (s : State) (r : Req) (q t : Nat) (region : par r 0 3 = q) (die : DieServes s r (q / 4))
    (exactly : par r 3 1 = 1) (fields : fieldsOk r 0x1FFF false false false 32 32 = true) (tile : 16 ≤ par r 4 9)
    (number : t = 512 * q + par r 4 9) (free : tileFree s t = true)
    (first : (allocRivals s r q).any (fun e => fld (eParams e.2.bytes) 3 10 = 1 + 2 * par r 4 9) = false) :
    bufferAllocAct s r = allocated s r t := by
  subst region number
  have kept : (s.tile (512 * par r 0 3 + par r 4 9)).retired = false := by
    simp only [tileFree, Bool.and_eq_true, Bool.not_eq_true'] at free
    exact free.1.2
  have inPool : ¬ par r 4 9 < 16 := Nat.not_lt.2 tile
  simp only [bufferAllocAct, exactly, die.now, lostDie, die.there, kept, inPool, free, first]
  simp [fields, allocated]

/-- A field of a field of a number is that field of the number. -/
theorem fld_fld (v n lo len : Nat) (h : lo + len ≤ n) : fld (fld v 0 n) lo len = fld v lo len := by
  unfold fld
  apply Nat.eq_of_testBit_eq
  intro i
  by_cases inside : i < len
  · have below : i + lo < n := by omega
    simp [Nat.testBit_mod_two_pow, Nat.testBit_div_two_pow, inside, below]
  · simp [Nat.testBit_mod_two_pow, inside]

/-- BUFFER-FREE of a tile that the function holds gives it back to the pool. -/
theorem bufferFreeAct_frees (s : State) (r : Req) (t : Nat) (fields : fieldsOk r 0xFFFF false false false 32 32 = true)
    (number : par r 0 12 = t) (gen : par r 12 4 = (tileGen s t).toNat) (die : DieServes s r (t / 2048)) (tile : 16 ≤ t % 512)
    (owner : (s.tile t).owner = .fn r.fn) (kept : (s.tile t).retired = false) :
    bufferFreeAct s r = reply (s.modTile t (fun y => { y with owner := .pool })) r ccSuccess := by
  have handleTile : fld (par r 0 16) 0 12 = t := (fld_fld _ 16 0 12 (by decide)).trans number
  have handleGen : fld (par r 0 16) 12 4 = (tileGen s t).toNat := (fld_fld _ 16 12 4 (by decide)).trans gen
  have inPool : ¬ t % 512 < 16 := Nat.not_lt.2 tile
  simp only [bufferFreeAct, handleTile, handleGen, fields, die.now, lostDie, die.there, inPool, owner, kept]
  simp

/-! ### LANE-CONFIG (R106, R282) -/

/-- What a LANE-CONFIG of registers completes with: the first refused index and their number, where one is refused. -/
def pairsReply (s : State) (r : Req) (refused : Option Nat × Nat) : State :=
  match refused.1 with
  | none => reply s r ccSuccess
  | some i => replyWith s r ccApplyRefused 0 [w8 i, w8 refused.2]

section
variable {s u : State} {r : Req} {n : Nat} {bs : List Byte}

/-- A LANE-CONFIG of the registers of lane `n` passes its checks, and its stream gives the bytes `bs`. -/
structure LaneRegistersFit (s u : State) (r : Req) (n : Nat) (bs : List Byte) : Prop where
  kind : par r 0 2 = 0
  lane : par r 4 9 = n
  fields : fieldsOk r 0x00FF1FF3 false false true 32 (32 + 8 * min (par r 16 8) 2) = true
  pairs : par r 16 8 ≠ 0
  capability : hasCap s r.fn 1 = true
  inDevice : n < 384
  unit : (s.lane n).unit ≠ .retired
  die : DieServes s r (laneDie n)
  stream : streamOf s r (8 * (par r 16 8 - 2)) = (.inr bs, u)
  enough : 8 * par r 16 8 ≤ ((eInline r.bytes).take (8 * par r 16 8) ++ bs).length

/-- LANE-CONFIG of registers writes its pairs in order. -/
theorem laneRegistersAct_writes (fits : LaneRegistersFit s u r n bs) {ps : List (Nat × Word)}
    (read : pairsOf (par r 16 8) ((eInline r.bytes).take (8 * par r 16 8) ++ bs) = some ps)
    (writable : ps.all (fun p => laneWritable (isFrame (u.lane n) || ps.any (fun p => p.1 = 0 && wf p.2 0 4 = 0xC)) p.1) = true) :
    laneRegistersAct s r = pairsReply (pairsWrite r.fn n 0 (none, 0) u ps).2 r (pairsWrite r.fn n 0 (none, 0) u ps).1 := by
  obtain ⟨kind, rfl, fields, pairs, capability, inDevice, unit, die, stream, enough⟩ := fits
  have inRange : ¬ 384 ≤ par r 4 9 := Nat.not_le.2 inDevice
  have whole : ¬ ((eInline r.bytes).take (8 * par r 16 8) ++ bs).length < 8 * par r 16 8 := Nat.not_lt.2 enough
  simp only [laneRegistersAct, fields, kind, pairs, capability, inRange, unit, die.now, lostDie, die.there, stream, read, writable, whole,
    Bool.not_true, Bool.false_eq_true, decide_false, Bool.or_self, bne_self_eq_false, if_false]
  rcases pairsWrite r.fn (par r 4 9) 0 (none, 0) u ps with ⟨⟨_ | i, k⟩, v⟩ <;> rfl

/-- LANE-CONFIG of a lane set whose members are there, named once and no partners, sets the set's members. -/
theorem laneSetAct_sets {ls : List Nat} (kind : par r 0 2 = 1) (size : par r 12 6 ≤ 32)
    (fields : fieldsOk r 0x3FFF3 false false true 32 (32 + 2 * min (par r 12 6) 8) = true) (capability : hasCap s r.fn 1 = true)
    (stream : streamOf s r (2 * (par r 12 6 - 8)) = (.inr bs, u))
    (enough : 2 * par r 12 6 ≤ ((eInline r.bytes).take (2 * par r 12 6) ++ bs).length)
    (list : ls = (List.range (par r 12 6)).map (fun i => u16 ((eInline r.bytes).take (2 * par r 12 6) ++ bs) (2 * i)))
    (members : ∀ n ∈ ls, n < 384 ∧ (u.lane n).unit ≠ .retired ∧ isPartner u n = false) (once : ls.Nodup) :
    laneSetAct s r = reply (u.modPkg (fun p => { p with sets := tset {} p.sets (par r 4 8) { members := ls } })) r ccSuccess := by
  have there : ls.any (fun n => decide (384 ≤ n) || (u.lane n).unit = .retired) = false := by
    rw [List.any_eq_false]
    intro n hn
    obtain ⟨inDevice, unit, -⟩ := members n hn
    simp [unit, Nat.not_le.2 inDevice]
  have noPartner : ls.any (isPartner u) = false := by
    rw [List.any_eq_false]
    intro n hn
    obtain ⟨-, -, alone⟩ := members n hn
    simp [alone]
  have fits : ¬ 32 < par r 12 6 := Nat.not_lt.2 size
  have whole : ¬ ((eInline r.bytes).take (2 * par r 12 6) ++ bs).length < 2 * par r 12 6 := Nat.not_lt.2 enough
  simp only [laneSetAct, fields, kind, fits, capability, stream, whole, ← list, there, noPartner, once]
  simp

end

/-- Settles O11: each command is the action of its row on the request that its source takes, and each action has its equation above. -/
theorem smallWorkOrders : Obligations.SmallWorkOrders := by
  refine ⟨?signal, ?nop, ?meterSet, ?meterRead, ?alloc, ?free, ?registers, ?laneSet⟩
  case signal =>
    intro s src r asks fields here _
    refine (run_serve_isOp asks (.signalWorkOrder src) signalWork rfl).trans ?_
    rw [signalWork_here s r fields here]
  case nop =>
    intro s src r asks fields
    refine (run_serve_isOp asks (.nopWorkOrder src) nopWork rfl).trans ?_
    rw [nopWork_completes s r fields]
  case meterSet =>
    intro s u src r m b asks number fields now unit there may bytes ok v
    have commits := meterSetAct_commits s u v r m b number fields ⟨now, there⟩ unit may bytes ok rfl
    have serves := run_serve_isOp asks (.meterSet src) meterSetAct rfl
    rw [commits] at serves
    refine ⟨fun runs => serves.trans ?_, fun stands => serves.trans ?_⟩
    · rw [if_pos runs]
    · rw [if_neg (by rw [stands]; decide)]
  case meterRead =>
    intro s src r m asks number fields aligned now unit there res
    have reads := meterReadAct_eq ⟨number, fields, aligned, ⟨now, there⟩, unit⟩
    have serves := run_serve_isOp asks (.meterRead src) meterReadAct rfl
    rw [reads] at serves
    refine ⟨fun mail => serves.trans ?_, fun queue noBuffer => serves.trans ?_, fun u queue buffer store => serves.trans ?_⟩
    · rw [if_pos mail]; rfl
    · rw [if_neg (by rw [queue]; decide), if_pos noBuffer]; rfl
    · rw [if_neg (by rw [queue]; decide), if_neg buffer, store]; rfl
  case alloc =>
    intro s src r q t asks region now there which
    have serves := run_serve_isOp asks (.bufferAlloc src) bufferAllocAct rfl
    rcases which with ⟨any, fields, left, lowest⟩ | ⟨exactly, fields, tile, number, free, first⟩
    · rw [bufferAllocAct_lowest s r q t region ⟨now, there⟩ any fields left lowest] at serves
      exact serves
    · rw [bufferAllocAct_exact s r q t region ⟨now, there⟩ exactly fields tile number free first] at serves
      exact serves
  case free =>
    intro s src r t asks fields number gen now there tile owner kept
    refine (run_serve_isOp asks (.bufferFree src) bufferFreeAct rfl).trans ?_
    rw [bufferFreeAct_frees s r t fields number gen ⟨now, there⟩ tile owner kept]
  case registers =>
    intro s u v src r n bs ps fr k asks kind lane fields pairs capability inDevice unit now there stream enough read writable write
    have writes := laneRegistersAct_writes
      ⟨kind, lane, fields, pairs, capability, inDevice, unit, ⟨now, there⟩, stream, enough⟩ read writable
    refine (run_serve_isLaneConfig asks (.laneConfigRegisters src) 0 laneRegistersAct rfl kind).trans ?_
    rw [writes, write]
    rfl
  case laneSet =>
    intro s u src r bs ls asks kind size fields capability stream enough list members once
    refine (run_serve_isLaneConfig asks (.laneConfigLaneSet src) 1 laneSetAct rfl kind).trans ?_
    rw [laneSetAct_sets kind size fields capability stream enough list members once]

end Sys2Proof.Machine
end

section
/-! SUPPORT. Proofs about posted writes to host memory (R145, R147, R255, R513). -/

namespace Sys2Proof.Machine

/-- A memory after a write: the bytes written stand in their range, and every other byte is as before. -/
theorem memRead_memWrite (m : List Host.Cell) (a : Nat) (bs : List Byte) (x : Nat) :
    memRead (memWrite m a bs) x = if a ≤ x ∧ x < a + bs.length then bs.getD (x - a) 0 else memRead m x := by
  split
  · next inside =>
    have written := memRead_memWrite_same m a bs (x - a) (by omega)
    rwa [Nat.add_sub_cancel' inside.1] at written
  · next outside => exact memRead_memWrite_other m a bs x (by omega)

section
variable (s : State) (f : Nat) (k : PostKind) (a : Nat) (bs : List Byte) (holds : Bool)

/-- A function in reset writes nothing (R147). -/
theorem postWrite_inReset (reset : (s.func f).inReset = true) : postWrite s f k a bs holds = s := by
  rw [postWrite, if_pos reset]

/-- A write that nothing holds leaves the port. -/
theorem postWrite_leaves (running : (s.func f).inReset = false) (free : holds = false ∨ masters s f = true) :
    postWrite s f k a bs holds = postOut s { fn := f, addr := w64 a, bytes := bs, kind := k } := by
  rcases free with free | free <;> simp [postWrite, running, free]

/-- A write that is to be held while the function does not master the bus goes to the end of those held (R255). -/
theorem postWrite_waits (running : (s.func f).inReset = false) (hold : holds = true) (off : masters s f = false) :
    postWrite s f k a bs holds =
      s.modFunc f (fun x => { x with held := x.held ++ [{ fn := f, addr := w64 a, bytes := bs, kind := k }] }) := by
  simp [postWrite, running, hold, off]

end

/-- Settles O55: a write that leaves is applied and kept in the log of posted writes (log 8), by the law of a memory's bytes after a write;
one that is held changes the function that holds it alone. -/
theorem postedWritesLand : Obligations.PostedWritesLand := by
  refine ⟨?leaves, ?issued⟩
  case leaves =>
    intro s p
    exact ⟨rfl, memWf_memWrite s.hostMem p.addr.toNat p.bytes, memRead_memWrite s.hostMem p.addr.toNat p.bytes, rfl⟩
  case issued =>
    intro s f k a bs holds
    refine ⟨postWrite_inReset s f k a bs holds, postWrite_leaves s f k a bs holds, fun running hold off => ?_⟩
    rw [postWrite_waits s f k a bs holds running hold off]
    refine ⟨rfl, ?_, fun g other => ?_⟩
    · rw [State.modFunc_func, if_pos rfl]
    · rw [State.modFunc_func, if_neg other]

end Sys2Proof.Machine
end

section
/-! SUPPORT. Proofs about SET-FEATURE (R124, R257, R285, R463, R468). -/

namespace Sys2Proof.Machine
open Claims

/-- A SET-FEATURE of a feature `k` that can be set, by a function that may, with a value that it takes, is acted on. -/
theorem setFeature_acts (s : State) (r : Req) (k : Nat) (package ok : Bool) (act : State → State)
    (fields : fieldsOk r 0xFFFF false false false 32 40 = true) (right : package = false ∨ isPrimary r = true) (number : feature r = k)
    (settable : [3, 4, 5].contains k = true) (value : ok = true) : setFeature package ok act s r = act s := by
  have known : k ≠ 1 := by
    rintro rfl
    exact absurd settable (by decide)
  have may : (!(package || feature r = 1) || isPrimary r) = true := by
    rcases right with right | right <;> simp [right, number, known]
  rw [setFeature, accepts, fields, may, number, settable, value]
  rfl

section
variable {s : State} {src : EntrySrc} {r : Req} {act : State → Req → State} {t : State}

/-- The run of a SET-FEATURE that sets feature `k`. -/
theorem run_serve_isSet (h : Asks s src 0x84 r) (i : Instr) (k : Nat) (hw : i.wf = src.ok) (number : feature r = k) (acts : act s r = t) :
    run i s (fun s => serve s src (isSet k) act) = .next (settle s t) := by
  have ⟨_, _, opcode, _⟩ := h
  rw [run_serve h i _ act hw (by simp [isSet, isOp, opcode, number]), acts]

/-- The run of a SET-FEATURE of SLEEP_POLICY whose bit WARM_RESET is `warm`. -/
theorem run_serve_isSetSleep (h : Asks s src 0x84 r) (i : Instr) (warm : Bool) (hw : i.wf = src.ok) (number : feature r = 4)
    (top : bit (featureValue r) 63 = warm) (acts : act s r = t) :
    run i s (fun s => serve s src (isSetSleep warm) act) = .next (settle s t) := by
  have ⟨_, _, opcode, _⟩ := h
  rw [run_serve h i _ act hw (by simp [isSetSleep, isSet, isOp, opcode, number, top]), acts]

end

/-- A sleep policy whose upper bits are 0 has its reserved bits 0 and does not ask for the warm reset. -/
theorem sleepPolicy_fields (v : Nat) (upper : fld v 36 28 = 0) : fld v 36 27 = 0 ∧ bit v 63 = false := by
  unfold fld at upper ⊢
  refine ⟨by omega, ?_⟩
  rw [bit, beq_eq_false_iff_ne]
  omega

/-- Settles O14: each feature is the action of its row, which the checks of a SET-FEATURE let through. Of CHORD_RESERVE the clusters of a lost half
are left out, and a bridge that is down makes the entry wait (log 27). -/
theorem featuresAreSet : Obligations.FeaturesAreSet := by
  refine ⟨?reserve, ?sleep, ?warm, ?notify⟩
  case reserve =>
    intro s src r ⟨asks, fields, primary⟩ number value now
    refine run_serve_isSet (act := setReserveAct) asks (.setChordReserve src) 3 rfl number ?_
    rw [setReserveAct, if_neg (by rw [now]; decide)]
    exact setFeature_acts s r 3 true (featureValue r ≤ 32) _ fields (.inr primary) number rfl (decide_eq_true value)
  case sleep =>
    intro s src r ⟨asks, fields, primary⟩ number upper
    obtain ⟨reserved, plain⟩ := sleepPolicy_fields _ upper
    refine run_serve_isSetSleep (act := setSleepAct) asks (.setSleepPolicy src) false rfl number plain ?_
    exact setFeature_acts s r 4 true (fld (featureValue r) 36 27 = 0) _ fields (.inr primary) number rfl (decide_eq_true reserved)
  case warm =>
    intro s src r ⟨asks, fields, primary⟩ number value
    have top : bit (featureValue r) 63 = true := by rw [featureValue, value]; decide
    refine run_serve_isSetSleep (act := warmResetAct) asks (.warmReset src) true rfl number top ?_
    exact setFeature_acts s r 4 true (featureValue r = 2 ^ 63) _ fields (.inr primary) number rfl (decide_eq_true value)
  case notify =>
    intro s src r ⟨asks, fields, _⟩ number value
    refine run_serve_isSet (act := setNotifyAct) asks (.setMailboxNotify src) 5 rfl number ?_
    exact setFeature_acts s r 5 false (featureValue r ≤ 1) _ fields (.inl rfl) number rfl (decide_eq_true value)

end Sys2Proof.Machine
end

section
/-! SUPPORT. Proofs about package, port and function resets and the links of PCIe ports (R133, R147, R149, R466, R469, R470). -/

namespace Sys2Proof.Machine

/-! ### Resets that begin -/

/-- A package warm reset that has not begun resets every function (R466). -/
theorem warmBegin_begins (pw : PortWriter) (s : State) (first : s.pkg.warmAt = none) :
    warmBegin pw s = (List.range 8).foldl (fun s f => functionReset pw s f functionResetReason)
      (s.modPkg (fun p => { p with warmAt := some s.edges, warmDue := false })) := by
  rw [warmBegin, first]
  rfl

/-- PERST of a port that is not in reset resets its four functions, its link being gone (R133, R149). -/
theorem portResets_begins (s : State) (p : Nat) (die : dieUp s p = true) (first : portInReset s p = false) :
    portResets s p = (rangeL (4 * p) 4).foldl (fun s f => resetOrWait portPw s f portResetReason)
      (readsLost (setPort s p false true) (fun r => fnPort r.fn = p)) := by
  rw [portResets, die, first]
  rfl

/-- FLR of a function that is there and is not being reset (R147). -/
theorem functionResets_begins (s : State) (f : Nat) (die : dieUp s (fnPort f) = true) (present : fnPresent s f = true)
    (port : portInReset s (fnPort f) = false) (first : (s.func f).inReset = false) :
    functionResets s f = resetOrWait portPw s f functionResetReason := by
  rw [functionResets, die, present, port, first]
  rfl

/-! ### The half of the port reloads its firmware (R469) -/

section
variable (pw : PortWriter) (s : State) (f : Nat) (reason : Byte)

theorem resetOrWait_now (serves : s.pkg.reloading ≠ some (fnPort f)) : resetOrWait pw s f reason = functionReset pw s f reason := by
  rw [resetOrWait, if_neg serves]

theorem resetOrWait_waits (reloads : s.pkg.reloading = some (fnPort f)) :
    resetOrWait pw s f reason = s.modFunc f (fun x => { x with
      inReset := true, resetAt := if x.inReset then x.resetAt else s.edges, held := [], resetWait := some reason }) := by
  rw [resetOrWait, if_pos reloads]

end

/-- Settles O40: each reset that is the first of its kind begins, an FLR as the port's half lets it; programs end with the reason of a function reset
where the package resets (log 18). -/
theorem functionAndPortResets : Obligations.FunctionAndPortResets := by
  refine ⟨?package, ?port, ?function, ?linkDown, ?linkUp⟩
  case package =>
    intro s first
    refine (run_eq .packageWarmReset s (warmBegin portPw) rfl).trans ?_
    rw [warmBegin_begins portPw s first]
  case port =>
    intro s p hp die first
    refine (run_eq (.pciePortReset p) s (fun s => portResets s p) (decide_eq_true hp)).trans ?_
    rw [portResets_begins s p die first]
  case function =>
    intro s f hf die present port first
    have resets : exec (.functionLevelReset f) s = .next (settle s (functionResets s f)) :=
      run_eq (.functionLevelReset f) s (fun s => functionResets s f) (decide_eq_true hf)
    rw [functionResets_begins s f die present port first] at resets
    refine ⟨fun serves => resets.trans ?_, fun reloads => resets.trans ?_⟩
    · rw [resetOrWait_now portPw s f _ serves]
    · rw [resetOrWait_waits portPw s f _ reloads]
  case linkDown =>
    intro s p hp
    exact run_eq (.pcieLinkDown p) s (fun s => portGone (setPort s p false (portInReset s p)) p) (decide_eq_true hp)
  case linkUp =>
    intro s p hp die
    refine (run_eq (.pcieLinkUp p) s (fun s => if dieUp s p then setPort s p true false else s) (decide_eq_true hp)).trans ?_
    rw [if_pos die]

end Sys2Proof.Machine
end

section
/-! SUPPORT. Proofs about the packets of Polob links (R21, R132, R433–R437, R440, R445, R451). -/

namespace Sys2Proof.Machine
open Claims

/-! ### A packet in sequence (R434, R435) -/

/-- A port that takes packets accepts the one it expects next, while its receive buffer has a place. -/
theorem packetIn_accepts (s : State) (p : Nat) (h : PktHdr) (ch : Nat) (back standoff : Bool)
    (trained : (s.port p).st = .up ∨ standoff = true ∧ (s.port p).st = .standoff) (crc : h.crcOk = true)
    (seq : h.seq = (s.port p).rxSeq) (room : rxRoom s p ch = true) :
    packetIn s p h ch back standoff = (true, packetTaken s p ch back) := by
  rcases trained with trained | ⟨allowed, trained⟩
  · simp [packetIn, trained, crc, seq, room]
  · simp [packetIn, allowed, trained, crc, seq, room]

section
variable {s t : State} {p : Nat} {h : PktHdr} {it : LinkItem}

/-- A packet that is accepted is acted on by the device that it names, and goes on from any other. -/
theorem packetFor_accepted (takes : TakesPacket s p h it t) (f : State → State) :
    packetFor s p h it f = if h.dest = s.pkg.sysId then f t else relay t p h.dest.toNat it := by
  obtain ⟨-, alive, up, crc, seq, room, rfl⟩ := takes
  rw [packetFor, packetIn_accepts s p h _ _ false (.inl up) crc seq room]
  simp only [alive]
  rfl

/-- The run of a command that brings such a packet. -/
theorem run_packetFor (takes : TakesPacket s p h it t) (i : Instr) (f : State → State) (hw : i.wf = decide (p < 4)) :
    (h.dest = s.pkg.sysId → run i s (fun s => packetFor s p h it f) = .next (settle s (f t))) ∧
    (h.dest ≠ s.pkg.sysId → run i s (fun s => packetFor s p h it f) = .next (settle s (relay t p h.dest.toNat it))) := by
  have runs := run_eq i s (fun s => packetFor s p h it f) (hw.trans (decide_eq_true takes.1))
  rw [packetFor_accepted takes f] at runs
  refine ⟨fun here => runs.trans ?_, fun elsewhere => runs.trans ?_⟩
  · rw [if_pos here]
  · rw [if_neg elsewhere]

end

/-! ### JOIN and HANDBACK (R445, R451) -/

/-- A JOIN in sequence is taken where it arrives. -/
theorem joinArrives_accepted (s : State) (p : Nat) (h : PktHdr) (ids : Word) (alive : portAlive s p = true) (up : (s.port p).st = .up)
    (crc : h.crcOk = true) (seq : h.seq = (s.port p).rxSeq) (room : rxRoom s p 0 = true) :
    joinArrives s p h ids = joinIn (packetTaken s p 0 true) p ids := by
  rw [joinArrives, packetIn_accepts s p h 0 true false (.inl up) crc seq room, alive]
  rfl

/-- A HANDBACK in sequence is taken in STANDOFF. -/
theorem handbackArrives_accepted (s : State) (p : Nat) (h : PktHdr) (alive : portAlive s p = true) (off : (s.port p).st = .standoff)
    (crc : h.crcOk = true) (seq : h.seq = (s.port p).rxSeq) (room : rxRoom s p 0 = true) :
    handbackArrives s p h = handbackIn (packetTaken s p 0 true) := by
  rw [handbackArrives, packetIn_accepts s p h 0 true true (.inr ⟨rfl, off⟩) crc seq room, alive]
  rfl

/-- The apex that stands off leaves STANDOFF as root, with the next EPOCH, and its ports come up. -/
theorem handbackIn_takes (s : State) (apex : s.pkg.sysId = 0) (off : s.pkg.standoff = true) :
    handbackIn s = retree portPw ((List.range 4).foldl
      (fun s p => withSourceEdge s (515 + 8 * (p / 2)) (fun s => s.modPort p (fun x => if x.st = .standoff then { x with st := .up } else x)))
      (s.modPkg (fun k => { k with standoff := false, epoch := k.epoch + 1, takeovers := k.takeovers + 1, root := 0 }))) := by
  rw [handbackIn, apex, off]
  rfl

/-- Settles O49: the four packets that name a device are runs of one rule, with the place that a relayed packet keeps in the receive buffer (log 75);
a JOIN and a HANDBACK go no further than the next device, a HANDBACK being acknowledged in STANDOFF too (log 43, log 75). -/
theorem packetsArriveOrGoOn : Obligations.PacketsArriveOrGoOn := by
  refine ⟨?cmd, ?data, ?result, ?subscribe, ?join, ?handback⟩
  case cmd =>
    intro s p h t cmd takes
    exact run_packetFor takes (.laneCmdPacket p h cmd) _ rfl
  case data =>
    intro s p h t lane slot data takes
    exact run_packetFor takes (.laneDataPacket p h lane slot data) _ rfl
  case result =>
    intro s p h t slot tag gen res data takes
    exact run_packetFor takes (.laneResultPacket p h slot tag gen res data) _ rfl
  case subscribe =>
    intro s p h t index v on takes
    exact run_packetFor takes (.subscribePacket p h index v on) _ rfl
  case join =>
    intro s p h t ids hp alive up crc seq room ht
    refine (run_eq (.joinPacket p h ids) s (fun s => joinArrives s p h ids) (decide_eq_true hp)).trans ?_
    rw [joinArrives_accepted s p h ids alive up crc seq room, ht]
  case handback =>
    intro s p h t hp alive standoff crc seq room apex off ht
    refine (run_eq (.handbackPacket p h) s (fun s => handbackArrives s p h) (decide_eq_true hp)).trans ?_
    rw [handbackArrives_accepted s p h alive standoff crc seq room, ← ht, handbackIn_takes t (by rw [ht]; exact apex) (by rw [ht]; exact off)]

end Sys2Proof.Machine
end

section
/-! SUPPORT. Proofs about chords that fire (R212, R216, R219, R223–R225) and the lead segments that they launch on lanes (R186, R207–R209). -/

namespace Sys2Proof.Machine

/-! ### The commands as runs -/

theorem exec_chordFire (s : State) (c : Nat) (cuts : List LaneCut) (hc : c < 4096) (hd : dieUp s (chordDie c) = true) :
    exec (.chordFire c cuts) s = .next (settle s (chordLaunch portPw s c cuts)) := by
  refine (run_eq (.chordFire c cuts) s _ (decide_eq_true hc)).trans ?_
  rw [if_pos hd]

theorem exec_chordHoldoffEnd (s : State) (c : Nat) (hc : c < 4096) :
    exec (.chordHoldoffEnd c) s = .next (settle s (holdoffEnds s c)) :=
  run_eq (.chordHoldoffEnd c) s (fun s => holdoffEnds s c) (decide_eq_true hc)

section
variable (s : State) {n : Nat} (hn : n < 384) (runs : launcherRuns s n = true)
include hn runs

theorem exec_leadStroke : exec (.leadStroke n) s = .next (settle s (strokeStarts s n)) := by
  refine (run_eq (.leadStroke n) s _ (decide_eq_true hn)).trans ?_
  rw [if_pos runs]

theorem exec_pulseEnd : exec (.pulseEnd n) s = .next (settle s (pulseEnds s n)) := by
  refine (run_eq (.pulseEnd n) s _ (decide_eq_true hn)).trans ?_
  rw [if_pos runs]

theorem exec_leadFrameStart : exec (.leadFrameStart n) s = .next (settle s (frameStarts s n)) := by
  refine (run_eq (.leadFrameStart n) s _ (decide_eq_true hn)).trans ?_
  rw [if_pos runs]

theorem exec_leadFrameEnd : exec (.leadFrameEnd n) s = .next (settle s (frameEnds s n)) := by
  refine (run_eq (.leadFrameEnd n) s _ (decide_eq_true hn)).trans ?_
  rw [if_pos runs]

end

/-! ### Clusters and chords -/

@[simp] theorem modCluster_chord (s : State) (n k : Nat) (f : Cluster → Cluster) : (s.modCluster n f).chord k = s.chord k := rfl
@[simp] theorem modChord_cluster (s : State) (n k : Nat) (f : Chord → Chord) : (s.modChord n f).cluster k = s.cluster k := rfl

/-! ### What a black-box record and a request for clocks leave of the chords (R45, R417) -/

/-- The chords, the clusters' lists and the PKG block are the same in two states. -/
structure SameChords (s t : State) : Prop where
  chords : t.chords = s.chords
  clusters : t.clusters = s.clusters
  pkg : t.pkg = s.pkg

theorem SameChords.refl (s : State) : SameChords s s := ⟨rfl, rfl, rfl⟩

theorem SameChords.trans {s t u : State} (h : SameChords s t) (k : SameChords t u) : SameChords s u :=
  ⟨k.chords.trans h.chords, k.clusters.trans h.clusters, k.pkg.trans h.pkg⟩

theorem SameChords.modDie (s : State) (d : Nat) (f : Die → Die) : SameChords s (s.modDie d f) :=
  ⟨State.modDie_chords s d f, State.modDie_clusters s d f, State.modDie_pkg s d f⟩

theorem SameChords.modRegion (s : State) (r : Nat) (f : Region → Region) : SameChords s (s.modRegion r f) := ⟨rfl, rfl, rfl⟩

theorem SameChords.ite {s t u : State} (p : Prop) [Decidable p] (ht : SameChords s t) (hu : SameChords s u) :
    SameChords s (if p then t else u) := by
  split
  · exact ht
  · exact hu

theorem pendShared_sameChords (s : State) (n : Nat) (kind : BitVec 5) (data : Nat) : SameChords s (pendShared s n kind data) := by
  unfold pendShared
  refine .ite _ (.refl s) ?_
  split <;> exact ⟨rfl, rfl, rfl⟩

theorem sourceEdge_sameChords (s : State) (n : Nat) (lvl : Bool) : SameChords s (sourceEdge s n lvl) := by
  have sampled : SameChords s (sampleLevel s n) := .ite _ (pendShared_sameChords ..) (.refl s)
  exact .ite _ (.ite _ sampled (.refl s)) (.ite _ (pendShared_sameChords ..) (.ite _ (pendShared_sameChords ..) (.refl s)))

theorem withSourceEdge_sameChords (s : State) (n : Nat) (f : State → State) (h : SameChords s (f s)) :
    SameChords s (withSourceEdge s n f) :=
  .ite _ h (h.trans (sourceEdge_sameChords ..))

theorem bbxRecord_sameChords (s : State) (d kind arg : Nat) (detail : List Byte) : SameChords s (bbxRecord s d kind arg detail) := by
  have frozen (t : State) (cause : BitVec 3) : SameChords t (bbxFreezeBox t d cause) :=
    .ite _ (.refl t) (withSourceEdge_sameChords _ _ _ (.modDie ..))
  exact .ite _ (.modDie ..) (.ite _ ((SameChords.modDie ..).trans (frozen ..)) (.modDie ..))

theorem askClocks_sameChords (s : State) (c : Nat) : SameChords s (askClocks s c) := by
  unfold askClocks
  exact (SameChords.modRegion ..).trans (.modDie ..)

section
variable {s t : State} (h : SameChords s t)
include h

theorem SameChords.chord (k : Nat) : t.chord k = s.chord k := by rw [State.chord, h.chords]; rfl
theorem SameChords.cluster (k : Nat) : t.cluster k = s.cluster k := by rw [State.cluster, h.clusters]; rfl
theorem SameChords.hasStandby (k : Nat) : hasStandby t k = hasStandby s k := by
  rw [Machine.hasStandby, isStandby, pairOf, h.pkg]; rfl

end

/-! ### Firing (R212, R216, R219, R223–R225) -/

/-- A chord with no standby enters a state alone. -/
theorem chordTo_alone (s : State) (c : Nat) (st : ChordState) (alone : hasStandby s c = false) :
    chordTo s c st = s.modChord c (fun x => { x with st := st }) :=
  if_neg (Bool.eq_false_iff.1 alone)

/-- The event that fired chord `x` by match `m`: the vertex of the completing trigger and its index (R224, R227). -/
def firedBy (x : Chord) (m : Match) : Word := w32 (trigVertex (recTrigger x.record m.trigger) + 4096 * m.trigger)

/-- A chord that the event `last` fires, as its launch tick counts and stamps it. -/
def chordStamped (s : State) (last : Word) (x : Chord) : Chord :=
  { x with matched := none, launch := s.edges, running := [], firings := x.firings + 1, fireTime := s.pilot, fireInfo := last, fireEnd := 0 }

/-- The entry that chord `c`, standing at `x` and fired by the event `last`, puts on its cluster's list (R223, R224). -/
def chainStart (c : Nat) (x : Chord) (last : Word) : ChainStart :=
  { chord := c, gen := x.gen, chain := w64 (recChain x.record), laneRes := w32 (lostClaims x), lastIn := last }

/-- Match `m` of chord `c` is stamped, and the chord's claims are launched (R219). -/
def claimsLaunched (pw : PortWriter) (s : State) (c : Nat) (cuts : List LaneCut) (m : Match) : State :=
  let x := s.chord c
  let s := s.modChord c (chordStamped s (firedBy x m))
  let s := if x.st = .armed then chordTo s c .firing else s
  let s := if hasStandby s c then modPair s c (fun p => { p with kept := none }) else s
  launchClaims pw c cuts ((recClaims x.record).map Prod.fst) s

/-- A cluster with the chain of such a chord last on its list. -/
def chainTaken (c : Nat) (x : Chord) (last : Word) (q : Cluster) : Cluster := { q with chords := q.chords ++ [chainStart c x last] }

/-- A chord whose chain is on the list. -/
def chainWaits (x : Chord) : Chord := { x with chainLive := true }

/-- Chord `c`, standing at `y`, puts its follow-on chain, where it has one, on its cluster's list (R223). -/
def chainListed (s : State) (c : Nat) (y : Chord) (last : Word) : State :=
  if recChain y.record = 0 then s else (s.modCluster (chordCluster c) (chainTaken c y last)).modChord c chainWaits

/-- The launch reaches the clocks and the black box (R45, R417). -/
def launchRecorded (s : State) (c : Nat) : State :=
  let s := askClocks s (chordCluster c)
  let y := s.chord c
  bbxRecord s (chordDie c) 0x03 (c + 4096 * y.gen.toNat + 65536 * recOwner y.record) (leBytes 4 y.fireInfo.toNat)

/-- What follows the launch of the claims in the launch tick. -/
def launchOver (s : State) (c : Nat) (last : Word) : State :=
  let y := (askClocks s (chordCluster c)).chord c
  let s := chainListed (launchRecorded s c) c y last
  if (s.chord c).running.isEmpty then chordSegmentsDone s c else s

theorem chordLaunch_of_matched (pw : PortWriter) (s : State) (c : Nat) (cuts : List LaneCut) (m : Match) (hm : (s.chord c).matched = some m) :
    chordLaunch pw s c cuts = launchOver (claimsLaunched pw s c cuts m) c (firedBy (s.chord c) m) := by
  show (match (s.chord c).matched with | none => s | some m => launchOver (claimsLaunched pw s c cuts m) c (firedBy (s.chord c) m)) = _
  rw [hm]

theorem launchRecorded_sameChords (s : State) (c : Nat) : SameChords s (launchRecorded s c) :=
  (askClocks_sameChords ..).trans (bbxRecord_sameChords ..)

/-- A FIRING chord whose segments have all ended, and whose chain is on the list, is FOLLOWING (R216). -/
theorem chordSegmentsDone_follows (s : State) (c : Nat) (firing : (s.chord c).st = .firing) (chain : recChain (s.chord c).record ≠ 0)
    (live : (s.chord c).chainLive = true) : chordSegmentsDone s c = chordTo s c .following := by
  simp [chordSegmentsDone, firing, chain, live]

/-- A chord with no claims and a chain that has been launched is FOLLOWING at once, its chain on its cluster's list. -/
theorem launchOver_chain {v : State} {c : Nat} {x : Chord} (last : Word) (stands : v.chord c = x) (firing : x.st = .firing)
    (idle : x.running = []) (chain : recChain x.record ≠ 0) :
    launchOver v c last =
      chordTo (((launchRecorded v c).modCluster (chordCluster c) (chainTaken c x last)).modChord c chainWaits) c .following := by
  have asked : (askClocks v (chordCluster c)).chord c = x := ((askClocks_sameChords ..).chord c).trans stands
  have listed : chainListed (launchRecorded v c) c x last = _ := if_neg chain
  have waits : (((launchRecorded v c).modCluster (chordCluster c) (chainTaken c x last)).modChord c chainWaits).chord c = chainWaits x := by
    rw [State.modChord_chord, if_pos rfl, modCluster_chord, (launchRecorded_sameChords ..).chord, stands]
  rw [← chordSegmentsDone_follows _ c (by rw [waits]; exact firing) (by rw [waits]; exact chain) (by rw [waits]; rfl)]
  simp only [launchOver, asked, listed, waits, chainWaits, idle, List.isEmpty_nil, if_true]

/-- Chord `c` stands ARMED with match `m`; it has no standby and no claims, but a follow-on chain. -/
structure FiresChain (s : State) (c : Nat) (m : Match) : Prop where
  matched : (s.chord c).matched = some m
  armed : (s.chord c).st = .armed
  alone : hasStandby s c = false
  noClaims : recClaims (s.chord c).record = []
  chain : recChain (s.chord c).record ≠ 0

/-- Chord `c` is stamped and FIRING: match `m` has fired it. -/
def chordFired (s : State) (c : Nat) (m : Match) : State :=
  (s.modChord c (chordStamped s (firedBy (s.chord c) m))).modChord c (fun x => { x with st := .firing })

/-- The chord itself in that state. -/
def chordFiring (s : State) (c : Nat) (m : Match) : Chord := { chordStamped s (firedBy (s.chord c) m) (s.chord c) with st := .firing }

/-- The same chord once its chain is on its cluster's list (R216). -/
def chordFollowing (s : State) (c : Nat) (m : Match) : Chord := { chainWaits (chordFiring s c m) with st := .following }

section
variable {s : State} {c : Nat} {m : Match} (h : FiresChain s c m) (cuts : List LaneCut)
include h

theorem claimsLaunched_none (pw : PortWriter) : claimsLaunched pw s c cuts m = chordFired s c m := by
  have fires : chordTo (s.modChord c (chordStamped s (firedBy (s.chord c) m))) c .firing = chordFired s c m := chordTo_alone _ _ _ h.alone
  have noPair : hasStandby (chordFired s c m) c = false := h.alone
  simp only [claimsLaunched, if_pos h.armed, fires, noPair, h.noClaims, List.map_nil, launchClaims, Bool.false_eq_true, if_false]

/-- A launch without claims stamps the chord, puts its chain on the list, and touches no other chord. -/
theorem chordLaunch_chain :
    (∀ k, (chordLaunch portPw s c cuts).chord k = if k = c then chordFollowing s c m else s.chord k) ∧
    ((chordLaunch portPw s c cuts).cluster (chordCluster c)).chords =
      (s.cluster (chordCluster c)).chords ++ [chainStart c (chordFiring s c m) (firedBy (s.chord c) m)] := by
  have stands : (chordFired s c m).chord c = chordFiring s c m := by simp [chordFired, chordFiring]
  have others (k : Nat) (hk : k ≠ c) : (chordFired s c m).chord k = s.chord k := by simp [chordFired, hk]
  have lists : (chordFired s c m).cluster (chordCluster c) = s.cluster (chordCluster c) := rfl
  have recorded := launchRecorded_sameChords (chordFired s c m) c
  rw [chordLaunch_of_matched _ s c cuts m h.matched, claimsLaunched_none h, launchOver_chain _ stands rfl rfl h.chain, chordTo_alone]
  · refine ⟨fun k => ?_, ?_⟩
    · by_cases hk : k = c
      · simp [hk, recorded.chord, stands, chainWaits, chordFollowing]
      · simp [hk, recorded.chord, others]
    · simp [recorded.cluster, lists, chainTaken]
  · exact (recorded.hasStandby c).trans h.alone

end

/-- The hold-off of a chord is over (R216). -/
theorem holdoffEnds_due (s : State) (c : Nat) (st : (s.chord c).st = .holdoff) (hd : dieUp s (chordDie c) = true)
    (due : (s.chord c).launch + recHoldoff (s.chord c).record ≤ s.edges) : holdoffEnds s c = armEntry s c := by
  simp [holdoffEnds, st, hd, due]

/-! ### Strokes (R207, R208) -/

/-- A stroke segment `x` runs on lane `n`, and its next stroke is due. -/
structure StrokeDue (s : State) (n : Nat) (x : Lead) : Prop where
  lead : (s.lane n).lead = some x
  strokes : x.frame = false
  opened : x.closed = false
  noPulse : x.pulse = none
  due : x.due ≤ s.edges
  more : x.stroke < strokeCount x.param.toNat

/-- Lane `n` holds the segment `x`. -/
def leadPut (s : State) (n : Nat) (x : Lead) : State := s.modLane n (fun l => { l with lead := some x })

section
variable {s : State} {n m : Nat} {x : Lead} {pinB : Bool} (h : StrokeDue s n x) (pin : leadPin n (strokePin x.seg x.stroke) = (m, pinB))
include h pin

/-- A stroke that is due acts on its pin. -/
theorem strokeStarts_due : strokeStarts s n =
    if strokeAction x.seg x.stroke < 3 then
      leadPut (if strokeAction x.seg x.stroke = 2 then setDrive s m pinB (some .hiz) else driveTo s m pinB (strokeAction x.seg x.stroke = 0)) n
        (nextStroke x s.edges)
    else
      leadPut (driveTo s m pinB (strokeAction x.seg x.stroke = 3)) n { x with pulse := some {
        pin := strokePin x.seg x.stroke, before := pinHeld s m pinB, until_ := s.edges + strokeWidth x.seg x.stroke } } := by
  obtain ⟨lead, strokes, opened, noPulse, due, more⟩ := h
  have acts : (x.frame || x.closed || x.pulse.isSome || decide (s.edges < x.due) || decide (strokeCount x.param.toNat ≤ x.stroke)) = false := by
    simp [strokes, opened, noPulse, due, more]
  simp only [strokeStarts, lead, acts, pin]
  by_cases release : strokeAction x.seg x.stroke = 2
  · rw [release]
    rfl
  · simp only [if_neg release]
    rfl

/-- Action 0 drives the pin high and action 1 low, and the stroke is over. -/
theorem strokeStarts_level (k : Nat) (action : strokeAction x.seg x.stroke = k) (level : k < 2) :
    strokeStarts s n = leadPut (driveTo s m pinB (k = 0)) n (nextStroke x s.edges) := by
  rw [strokeStarts_due h pin, action, if_pos (by omega), if_neg (by omega)]

theorem strokeStarts_release (action : strokeAction x.seg x.stroke = 2) :
    strokeStarts s n = leadPut (setDrive s m pinB (some .hiz)) n (nextStroke x s.edges) := by
  rw [strokeStarts_due h pin, action, if_pos (by omega), if_pos rfl]

/-- The other actions begin a pulse. -/
theorem strokeStarts_pulse (action : 3 ≤ strokeAction x.seg x.stroke) :
    strokeStarts s n = leadPut (driveTo s m pinB (strokeAction x.seg x.stroke = 3)) n { x with pulse := some {
        pin := strokePin x.seg x.stroke, before := pinHeld s m pinB, until_ := s.edges + strokeWidth x.seg x.stroke } } := by
  rw [strokeStarts_due h pin, if_neg (by omega)]

end

/-- A pulse whose width is over returns its pin to the state it had. -/
theorem pulseEnds_due {s : State} {n : Nat} {x : Lead} {u : Pulse} (lead : (s.lane n).lead = some x) (pulse : x.pulse = some u)
    (past : u.until_ ≤ s.edges) :
    pulseEnds s n = leadPut (setDrive s (leadPin n u.pin).1 (leadPin n u.pin).2 u.before) n (nextStroke x s.edges) := by
  simp only [pulseEnds, lead, pulse, if_neg (Nat.not_lt.2 past)]
  rfl

/-! ### Lead frames (R186, R209) -/

/-- The first tick of a frame: the clock at CPOL or, with CPHA, at its first edge, and data at its first bit. -/
theorem frameLevels_first (l : Lane) (x : Lead) (half : x.half ≠ 0) (bits : fld x.param.toNat 0 8 ≠ 0) :
    frameLevels l x 0 = (wb l.frmCfg 7 != wb l.frmCfg 8, (bytesBits (wb l.frmCfg 9) x.seg).head?) := by
  simp [frameLevels, half, bits, List.head?_eq_getElem?]

/-- Past its bits and its tail: the clock at CPOL, data released. -/
theorem frameLevels_over (l : Lane) (x : Lead) (t : Nat) (half : x.half ≠ 0)
    (past : 2 * x.half * (fld x.param.toNat 0 8 + fld x.param.toNat 8 4) ≤ t) : frameLevels l x t = (wb l.frmCfg 7, none) := by
  have out : fld x.param.toNat 0 8 + fld x.param.toNat 8 4 ≤ t / (2 * x.half) :=
    (Nat.le_div_iff_mul_le (by omega)).2 (by rw [Nat.mul_comm]; exact past)
  exact if_pos out

/-- The clock pin of the frames of lane `n` at a level. -/
def clockSet (s : State) (n : Nat) (clk : Bool) : State :=
  setDrive s (leadPin n (wf (s.lane n).frmCfg 0 2)).1 (leadPin n (wf (s.lane n).frmCfg 0 2)).2 (some (if clk then .high else .low))

section
variable {s : State} {n t : Nat} {x : Lead} {clk : Bool}

theorem framePins_bit {b : Bool} (levels : frameLevels (s.lane n) x t = (clk, some b)) : framePins s n x t =
    driveTo (clockSet s n clk) (leadPin n (wf (s.lane n).frmCfg 2 2)).1 (leadPin n (wf (s.lane n).frmCfg 2 2)).2 b := by
  simp only [framePins, levels]
  rfl

theorem framePins_released (levels : frameLevels (s.lane n) x t = (clk, none)) : framePins s n x t =
    setDrive (clockSet s n clk) (leadPin n (wf (s.lane n).frmCfg 2 2)).1 (leadPin n (wf (s.lane n).frmCfg 2 2)).2 (some .hiz) := by
  simp only [framePins, levels]
  rfl

end

/-- A lead frame `x` runs or is to run on lane `n`. -/
structure FrameOpen (s : State) (n : Nat) (x : Lead) : Prop where
  lead : (s.lane n).lead = some x
  frame : x.frame = true
  opened : x.closed = false
  due : x.due ≤ s.edges

theorem frameStarts_due {s : State} {n : Nat} {x : Lead} (h : FrameOpen s n x) (waits : x.begun = false) :
    frameStarts s n = leadPut (framePins s n x (s.edges - frameFrom x)) n { x with
      begun := true, due := frameFrom x + 2 * x.half * (fld x.param.toNat 0 8 + fld x.param.toNat 8 4) } := by
  have starts : (!x.frame || x.begun || x.closed || decide (s.edges < x.due)) = false := by simp [h.frame, waits, h.opened, h.due]
  simp only [frameStarts, h.lead, starts]
  rfl

theorem frameEnds_due {s : State} {n : Nat} {x : Lead} (h : FrameOpen s n x) (begun : x.begun = true) :
    frameEnds s n = leadPut (framePins s n x (s.edges - frameFrom x)) n { x with closed := true } := by
  have ends : (!x.frame || !x.begun || x.closed || decide (s.edges < x.due)) = false := by simp [h.frame, begun, h.opened, h.due]
  simp only [frameEnds, h.lead, ends]
  rfl

/-- Settles O31: each command is the run of what the chord or the segment is due to do, which has its equation above. -/
theorem chordsFireAndLeadSegmentsRun : Obligations.ChordsFireAndLeadSegmentsRun := by
  refine ⟨?launch, ?chain, ?holdoff, ?stroke, ?pulse, ?frame⟩
  case launch =>
    intro s c cuts hc hd _
    exact exec_chordFire s c cuts hc hd
  case chain =>
    intro s c cuts m hc hd matched armed alone noClaims chain
    obtain ⟨chords, list⟩ := chordLaunch_chain ⟨matched, armed, alone, noClaims, chain⟩ cuts
    refine ⟨_, exec_chordFire s c cuts hc hd, ?_⟩
    simp only [settle_chord, settle_cluster, chords, if_true, list]
    exact ⟨rfl, rfl, rfl, rfl, rfl, rfl, rfl, fun k hk => if_neg hk, rfl⟩
  case holdoff =>
    intro s c hc hd st due
    rw [exec_chordHoldoffEnd s c hc, holdoffEnds_due s c st hd due]
  case stroke =>
    intro s n x m pinB hn runs lead strokes opened noPulse due more pin
    have h : StrokeDue s n x := ⟨lead, strokes, opened, noPulse, due, more⟩
    rw [exec_leadStroke s hn runs]
    refine ⟨fun drive => ?_, fun drive => ?_, fun release => ?_, fun pulse => ?_⟩
    · rw [strokeStarts_level h pin 0 drive (by omega)]; rfl
    · rw [strokeStarts_level h pin 1 drive (by omega)]; rfl
    · rw [strokeStarts_release h pin release]; rfl
    · rw [strokeStarts_pulse h pin pulse]; rfl
  case pulse =>
    intro s n x u hn runs lead pulse past
    rw [exec_pulseEnd s hn runs, pulseEnds_due lead pulse past]
    rfl
  case frame =>
    intro s n x from_ ce de hn runs lead frame opened half hfrom hce hde
    subst hfrom hce hde
    refine ⟨fun b waits now due bits first => ?_, fun begun last due => ?_⟩
    · have levels := frameLevels_first (s.lane n) x half bits
      rw [first] at levels
      rw [exec_leadFrameStart s hn runs, frameStarts_due ⟨lead, frame, opened, due⟩ waits, now, frameFrom, Nat.sub_self, framePins_bit levels]
      rfl
    · have levels := frameLevels_over (s.lane n) x (s.edges - frameFrom x) half (by rw [frameFrom]; omega)
      rw [exec_leadFrameEnd s hn runs, frameEnds_due ⟨lead, frame, opened, due⟩ begun, framePins_released levels]
      rfl

end Sys2Proof.Machine
end

section
/-! SUPPORT. Proofs about the register writes with behaviour of their own of lanes, windows and meters (R167, R231, R245, R246). -/

namespace Sys2Proof.Machine

/-! ### The commands as runs -/

section
variable (s : State) {who : Who} (ok : who.ok = true)
include ok

theorem exec_laneCfgWrite (n : Nat) (v : Word) (hn : n < 384) (hr : portReach s who (laneDie n) = true) :
    exec (.laneCfgWrite who n v) s = .next (settle s (laneStreams (cfgWrite s who n (laneOff n 0) v).2 n)) := by
  refine (run_eq (.laneCfgWrite who n v) s _ (Bool.and_eq_true_iff.2 ⟨ok, decide_eq_true hn⟩)).trans ?_
  rw [if_pos hr]
  rfl

theorem exec_snsWinWrite (i k : Nat) (v : Word) (hi : i < 64) (hk : k < 2) (hr : portReach s who (i / 32) = true) :
    exec (.snsWinWrite who i k v) s = .next (settle s (snsWinSet s who i k (0x34008 + 256 * (i % 32) + 4 * k) v)) := by
  refine (run_eq (.snsWinWrite who i k v) s _
    (Bool.and_eq_true_iff.2 ⟨Bool.and_eq_true_iff.2 ⟨ok, decide_eq_true hi⟩, decide_eq_true hk⟩)).trans ?_
  rw [if_pos hr]

theorem exec_mtrSetWrite (m w : Nat) (v : Word) (hm : m < 128) (hw : w < 8) (hr : portReach s who (m / 64) = true) :
    exec (.mtrSetWrite who m w v) s = .next (settle s (meterSetWrite s who m w (meterOff m (4 * w)) v)) := by
  refine (run_eq (.mtrSetWrite who m w v) s _
    (Bool.and_eq_true_iff.2 ⟨Bool.and_eq_true_iff.2 ⟨ok, decide_eq_true hm⟩, decide_eq_true hw⟩)).trans ?_
  rw [if_pos hr]

end

theorem exec_mtrClear (s : State) (m : Nat) (hm : m < 128) (hd : dieUp s (m / 64) = true) :
    exec (.mtrClear m) s = .next (settle s (meterClearRequest s m)) := by
  refine (run_eq (.mtrClear m) s _ (decide_eq_true hm)).trans ?_
  rw [if_pos hd]

/-! ### LANE_CFG (R167, R172) -/

/-- The fields of a LANE_CFG write reach a disabled lane: a new PERSONALITY clears LANE_OPT, and ENABLE starts the lane. -/
def laneTakesCfg (now : Nat) (v : Word) (l : Lane) : Lane :=
  let x := { l with
    cfg := put (v &&& cfgMask) 31 1 0, opt := if wf (v &&& cfgMask) 0 4 != personality l then 0 else l.opt
    shadow := if wf (v &&& cfgMask) 0 4 != personality l then tdel 0x10 l.shadow else l.shadow }
  if wb (v &&& cfgMask) 31 then laneEnabled now x else x

theorem cfgWrite_disabled (s : State) (who : Who) (n off : Nat) (v : Word) (good : cfgBad s n v = false) (disabled : laneOn (s.lane n) = false) :
    cfgWrite s who n off v = (false, safeEnds (pinsKept s (s.modLane n (laneTakesCfg s.edges v)) n) n) := by
  simp only [cfgWrite, good, disabled]
  rfl

/-! ### SNS_WIN (R231) -/

/-- A write that changes THRESHOLD, HYST or MODE of a window holds its level for ten ticks, unless it switches the window off. -/
theorem winTaken_holds (now : Nat) (w : Window) (v : Word) (changed : wf w.reg 0 20 ≠ wf v 0 20) (on : wf v 18 2 ≠ 0) :
    winTaken now w v = { w with reg := v, hold := some (now + 10) } := by
  simp [winTaken, changed, on]

/-- The first window of an input takes a register that keeps it on. -/
theorem snsWinSet_first (s : State) (who : Who) (i off : Nat) (v : Word) (good : wf v 18 2 ≠ 3) (on : wf (w32 (wf v 0 24)) 18 2 ≠ 0) :
    snsWinSet s who i 0 off v = s.modInput i (fun x => { x with win0 := winTaken s.edges x.win0 (w32 (wf v 0 24)) }) := by
  simp only [snsWinSet, if_neg good, if_neg on]
  rfl

/-! ### MTR_SET (R245) -/

/-- The settings that MTR_SET7 commits: the words staged, and for the others what waits or, where nothing waits, what is in force. -/
def meterSettingsStaged (s : State) (m : Nat) (v : Word) : List Byte :=
  ((List.range 7).map (fun i => match tget none (meterStaged s m) i with
    | some w => leBytes 4 w.toNat
    | none => sub (match (s.meter m).next with | some b => b | none => sub (s.meter m).settings 0 32) (4 * i) 4)).flatten ++ leBytes 4 v.toNat

theorem meterSetWrite_stages (s : State) (who : Who) (m w off : Nat) (v : Word) (hw : w < 7) :
    meterSetWrite s who m w off v = s.modDie (m / 64) (fun x => { x with meterStage := some (m, tset none (meterStaged s m) w (some v)) }) :=
  if_pos hw

theorem meterSetWrite_commits (s : State) (who : Who) (m off : Nat) (v : Word) (good : settingsOk (m / 64) (meterSettingsStaged s m v) = true) :
    meterSetWrite s who m 7 off v = meterCommit (s.modDie (m / 64) (fun x => { x with meterStage := none })) m (meterSettingsStaged s m v) :=
  if_pos good

/-- Settles O26: each command is the run of one write. Words that MTR_SET7 finds unstaged come from the pending or the standing set (log 47),
and a die has one staging buffer for its meters (log 74). -/
theorem laneWindowAndMeterWrites : Obligations.LaneWindowAndMeterWrites := by
  refine ⟨?lane, ?window, ?meter, ?clear⟩
  case lane =>
    intro s who n v t ok hn hr good disabled ht
    rw [exec_laneCfgWrite s ok n v hn hr, cfgWrite_disabled s who n _ v good disabled, ht]
    rfl
  case window =>
    intro s who i v ok hi hr good _ changed on
    rw [exec_snsWinWrite s ok i 0 v hi (by omega) hr, snsWinSet_first s who i _ v good on, State.modInput, winTaken_holds _ _ _ changed on]
    rfl
  case meter =>
    intro s who m v ok hm hr
    refine ⟨fun w hw => ?_, fun b hb good => ?_⟩
    · rw [exec_mtrSetWrite s ok m w v hm (by omega) hr, meterSetWrite_stages s who m w _ v hw]
    · have staged : b = meterSettingsStaged s m v := hb
      subst staged
      rw [exec_mtrSetWrite s ok m 7 v hm (by omega) hr, meterSetWrite_commits s who m _ v good]
  case clear =>
    intro s m hm hd
    rw [exec_mtrClear s m hm hd, meterClearRequest]

end Sys2Proof.Machine
end

section
/-! SUPPORT. Proofs about what bus devices do unasked (R175, R177, R179), tachometers and PWM (R172, R181, R182) and target lanes (R193,
R194). -/

namespace Sys2Proof.Machine

/-- Changes of a lane that agree on it as it stands are the same change. -/
theorem modLane_congr (s : State) (n : Nat) {f g : Lane → Lane} (h : f (s.lane n) = g (s.lane n)) : s.modLane n f = s.modLane n g := by
  rw [State.modLane, h]
  rfl

/-! ### Host notifies, in-band interrupts and characters (R175, R177, R179) -/

/-- A host notify that reaches an idle SMBus or PMBus lane, which holds none, is kept with its address. -/
theorem hostNotify_kept (s : State) (n : Nat) (address : BitVec 7) (data : Half) (hears : laneHears s n = true)
    (bus : personality (s.lane n) = 3 ∨ personality (s.lane n) = 4) (on : wb (s.lane n).opt 5 = true)
    (idle : (s.lane n).txn = none ∨ (s.lane n).begun = false) (held : (s.lane n).held = none) (lead : (s.lane n).lead = none)
    (empty : wb (s.lane n).notify 7 = false) :
    hostNotify s n address data = s.modLane n (fun l => { l with notify := w32 (address.toNat + 128 + 65536 * data.toNat) }) := by
  have listens : (personality (s.lane n) = 3 || personality (s.lane n) = 4) = true := by simpa using bus
  have rests : ((s.lane n).txn.isSome && (s.lane n).begun) = false := by
    rcases idle with idle | idle <;> simp [idle]
  simp [hostNotify, hears, listens, on, rests, held, lead, empty]

/-- The record that an in-band interrupt leaves on lane `l` (R177): its address, and the bytes of its payload that LANE_OPT takes. -/
def ibiRecord (l : Lane) (address : BitVec 7) (payload : List Byte) : List Byte :=
  [w8 address.toNat, w8 (payload.take (wf l.opt 8 3)).length] ++ sub (payload.take (wf l.opt 8 3)) 0 4 ++ [0, 0]

section
variable {s : State} {n : Nat} (address : BitVec 7) (payload : List Byte) (hears : laneHears s n = true) (bus : personality (s.lane n) = 5)
include hears bus

theorem inBand_queues (on : wb (s.lane n).opt 7 = true) (known : (s.lane n).devices.contains (w8 address.toNat) = true)
    (room : (s.lane n).ibi.length < 16) :
    inBand s n address payload =
      setLaneErr (s.modLane n (fun l => { l with ibi := l.ibi ++ [ibiRecord l address payload] })) n 0 true := by
  have taken : (!wb (s.lane n).opt 7 || !(s.lane n).devices.contains (w8 address.toNat) || decide (16 ≤ (s.lane n).ibi.length)) = false := by
    simp only [on, known, decide_eq_false (Nat.not_le.2 room)]
    rfl
  simp only [inBand, hears, bus, taken]
  exact congrArg (fun t => setLaneErr t n 0 true) (modLane_congr s n rfl)

theorem inBand_refuses (refused : wb (s.lane n).opt 7 = false ∨ (s.lane n).devices.contains (w8 address.toNat) = false ∨
    16 ≤ (s.lane n).ibi.length) : inBand s n address payload = setLaneErr s n 0x80 false := by
  have turned : (!wb (s.lane n).opt 7 || !(s.lane n).devices.contains (w8 address.toNat) || decide (16 ≤ (s.lane n).ibi.length)) = true := by
    rcases refused with off | unknown | full
    · rw [off]; rfl
    · rw [unknown, Bool.not_false, Bool.or_true]; rfl
    · rw [decide_eq_true full, Bool.or_true]
  simp only [inBand, hears, bus, turned]
  rfl

end

/-- A good character that no READ awaits is held under RX_ALWAYS while the FIFO has room. -/
theorem uartByte_held (s : State) (n : Nat) (byte : Byte) (parity stop : Bool) (hears : laneHears s n = true) (bus : personality (s.lane n) = 8)
    (idle : (s.lane n).txn = none) (always : wb (s.lane n).opt 4 = true) (room : (s.lane n).rx.length < fifoBytes (s.lane n).fifo)
    (good : uartBad (s.lane n) byte parity stop = false) :
    uartByte s n byte parity stop =
      s.modLane n (fun l => { l with rx := l.rx ++ [if wb l.opt 0 then byte else byte &&& 0x7F] }) := by
  have fits : ¬ fifoBytes (s.lane n).fifo ≤ (s.lane n).rx.length := Nat.not_le.2 room
  simp only [uartByte, hears, bus, idle, always, decide_eq_false fits, good, bne_self_eq_false, Bool.not_true, Bool.or_self, Bool.false_eq_true, if_false]
  exact modLane_congr s n rfl

/-! ### Tachometers and PWM (R172, R181, R182) -/

/-- The intervals between counted edges that a revolution of lane `l` is timed by, an edge coming at tick `now` (R181): the latest PULSES + 1
(log 33). -/
def tachIntervals (now : Nat) (l : Lane) : List Nat :=
  let gaps := match l.tachLast with
    | some t => l.tachGaps ++ [now - t]
    | none => l.tachGaps
  gaps.drop (gaps.length - (wf l.opt 0 3 + 1))

/-- A tachometer lane as an edge that it counts leaves it. -/
def tachCounted (now : Nat) (l : Lane) : Lane :=
  let gaps := tachIntervals now l
  { l with
    tachLast := some now, tachEdges := l.tachEdges + 1, tachStalled := false, tachGaps := gaps
    tachTime := if gaps.length = wf l.opt 0 3 + 1 then w32 (gaps.foldl (· + ·) 0) else l.tachTime }

theorem tachCounts_edge (s : State) (n : Nat) (rising : Bool) (on : tachOn s n = true) (edge : rising = wb (s.lane n).opt 3) :
    tachCounts s n rising = s.modLane n (tachCounted s.edges) := by
  subst edge
  simp only [tachCounts, on, bne_self_eq_false]
  rfl

/-- The tick from which a tachometer lane's stall is timed: its last counted edge, or its enabling. -/
def tachSince (l : Lane) : Nat := match l.tachLast with | some t => max t l.tachFrom | none => l.tachFrom

theorem tachStalls_due (s : State) (n : Nat) (on : tachOn s n = true)
    (due : tachSince (s.lane n) + 100000 * (if wf (s.lane n).opt 8 16 = 0 then 1000 else wf (s.lane n).opt 8 16) ≤ s.edges) :
    tachStalls s n = s.modLane n (fun l => { l with tachStalled := true }) :=
  if_pos (Bool.and_eq_true_iff.2 ⟨on, decide_eq_true due⟩)

/-- A PWM lane as a period that starts at tick `now` leaves it (R181, R182): a DUTY greater than PERIOD is PERIOD. -/
def pwmPeriod (now : Nat) (l : Lane) : Lane :=
  { l with
    pwmNow := put l.pwm 16 16 (min (wf l.pwm 0 16) (wf l.pwm 16 16)), pwmFrom := now, pwmForceNew := none
    pwmForce := match l.pwmForceNew with | some f => f | none => l.pwmForce }

/-- A PWM period of a lane that governs its own pins takes what was written last. -/
theorem pwmStarts_takes (s : State) (n : Nat) (on : laneOn (s.lane n) = true) (pwm : personality (s.lane n) = 0xA) (own : governor s n = n)
    (die : dieUp s (laneDieNow s n) = true) :
    pwmStarts s n = s.modLane n (pwmPeriod s.edges) := by
  simp only [pwmStarts, on, pwm, own, die, bne_self_eq_false]
  rfl

/-! ### Target lanes (R193, R194) -/

/-- A write within the mailbox commits its dwords, and a read returns the mailbox's bytes from its offset, wrapping. -/
theorem targetTransfer_serves (s : State) (n : Nat) (off : Byte) (bs : List Byte) (nread : Nat) (pec : Option Byte) {f : Nat}
    {w : List Byte × Option Byte} {t : State} (inside : off.toNat < 0x40) (hears : laneHears s n = true) (hf : f = wf (s.lane n).tgt 8 3)
    (reach : mailboxReach s (.oob n) f = true) (near : laneDie n = fnPort f ∨ arcUp s = true)
    (hw : w = targetPec (personality (s.lane n) = 0xD && wb (s.lane n).tgt 11) nread bs pec) (ht : t = targetCommits n f s off.toNat [] w.1) :
    targetTransfer s n (off :: bs) nread pec = t.modLane n (fun l => { l with
      served := l.served + 1
      wire := targetWire (s.lane n) (some off) w.1 w.2 ((List.range nread).map (fun i => (mailboxBytes t f).getD ((off.toNat + i) % 64) 0)) }) := by
  subst hf hw ht
  have serves : (!laneHears s n || !mailboxReach s (.oob n) (wf (s.lane n).tgt 8 3) ||
      !(decide (laneDie n = fnPort (wf (s.lane n).tgt 8 3)) || arcUp s)) = false := by
    rcases near with near | near <;> simp [hears, reach, near]
  simp only [targetTransfer, serves, if_neg (Nat.not_le.2 inside)]
  rfl

/-- SETDASA at its static address gives an I3C target its dynamic one. -/
theorem targetAddressed_setdasa (s : State) (n : Nat) (to_ a : BitVec 7) (hears : laneHears s n = true) (target : personality (s.lane n) = 0xE)
    (address : wf (s.lane n).tgt 0 7 = to_.toNat) :
    targetAddressed s n false to_ a = s.modLane n (fun l => { l with dynAddr := some a }) := by
  simp [targetAddressed, hears, target, address]

/-- Settles O33: each command is the run of what its lane does, which has its equation above. A revolution is that of the latest PULSES + 1
intervals (log 33), and the PEC byte of a target write is taken as `targetPec` says (log 48, log 73). -/
theorem busDevicesTachometersAndPwm : Obligations.BusDevicesTachometersAndPwm := by
  refine ⟨?notify, ?inBand, ?uart, ?tach, ?stall, ?pwm, ?mailbox, ?setdasa⟩
  case notify =>
    intro s n address data hn hears bus on idle held lead empty
    rw [← hostNotify_kept s n address data hears bus on idle held lead empty]
    exact run_eq (.smbusHostNotify n address data) s (fun s => hostNotify s n address data) (decide_eq_true hn)
  case inBand =>
    intro s n address payload hn hears bus
    have runs := run_eq (.inBandInterrupt n address payload) s (fun s => inBand s n address payload) (decide_eq_true hn)
    refine ⟨fun on known room => runs.trans ?_, fun refused => runs.trans ?_⟩
    · rw [inBand_queues address payload hears bus on known room]
      rfl
    · rw [inBand_refuses address payload hears bus refused]
  case uart =>
    intro s n byte parity stop hn hears bus idle always room good
    refine (run_eq (.uartRxByte n byte parity stop) s (fun s => uartByte s n byte parity stop) (decide_eq_true hn)).trans ?_
    rw [uartByte_held s n byte parity stop hears bus idle always room good]
  case tach =>
    intro s n rising gaps hn on edge hgaps
    subst hgaps
    refine (run_eq (.tachEdge n rising) s (fun s => tachCounts s n rising) (decide_eq_true hn)).trans ?_
    rw [tachCounts_edge s n rising on edge]
    rfl
  case stall =>
    intro s n hn on due
    refine (run_eq (.tachStall n) s (fun s => tachStalls s n) (decide_eq_true hn)).trans ?_
    rw [tachStalls_due s n on due]
  case pwm =>
    intro s n hn on pwm own die
    refine (run_eq (.pwmPeriodStart n) s (fun s => pwmStarts s n) (decide_eq_true hn)).trans ?_
    rw [pwmStarts_takes s n on pwm own die]
    rfl
  case mailbox =>
    intro s n off bs nread pec f w t hn inside hears hf reach near hw ht
    refine (run_eq (.targetMailboxTransfer n (.transfer (off :: bs) nread pec)) s (fun s => targetTransfer s n (off :: bs) nread pec)
      (decide_eq_true hn)).trans ?_
    rw [targetTransfer_serves s n off bs nread pec inside hears hf reach near hw ht]
  case setdasa =>
    intro s n to_ a hn hears target address
    refine (run_eq (.targetMailboxTransfer n (.setdasa to_ a)) s (fun s => targetAddressed s n false to_ a) (decide_eq_true hn)).trans ?_
    rw [targetAddressed_setdasa s n to_ a hears target address]

end Sys2Proof.Machine
end

section
/-! SUPPORT. Proofs about fast vertex inputs while a change of their inversion is on its way (R199, R200). -/

namespace Sys2Proof.Machine

/-- Fast vertex input `i` has taken a level. -/
def fastTaken (s : State) (i : Nat) (lvl : Bool) : State := { s with fvRaw := tset false s.fvRaw i lvl }

/-- A level that the filter of a fast vertex input accepts reaches its vertex after the inversion as it has reached the fabric (R199, R200), where
no caught pulse of it ends in the next tick and none begins. -/
theorem fastChange_filtered (s : State) (i : Nat) (lvl : Bool) (ns samples : Nat) (hd : dieUp s (i / 16) = true)
    (filter : wf (tget 0 s.fvCfg i) 4 4 ≠ 0) (accepts : filterAccepts (wf (tget 0 s.fvCfg i) 4 4) samples = true)
    (noPulse : s.turned.any (fun t => t.vertex = 768 + i && !t.inv) = false)
    (noCatch : (!fvAsserted (fastTaken s i lvl) i && s.edgesNow.contains (768 + i, true)) = false) :
    fastChange s i lvl ns samples = vertexSet portPw (fastTaken s i lvl) (768 + i) (fvAsserted (fastTaken s i lvl) i) := by
  have filtered : (wf (tget 0 s.fvCfg i) 4 4 != 0) = true := bne_iff_ne.2 filter
  have passes : inputSeen (fastTaken s i lvl) (768 + i) (fun s => fvAsserted s i) = _ := if_neg (Bool.eq_false_iff.1 noPulse)
  simp only [fastChange, hd, filtered, accepts, ← passes]
  exact if_neg (Bool.eq_false_iff.1 noCatch)

/-- Fast vertex input 31 was high and V799 asserted, through a filter of one tick, as its inversion was written 1 (R199): the change is on its
way to the fabric. -/
def inversionOnItsWay : State :=
  { State.reset with
    fvCfg := [(31, 0x11)], fvRaw := [(31, true)], levels := [(799, true)], turned := [{ vertex := 799, since := 0, due := 3, inv := true }] }

/-- The asserted level of V799 that a command leaves. -/
def levelLeft : Host.Outcome State Fault Refusal → Bool
  | .next t => t.level 799
  | .fault _ | .refused _ => false

/-- The input falls, and V799 releases. -/
theorem inputFall_releases : levelLeft (exec (.fastVertexChange 31 false 0 1) inversionOnItsWay) = false := by
  have runs := run_eq (.fastVertexChange 31 false 0 1) inversionOnItsWay (fun s => fastChange s 31 false 0 1) rfl
  rw [show exec (.fastVertexChange 31 false 0 1) inversionOnItsWay = _ from runs,
    fastChange_filtered _ 31 false 0 1 (by decide) (by decide) (by decide) (by decide) (by decide)]
  decide

/-- The statement's state for the same fall: the level differs from the register's inversion, so V799 would stay asserted. -/
theorem inputFall_stated_asserted :
    levelLeft (.next (settle inversionOnItsWay (vertexSet portPw (fastTaken inversionOnItsWay 31 false) (768 + 31) true))) = true := by
  decide

/-- Refutes O30 in its second clause: it judges an accepted level by the inversion that VTX_FV_CFG holds and leaves out only a caught pulse's
end, but a change of inversion reaches the fabric later (R200, log 23), and until then the vertex follows the inversion before it. The
counterexample is an input that falls in that time: V799 releases, where the clause says it is asserted. -/
theorem not_inputsComparatorsAndThermometers : ¬ Obligations.InputsComparatorsAndThermometers := by
  intro h
  obtain ⟨-, fast, -⟩ := h
  have stated := fast inversionOnItsWay 31 false 0 1 (by decide) (by decide) (by decide) (by decide) (by decide) (by decide) _ rfl
  have levels := congrArg levelLeft stated
  rw [inputFall_releases] at levels
  exact absurd (levels.trans inputFall_stated_asserted) (by decide)

end Sys2Proof.Machine
end

section
/-! SUPPORT. Proofs about ARM-CHORD and DISARM-CHORD (R213, R218). -/

namespace Sys2Proof.Machine
open Claims

/-! ### ARM-CHORD (R213) -/

/-- The record that an ARM-CHORD names, from its body or from memory, and the state once it has been read. -/
def recordRead (s : State) (r : Req) : Got × State :=
  if eA r.bytes = 0 then (.ok (r.body.take 128), s) else reqGet s r (eA r.bytes) 128

section
variable {s u : State} {src : EntrySrc} {r : Req} {c : Nat} {rec' : List Byte} (h : ArmOk s u src r c rec')
include h

/-- An entry whose record stands in its body (address 0) is a variable one, long enough to hold it (R280). -/
theorem body_of_armOk : (decide (eA r.bytes = 0) && (!r.variable_ || decide (eLen r.bytes < 3))) = false := by
  obtain ⟨-, -, -, source, -⟩ := h
  by_cases inBody : eA r.bytes = 0
  · obtain ⟨variableForm, length, -, -⟩ := (if_pos inBody).mp source
    simp [variableForm, length]
  · simp [inBody]

/-- The record's address is a multiple of 16 (check 3 of R213). -/
theorem aligned_of_armOk : eA r.bytes % 16 = 0 := by
  obtain ⟨-, -, -, source, -⟩ := h
  by_cases inBody : eA r.bytes = 0
  · rw [inBody]
  · exact ((if_neg inBody).mp source).1

/-- The record is fetched without error (check 3 of R213). -/
theorem recordRead_of_armOk : recordRead s r = (.ok rec', u) := by
  obtain ⟨-, -, -, source, -⟩ := h
  by_cases inBody : eA r.bytes = 0
  · obtain ⟨-, -, copied, rfl⟩ := (if_pos inBody).mp source
    rw [recordRead, if_pos inBody, copied]
  · rw [recordRead, if_neg inBody, ((if_neg inBody).mp source).2]

/-- An ARM-CHORD that passes the nine checks arms the chord and completes with its new GEN. -/
theorem armAct_arms :
    armAct s r = replyWith (chordArmed u r.fn c rec') r ccSuccess ((chordArmed u r.fn c rec').chord c).gen.toNat [] := by
  have body := body_of_armOk h
  have read := recordRead_of_armOk h
  have aligned := aligned_of_armOk h
  obtain ⟨-, rfl, fields, -, now, there, kept, tested, opened, encoded, named, suited, persists, chain⟩ := h
  rw [recordRead] at read
  simp only [armAct, fields, body, now, lostDie, there, kept, tested, opened, aligned, read, encoded, named, suited, persists, chain,
    Bool.not_true, Bool.false_eq_true, decide_false, Bool.or_self, bne_self_eq_false, if_false]

end

/-! ### DISARM-CHORD (R218) -/

/-- Function `f` may disarm chord `x`, which is armed and not DRAINING: it is the primary function or owns the record. -/
structure Disarmable (x : Chord) (f : Nat) : Prop where
  armed : x.st ≠ .disarmed
  running : x.st ≠ .draining
  holder : f = 0 ∨ recOwner x.record = f

/-- A DISARM-CHORD of a chord that the function may disarm disarms it; bit 12 of PARAMS, HALT, asks its chain to end. -/
theorem disarmAct_disarms (s : State) (r : Req) (c : Nat) (number : par r 0 12 = c)
    (fields : fieldsOk r 0x1FFF false false false 32 32 = true) (die : DieServes s r (chordDie c)) (unit : (s.chord c).unit ≠ .retired)
    (held : Disarmable (s.chord c) r.fn) :
    disarmAct s r = reply (disarmAt portPw s c (if par r 12 1 = 1 then some haltProgramReason else none)) r ccSuccess := by
  subst number
  obtain ⟨armed, running, holder⟩ := held
  have mine : (r.fn != 0 && recOwner (s.chord (par r 0 12)).record != r.fn) = false := by
    rcases holder with primary | owner
    · rw [primary]; rfl
    · rw [owner, bne_self_eq_false, Bool.and_false]
  simp only [disarmAct, fields, die.now, lostDie, die.there, unit, armed, running, mine, Bool.not_true, Bool.false_eq_true, decide_false,
    Bool.or_self, if_false]

/-- Settles O10: each work order is the action of its row on the request that its source takes. -/
theorem armAndDisarmChord : Obligations.ArmAndDisarmChord := by
  refine ⟨?arm, ?disarm⟩
  case arm =>
    intro s u src r c rec' ok
    have ⟨asks, _⟩ := ok
    refine (run_serve_isOp asks (.armChord src) armAct rfl).trans ?_
    rw [armAct_arms ok]
  case disarm =>
    intro s src r c asks number fields now there unit armed running holder
    refine (run_serve_isOp asks (.disarmChord src) disarmAct rfl).trans ?_
    rw [disarmAct_disarms s r c number fields ⟨now, there⟩ unit ⟨armed, running, holder⟩]

end Sys2Proof.Machine
end

section
/-! SUPPORT. Proofs about the control bits of chords, arbiters and black boxes (R227, R335, R419), vertex timers (R201, R203) and
calibration (R232, R235). -/

namespace Sys2Proof.Machine

/-! ### The commands as runs -/

section
variable (s : State) {who : Who} (ok : who.ok = true)
include ok

theorem exec_chdRearm (c : Nat) (hc : c < 4096) (hr : portReach s who (chordDie c) = true) :
    exec (.chdRearm who c) s = .next (settle s (chordRearm s who c (chordOff c 4) 1)) := by
  refine (run_eq (.chdRearm who c) s _ (Bool.and_eq_true_iff.2 ⟨ok, decide_eq_true hc⟩)).trans ?_
  rw [if_pos hr]

theorem exec_timerRun (t : Nat) (p : Bool) (ht : t < 32) (hr : portReach s who (t / 16) = true) :
    exec (.timerRun who t p) s = .next (settle s (timerCtrl s who t (timerOff t) (w32 (1 + 2 * b2n p)))) := by
  refine (run_eq (.timerRun who t p) s _ (Bool.and_eq_true_iff.2 ⟨ok, decide_eq_true ht⟩)).trans ?_
  rw [if_pos hr]

end

theorem exec_chdClear (s : State) (c : Nat) (hc : c < 4096) (hd : dieUp s (chordDie c) = true) :
    exec (.chdClear c) s = .next (settle s (chordCleared s c)) := by
  refine (run_eq (.chdClear c) s _ (decide_eq_true hc)).trans ?_
  rw [if_pos hd]

theorem exec_arbClear (s : State) (r : Nat) (hr : r < 8) (hd : dieUp s (r / 4) = true) :
    exec (.arbClear r) s = .next (settle s (arbCleared s r)) := by
  refine (run_eq (.arbClear r) s _ (decide_eq_true hr)).trans ?_
  rw [if_pos hd]

theorem exec_timerStop (s : State) (t : Nat) (p : Bool) (ht : t < 32) (hd : dieUp s (t / 16) = true) :
    exec (.timerStop t p) s = .next (settle s (timerCtrl s (.fn 0) t (timerOff t) (w32 (2 * b2n p)))) := by
  refine (run_eq (.timerStop t p) s _ (decide_eq_true ht)).trans ?_
  rw [if_pos hd]

theorem exec_vertexTimerExpiry (s : State) (t : Nat) (ht : t < 32) :
    exec (.vertexTimerExpiry t) s = .next (settle s (timerExpires s t)) :=
  run_eq (.vertexTimerExpiry t) s (fun s => timerExpires s t) (decide_eq_true ht)

section
variable (s : State) (d : Nat) (hd : d < 2)
include hd

theorem exec_bbxFreeze (up : dieUp s d = true) : exec (.bbxFreeze d) s = .next (settle s (bbxFreezeBox s d 4)) := by
  refine (run_eq (.bbxFreeze d) s _ (decide_eq_true hd)).trans ?_
  rw [if_pos up]

theorem exec_bbxUnfreeze (up : dieUp s d = true) : exec (.bbxUnfreeze d) s = .next (settle s (bbxResume s d)) := by
  refine (run_eq (.bbxUnfreeze d) s _ (decide_eq_true hd)).trans ?_
  rw [if_pos up]

theorem exec_calibrationStart (up : dieUp s d = true) : exec (.calibrationStart d) s = .next (settle s (calStart s d)) := by
  refine (run_eq (.calibrationStart d) s _ (decide_eq_true hd)).trans ?_
  rw [if_pos up]

theorem exec_calibrationDone (codes : List (Code × Code)) :
    exec (.calibrationDone d codes) s = .next (settle s (calDone s d codes)) :=
  run_eq (.calibrationDone d codes) s (fun s => calDone s d codes) (decide_eq_true hd)

end

/-! ### Chords and black boxes (R227, R419) -/

/-- REARM of a SPENT chord that is no standby arms the chord itself. -/
theorem chordRearm_spent (s : State) (who : Who) (c off : Nat) (v : Word) (spent : (s.chord c).st = .spent)
    (active : isStandby s c = false) : chordRearm s who c off v = armEntry s c := by
  rw [chordRearm, if_pos spent, active, if_neg Bool.false_ne_true]

/-- A box that records is frozen with the cause. -/
theorem bbxFreezeBox_records (s : State) (d : Nat) (cause : BitVec 3) (records : (s.die d).bbx.frozen = false) :
    bbxFreezeBox s d cause = withSourceEdge s (514 + 8 * d)
      (fun s => s.modDie d (fun x => { x with bbx := { x.bbx with frozen := true, cause := cause, post := none } })) :=
  if_neg (Bool.eq_false_iff.1 records)

/-! ### Timers (R201, R203) -/

/-- RUN and PERIODIC of a VTX_TMR_CTRL word that has no other bit set. -/
theorem timerWord_bits (run periodic : Bool) :
    wb (w32 (b2n run + 2 * b2n periodic)) 0 = run ∧ wb (w32 (b2n run + 2 * b2n periodic)) 1 = periodic := by
  cases run <;> cases periodic <;> decide

/-- RUN with a PERIOD loads the timer. -/
theorem timerCtrl_runs (s : State) (who : Who) (t off : Nat) (p : Bool) (period : (s.timer t).period ≠ 0) :
    timerCtrl s who t off (w32 (1 + 2 * b2n p)) =
      s.modTimer t (fun x => { x with run := true, periodic := p, loaded := x.period, left := x.period }) := by
  obtain ⟨run, periodic⟩ : wb (w32 (1 + 2 * b2n p)) 0 = true ∧ wb (w32 (1 + 2 * b2n p)) 1 = p := timerWord_bits true p
  simp only [timerCtrl, run, periodic, period, decide_false, Bool.and_false, Bool.false_eq_true, if_false, if_true]

/-- RUN 0 stops the timer and zeroes its count. -/
theorem timerCtrl_stops (s : State) (who : Who) (t off : Nat) (p : Bool) :
    timerCtrl s who t off (w32 (2 * b2n p)) = s.modTimer t (fun x => { x with run := false, periodic := p, left := 0 }) := by
  obtain ⟨run, periodic⟩ : wb (w32 (0 + 2 * b2n p)) 0 = false ∧ wb (w32 (0 + 2 * b2n p)) 1 = p := timerWord_bits false p
  rw [Nat.zero_add] at run periodic
  simp only [timerCtrl, run, periodic, Bool.false_and, Bool.false_eq_true, if_false]

/-- What the expiry of a timer makes of it (R201). -/
def timerAfter (x : Timer) : Timer := if x.periodic then { x with left := x.loaded } else { x with run := false }

/-- A timer that runs and has counted down fires its vertex. -/
theorem timerExpires_due (s : State) (t : Nat) (runs : (s.timer t).run = true) (due : (s.timer t).left = 0) :
    timerExpires s t = fireOnce portPw (s.modTimer t timerAfter) (1440 + t) := by
  simp only [timerExpires, runs, due, bne_self_eq_false, Bool.not_true, Bool.or_self, Bool.false_eq_true, if_false]
  rfl

/-- Changes of a timer that agree on it as it stands are the same change. -/
theorem modTimer_congr (s : State) (t : Nat) {f g : Timer → Timer} (h : f (s.timer t) = g (s.timer t)) :
    s.modTimer t f = s.modTimer t g := by
  rw [State.modTimer, h]
  rfl

theorem modTimer_timerAfter_periodic (s : State) (t : Nat) (periodic : (s.timer t).periodic = true) :
    s.modTimer t timerAfter = s.modTimer t (fun x => { x with left := x.loaded }) :=
  modTimer_congr s t (if_pos periodic)

theorem modTimer_timerAfter_oneShot (s : State) (t : Nat) (oneShot : (s.timer t).periodic = false) :
    s.modTimer t timerAfter = s.modTimer t (fun x => { x with run := false }) :=
  modTimer_congr s t (if_neg (Bool.eq_false_iff.1 oneShot))

/-! ### Calibration (R232, R235) -/

/-- A calibration that has taken its time, with the codes of the die's four converters, is recorded. -/
theorem calDone_records (s : State) (d : Nat) (codes : List (Code × Code)) (busy : (s.die d).calBusy = true)
    (elapsed : (s.die d).calEnd ≤ s.edges) (four : codes.length = 4) :
    calDone s d codes = s.modDie d (fun x => { x with
      calBusy := false
      adcRef := (enumL 0 codes).foldl (fun t e => tset 0 t e.1 (w32 (e.2.1.toNat + 4096 * e.2.2.toNat))) x.adcRef }) := by
  simp only [calDone, busy, four, decide_eq_false (Nat.not_lt.2 elapsed), bne_self_eq_false, Bool.not_true, Bool.or_self,
    Bool.false_eq_true, if_false]

/-- Settles O27: each command is the run of one operation. CLEAR, UNFREEZE and START do what they do in every state of their element; each of the
others has its equation above. -/
theorem controlBitsTimersAndCalibration : Obligations.ControlBitsTimersAndCalibration := by
  refine ⟨?rearm, ?clear, ?arbiter, ?freeze, ?unfreeze, ?run, ?stop, ?expiry, ?start, ?done⟩
  case rearm =>
    intro s who c ok hc hr spent active
    rw [exec_chdRearm s ok c hc hr, chordRearm_spent s who c _ _ spent active]
  case clear =>
    intro s c hc hd
    rw [exec_chdClear s c hc hd, chordCleared]
  case arbiter =>
    intro s r hr hd
    rw [exec_arbClear s r hr hd, arbCleared]
  case freeze =>
    intro s d hd up records
    rw [exec_bbxFreeze s d hd up, bbxFreezeBox_records s d 4 records]
  case unfreeze =>
    intro s d hd up _
    rw [exec_bbxUnfreeze s d hd up, bbxResume]
  case run =>
    intro s who t p ok ht hr period
    rw [exec_timerRun s ok t p ht hr, timerCtrl_runs s who t _ p period]
  case stop =>
    intro s t p ht hd
    rw [exec_timerStop s t p ht hd, timerCtrl_stops]
  case expiry =>
    intro s t ht runs due
    rw [exec_vertexTimerExpiry s t ht, timerExpires_due s t runs due]
    refine ⟨fun periodic => ?_, fun oneShot => ?_⟩
    · rw [modTimer_timerAfter_periodic s t periodic]
    · rw [modTimer_timerAfter_oneShot s t oneShot]
  case start =>
    intro s d hd up
    rw [exec_calibrationStart s d hd up, calStart]
  case done =>
    intro s d codes hd busy elapsed four
    rw [exec_calibrationDone s d hd codes, calDone_records s d codes busy elapsed four]

end Sys2Proof.Machine
end

section
/-! SUPPORT. Proofs about conversions of the sense inputs (R229, R230, R235) and the slots of the meter engine (R236, R238, R241, R246, R248). -/

namespace Sys2Proof.Machine

/-! ### Conversions (R229, R230, R235) -/

theorem exec_adcConversion (s : State) (i : Nat) (code : Code) (clip cm : Bool) (hi : i < 64) :
    exec (.adcConversion i code clip cm) s = .next (settle s (converted s i code clip cm)) :=
  run_eq (.adcConversion i code clip cm) s (fun s => converted s i code clip cm) (decide_eq_true hi)

/-- IN(n) of R230 as one quotient: 4,096 units of the product make one, halves rounded upward. -/
theorem senseValue_eq (code : Nat) (gain offset : Word) : senseValue code gain offset =
    clamp32 ((2 * ((16 * (code : Int) - sx (BitVec.ofNat 16 offset.toNat)) * sx gain) + 4096) / 8192) := rfl

/-- Input `i` after its conversion of the latest sampling instant. -/
def inputConverted (s : State) (i : Nat) (code : Code) (clip cm : Bool) (x : Input) : Input :=
  { x with
    code := code, clip := clip || cm, seq := x.seq + 1, value := iw32 (senseValue code.toNat x.gain x.offset)
    sampled := lastSample s i, before := x.value
    fault := x.fault ||| w32 (b2n ((clip || cm) && decide (code.toNat = 4095)) + 2 * b2n ((clip || cm) && decide (code.toNat = 0)) + 4 * b2n cm) }

/-- An ADC that runs, not calibrating, gives its input the conversion of a sampling instant that the input has not had. -/
theorem converted_new (s : State) (i : Nat) (code : Code) (clip cm : Bool) (up : dieUp s (i / 32) = true)
    (runs : (s.die (i / 32)).meterRun = true) (idle : (s.die (i / 32)).calBusy = false) (present : lastSample s i ≠ none)
    (new : (s.input i).sampled ≠ lastSample s i) :
    converted s i code clip cm =
      withSourceEdge s (513 + 8 * (i / 32)) (fun s' => s'.modInput i (inputConverted s i code clip cm)) := by
  have sampled : (lastSample s i).isNone = false := Bool.eq_false_iff.2 (fun h => present (Option.isNone_iff_eq_none.1 h))
  simp only [converted, up, runs, idle, sampled, new, Bool.not_true, decide_false, Bool.or_self, Bool.false_eq_true, if_false]
  rfl

/-! ### The meter engine goes on (R236) -/

theorem exec_meterSlot (s : State) (m : Nat) (hm : m < 128) : exec (.meterSlot m) s = .next (settle s (meterSlotAt s m)) :=
  run_eq (.meterSlot m) s (fun s => meterSlotAt s m) (decide_eq_true hm)

/-- Two changes of one die are one change. -/
theorem modDie_modDie (s : State) (d : Nat) (f g : Die → Die) : (s.modDie d f).modDie d g = s.modDie d (fun x => g (f x)) := by
  by_cases h : d = 0 <;> simp [State.modDie, State.setDie, State.die, h]

/-- Changes of a die that agree on it as it stands are the same change. -/
theorem modDie_congr (s : State) (d : Nat) {f g : Die → Die} (h : f (s.die d) = g (s.die d)) : s.modDie d f = s.modDie d g := by
  rw [State.modDie, h, State.modDie]

/-- A change of a die leaves the meters. -/
theorem modDie_meter (s : State) (d m : Nat) (f : Die → Die) : (s.modDie d f).meter m = s.meter m := by
  simp only [State.meter, State.modDie_meters]

/-- A meter may have its slot only where its die's engine comes to it next. -/
theorem meterNext_of_slotMay {s : State} {m : Nat} (may : slotMay s m = true) : (s.die (m / 64)).meterNext = m % 64 := by
  simp only [slotMay, Bool.and_eq_true, decide_eq_true_eq] at may
  obtain ⟨⟨⟨-, next⟩, -⟩, -⟩ := may
  exact next

/-- The die whose engine has served the slot of meter `m`: the last slot ends the pass, and that of the die's meter 0 counts it. -/
def engineAfter (m : Nat) (w : Die) : Die :=
  { w with
    meterNext := if m % 64 < 63 then m % 64 + 1 else 0, meterPass := if m % 64 < 63 then w.meterPass else w.meterPass + 1
    passes := if m % 64 = 0 then w.passes + 1 else w.passes }

/-- The engine's step to the next slot, and the pass that meter 0's slot counts, make `engineAfter` of the die. -/
theorem slotPassed_counted (s : State) (d m : Nat) (next : (s.die d).meterNext = m % 64) :
    (if m % 64 = 0 then (slotPassed s d).modDie d (fun x => { x with passes := x.passes + 1 }) else slotPassed s d) =
      s.modDie d (engineAfter m) := by
  by_cases first : m % 64 = 0
  · rw [if_pos first, slotPassed, modDie_modDie]
    exact modDie_congr s d (by simp [engineAfter, next, first])
  · rw [if_neg first, slotPassed]
    refine modDie_congr s d ?_
    by_cases more : m % 64 < 63 <;> simp [engineAfter, next, first, more]

/-! ### The slot of a meter (R238, R241, R246, R248) -/

/-- The state in which meter `m` has had its slot: it is published, and its die's engine has gone on. -/
def slotServed (s : State) (m : Nat) : State :=
  (s.modMeter m (fun _ => meterInSlot s (m / 64) (s.meter m))).modDie (m / 64) (engineAfter m)

theorem slotServed_meter (s : State) (m : Nat) : (slotServed s m).meter m = meterInSlot s (m / 64) (s.meter m) := by
  rw [slotServed, modDie_meter, State.modMeter_meter, if_pos rfl]

/-- A meter that may have its slot is served; then its trips are told, and the requests that waited for the slot end. -/
theorem meterSlotAt_served (s : State) (m : Nat) (up : dieUp s (m / 64) = true) (may : slotMay s m = true) :
    meterSlotAt s m = (s.meter m).waiters.foldl (waiterEnds m) (tripsTold (slotServed s m) m (s.meter m)) := by
  have next : ((s.modMeter m (meterInSlot s (m / 64))).die (m / 64)).meterNext = m % 64 := meterNext_of_slotMay may
  simp only [meterSlotAt, up, may, Bool.not_true, Bool.or_self, Bool.false_eq_true, if_false, slotPassed_counted _ _ _ next]
  rfl

/-- Settles O32: a conversion is `inputConverted` of its input, and a slot is `slotServed` with its trips told. A meter that is not in service makes
no update in its slot (log 34). -/
theorem conversionsAndMeters : Obligations.ConversionsAndMeters := by
  refine ⟨?conversion, ?slot⟩
  case conversion =>
    intro s i code clip cm hi up runs idle present new
    rw [exec_adcConversion s i code clip cm hi, converted_new s i code clip cm up runs idle present new]
    simp only [← senseValue_eq]
    rfl
  case slot =>
    intro s m d x y hm hd up may hx hy p t0 t1 t2 hp h0 h1 h2
    subst hd hx
    have published : y = meterInSlot s (m / 64) (s.meter m) := hy
    have served : p = slotServed s m := by rw [hp, published]; rfl
    have told : t2 = tripsTold (slotServed s m) m (s.meter m) := by
      rw [tripsTold, slotServed_meter, ← published, ← served, h2, h1, h0]
      rfl
    rw [exec_meterSlot s m hm, meterSlotAt_served s m up may, told]

end Sys2Proof.Machine
end

section
/-! SUPPORT. Proofs about IDENTIFY, GET-FEATURE and GRANT-CAPABILITY (R256–R258, R263, R284, R285). -/

namespace Sys2Proof.Machine
open Claims

/-- An admin request whose fields are in order, with the right that it needs, is acted on (R257, R267). -/
theorem accepts_acts (s : State) (r : Req) {fields right : Bool} (act : State → State) (hf : fields = true) (hr : right = true) :
    accepts s r fields right act = act s := by
  rw [accepts, hf, hr]
  rfl

/-! ### IDENTIFY (R263, R284) -/

/-- IDENTIFY in the mailbox puts 32 bytes of the page that it names into DATA; from a queue it stores the page at B. -/
theorem identifyAct_eq (s : State) (r : Req) {page : List Byte} (number : par r 0 8 ≤ 1) (aligned : eB r.bytes % 64 = 0)
    (fields : fieldsOk r (if isMailbox r then 0x7FFF else 0xFF) false (!isMailbox r) false 32 32 = true)
    (named : page = if par r 0 8 = 0 then identifyPage0 s r.fn else identifyPage1 s) :
    identifyAct s r =
      if isMailbox r then reply (mailboxPut s r.fn 0x10 (sub page (32 * par r 8 7) 32)) r ccSuccess
      else storedReply r [] (reqPut s r (eB r.bytes) (sub page 0 4096)) := by
  simp only [identifyAct, fields, aligned, Nat.not_lt.2 number, Bool.not_true, decide_false, bne_self_eq_false, Bool.or_self,
    Bool.false_eq_true, if_false, ← named]
  rcases reqPut s r (eB r.bytes) (sub page 0 4096) with ⟨_ | f, u⟩ <;> rfl

/-! ### GET-FEATURE (R285) -/

/-- The value of feature `k` for function `f`. -/
def featureNow (s : State) (f k : Nat) : Nat :=
  match k with
  | 1 => s.pilot.toNat
  | 2 => (s.func f).caps.toNat
  | 3 => reserveValue s
  | 4 => s.pkg.sleep.toNat
  | _ => b2n (s.func f).mboxNotify

/-- GET-FEATURE of a feature that R285 lists answers its value. -/
theorem getFeatureAct_answers (s : State) (r : Req) (fields : fieldsOk r 0xFFFF false false false 32 32 = true)
    (listed : feature r ∈ [1, 2, 3, 4, 5]) :
    getFeatureAct s r = replyWith s r ccSuccess 0 (leBytes 8 (featureNow s r.fn (feature r))) := by
  simp only [List.mem_cons, List.not_mem_nil, or_false] at listed
  rcases listed with k | k | k | k | k <;> simp [getFeatureAct, fields, k, featureNow]

/-! ### GRANT-CAPABILITY (R256, R258) -/

/-- The capabilities `caps` with those of `give` set and those of `take` cleared. -/
def capsGranted (give take : Nat) (caps : Byte) : Byte := (caps ||| w8 give) &&& ~~~(w8 take)

/-- A GRANT-CAPABILITY for function `f` passes its checks. -/
structure GrantFits (s : State) (r : Req) (f : Nat) : Prop where
  fields : fieldsOk r 0xFFFF07 false false false 32 32 = true
  primary : isPrimary r = true
  number : par r 0 3 = f
  disjoint : par r 8 8 &&& par r 16 8 = 0
  give : par r 8 8 < 32
  take : par r 16 8 < 32
  present : fnPresent s f = true
  now : mustWait s r (fnPort f) = false

/-- GRANT-CAPABILITY changes the capabilities of every function but the primary one, and answers what they then are. -/
theorem grantAct_eq {s : State} {r : Req} {f : Nat} (fits : GrantFits s r f) :
    grantAct s r =
      if f = 0 then replyWith s r ccSuccess 0 [(s.func 0).caps]
      else replyWith (s.modFunc f (fun x => { x with caps := capsGranted (par r 8 8) (par r 16 8) x.caps })) r ccSuccess 0
        [capsGranted (par r 8 8) (par r 16 8) (s.func f).caps] := by
  obtain ⟨fields, primary, rfl, disjoint, give, take, present, now⟩ := fits
  rw [grantAct, accepts_acts s r _ fields primary]
  simp only [disjoint, Nat.not_le.2 give, Nat.not_le.2 take, present, now, bne_self_eq_false, Bool.not_true, decide_false, Bool.or_self,
    Bool.false_eq_true, if_false]
  by_cases primaryOne : par r 0 3 = 0
  · rw [if_pos primaryOne, if_pos primaryOne, primaryOne]
  · rw [if_neg primaryOne, if_neg primaryOne, State.modFunc_func, if_pos rfl]
    rfl

/-- Settles O12: each command is the action of its row on the request that its source takes, and each action has its equation above. CHORD_RESERVE is
read of cluster 0 (log 29); the primary function keeps its capabilities (log 30). -/
theorem identityFeaturesAndCapabilities : Obligations.IdentityFeaturesAndCapabilities := by
  refine ⟨?identify, ?feature, ?grant⟩
  case identify =>
    intro s src r page asks number aligned fields named
    have serves := run_serve_isOp asks (.identify src) identifyAct rfl
    rw [identifyAct_eq s r number aligned fields named] at serves
    refine ⟨fun mail => serves.trans ?_, fun u queue store => serves.trans ?_⟩
    · rw [if_pos mail]
    · rw [if_neg (by rw [queue]; decide), store]
      rfl
  case feature =>
    intro s src r asks fields
    have answers (k : Nat) (listed : k ∈ [1, 2, 3, 4, 5]) (number : par r 0 16 = k) :
        exec (.getFeature src) s = .next (settle s (replyWith s r ccSuccess 0 (leBytes 8 (featureNow s r.fn k)))) := by
      subst number
      refine (run_serve_isOp asks (.getFeature src) getFeatureAct rfl).trans ?_
      rw [getFeatureAct_answers s r fields listed, feature]
    exact ⟨answers 1 (by decide), answers 2 (by decide), answers 3 (by decide), answers 4 (by decide), answers 5 (by decide)⟩
  case grant =>
    intro s src r f ⟨asks, fields, primary⟩ number disjoint give take present now
    have serves := run_serve_isOp asks (.grantCapability src) grantAct rfl
    rw [grantAct_eq ⟨fields, primary, number, disjoint, give, take, present, now⟩] at serves
    refine ⟨fun other => serves.trans ?_, fun first => serves.trans ?_⟩
    · rw [if_neg other]
      rfl
    · rw [if_pos first]

end Sys2Proof.Machine
end

section
/-! SUPPORT. Proofs about the queues and event rings that a function creates and destroys (R265, R266, R278, R283, R301, R310). -/

namespace Sys2Proof.Machine
open Claims

/-- A field of PARAMS outside the bits that the opcode uses is 0 (R267). -/
theorem par_eq_zero_of_fieldsOk {r : Req} {pmask lo hi bitLo len : Nat} {a b stream : Bool}
    (fields : fieldsOk r pmask a b stream lo hi = true) (outside : fld pmask bitLo len = 0) : par r bitLo len = 0 := by
  have masked : eParams r.bytes &&& pmask = eParams r.bytes := by
    simp only [fieldsOk, Bool.and_eq_true, decide_eq_true_eq] at fields
    obtain ⟨⟨⟨⟨⟨⟨-, masked⟩, -⟩, -⟩, -⟩, -⟩, -⟩ := fields
    exact masked
  unfold fld at outside
  rw [par, fld, ← masked, Nat.and_div_two_pow, Nat.and_mod_two_pow, outside, Nat.and_zero]

section
variable {s u : State} {r : Req} {q : Nat}

/-! ### Queues (R278) -/

/-- The size that a CREATE-QUEUE asks for is one that R283 allows, of variable-length entries or of fixed ones. -/
def QueueSizeOk (r : Req) : Prop :=
  if par r 7 1 = 1 then 6 ≤ par r 8 4 ∧ par r 8 4 ≤ 14 else 4 ≤ par r 8 4 ∧ par r 8 4 ≤ 12

/-- The queue that a CREATE-QUEUE makes: RUNNING and empty at index 0. -/
def queueCreated (r : Req) : Queue :=
  { st := .running, ring := w64 (eA r.bytes), mirror := w64 (eB r.bytes), variable_ := par r 7 1 = 1, notify := par r 12 1 = 1
    sizeLog2 := par r 8 4 }

/-- CREATE-QUEUE for an ABSENT queue whose mirror is written makes the queue. -/
theorem createQueueAct_creates (fields : fieldsOk r 0x1FFF true true false 32 32 = true) (number : par r 0 7 = q) (work : q ≠ 0)
    (size : QueueSizeOk r) (ring : ringOk s (eA r.bytes) (64 * 2 ^ par r 8 4) = true) (aligned : eB r.bytes % 4 = 0)
    (absent : (s.queue r.fn q).st = .absent)
    (mirror : memPut portPw s (fnParty s r.fn) (eB r.bytes) (zeros 4) .mirror true = (none, u)) :
    createQueueAct s r = reply (u.modQueue r.fn q (fun _ => queueCreated r)) r ccSuccess := by
  subst number
  have inRange : (if par r 7 1 = 1 then decide (par r 8 4 < 6) || decide (14 < par r 8 4)
      else decide (par r 8 4 < 4) || decide (12 < par r 8 4)) = false := by
    unfold QueueSizeOk at size
    split at size
    all_goals
      next kind =>
        obtain ⟨least, most⟩ := size
        simp [kind, least, most]
  simp only [createQueueAct, fields, work, inRange, ring, aligned, absent, mirror, Bool.not_true, decide_false, bne_self_eq_false,
    Bool.or_self, Bool.false_eq_true, if_false, queueCreated]

/-- DESTROY-QUEUE of an empty RUNNING queue makes it ABSENT. -/
theorem destroyQueueAct_empty (fields : fieldsOk r 0x7F false false false 32 32 = true) (number : par r 0 7 = q) (work : q ≠ 0)
    (running : (s.queue r.fn q).st = .running) (caughtUp : (s.queue r.fn q).head = (s.queue r.fn q).tail)
    (idle : (s.queue r.fn q).flight = []) : destroyQueueAct s r = reply (queueAbsent s r.fn q) r ccSuccess := by
  subst number
  simp [destroyQueueAct, fields, work, running, caughtUp, idle]

/-- DESTROY-QUEUE of a queue in ERROR makes it DESTROYING and halts the programs that it started; the entry completes when the queue is ABSENT. -/
theorem destroyQueueAct_error (fields : fieldsOk r 0x7F false false false 32 32 = true) (number : par r 0 7 = q) (work : q ≠ 0)
    (error : (s.queue r.fn q).st = .error) :
    destroyQueueAct s r = destroyOver (queueHalts ((tookEffect s r).modQueue r.fn q
      (fun x => { x with st := .destroying, destroyer := some (r.src, r.idx) })) r.fn q) r.fn q := by
  subst number
  simp [destroyQueueAct, fields, work, error]

/-! ### Event rings (R301, R310) -/

/-- CREATE-EVENT-RING of a ring that the function may write, where it has none, makes the ring. -/
theorem createRingAct_creates (fields : fieldsOk r 0xF true false false 32 32 = true) (least : 6 ≤ par r 0 4) (most : par r 0 4 ≤ 12)
    (ring : ringOk s (eA r.bytes) (16 * 2 ^ par r 0 4) = true)
    (writable : if wb s.pkg.enforce r.fn then windowCheck s (4 * fnPort r.fn) r.fn (eA r.bytes) (16 * 2 ^ par r 0 4) rightWrite = (true, u)
      else u = s) (vacant : (u.target r.fn).live = false) :
    createRingAct s r = reply (ringMade u r.fn (eA r.bytes) (par r 0 4)) r ccSuccess := by
  have checked : (if wb s.pkg.enforce r.fn then windowCheck s (4 * fnPort r.fn) r.fn (eA r.bytes) (16 * 2 ^ par r 0 4) rightWrite
      else (true, s)) = (true, u) := by
    split
    · next enforced => rwa [if_pos enforced] at writable
    · next free => rw [if_neg free] at writable; rw [writable]
  simp only [createRingAct, fields, Nat.not_lt.2 least, Nat.not_lt.2 most, ring, checked, vacant, Bool.not_true, decide_false, Bool.or_self,
    Bool.false_eq_true, if_false]

/-- With DESTROY, a function's ring goes. -/
theorem destroyRingAct_destroys (fields : fieldsOk r 0x10 false false false 32 32 = true) (live : (s.target r.fn).live = true) :
    destroyRingAct s r = reply (ringGone s r.fn) r ccSuccess := by
  rw [destroyRingAct, fields, live]
  rfl

/-- The run of a CREATE-EVENT-RING whose DESTROY is `destroy`. -/
theorem run_serve_isRing {src : EntrySrc} {act : State → Req → State} (asks : Asks s src 0x86 r) (i : Instr) (destroy : Bool)
    (hw : i.wf = src.ok) (which : decide (par r 4 1 = 1) = destroy) :
    run i s (fun s => serve s src (isRing destroy) act) = .next (settle s (act s r)) := by
  have ⟨_, _, opcode, _⟩ := asks
  exact run_serve asks i _ act hw (by simp [isRing, isOp, opcode, ← which])

end

/-- Settles O13: each command is the action of its row on the request that its source takes, and each action has its equation above. CREATE-QUEUE
rests on R265, R266 and R283, with the order of its checks in log 17. -/
theorem queuesAndEventRings : Obligations.QueuesAndEventRings := by
  refine ⟨?create, ?destroy, ?ring, ?gone⟩
  case create =>
    intro s u src r q asks fields number work size ring aligned absent mirror
    refine (run_serve_isOp asks (.createQueue src) createQueueAct rfl).trans ?_
    rw [createQueueAct_creates fields number work size ring aligned absent mirror]
    rfl
  case destroy =>
    intro s src r q asks fields number work
    have serves := run_serve_isOp asks (.destroyQueue src) destroyQueueAct rfl
    refine ⟨fun running caughtUp idle => serves.trans ?_, fun error => serves.trans ?_⟩
    · rw [destroyQueueAct_empty fields number work running caughtUp idle, queueAbsent]
    · rw [destroyQueueAct_error fields number work error]
  case ring =>
    intro s u src r asks fields least most ring writable vacant
    have create : par r 4 1 = 0 := par_eq_zero_of_fieldsOk fields (by decide)
    refine (run_serve_isRing asks (.createEventRing src) false rfl (by rw [create]; rfl)).trans ?_
    rw [createRingAct_creates fields least most ring writable vacant]
  case gone =>
    intro s src r asks fields destroy live
    refine (run_serve_isRing asks (.destroyEventRing src) true rfl (decide_eq_true destroy)).trans ?_
    rw [destroyRingAct_destroys fields live]

end Sys2Proof.Machine
end

section
/-! SUPPORT. Proofs about the staging of firmware images, their activation and the reload of a half (R289–R291, R469, R475, R477). -/

namespace Sys2Proof.Machine
open Claims

/-! ### FIRMWARE-STAGE (R289, R475, R477) -/

section
variable {s u : State} {r : Req} {bs old : List Byte}

/-- A FIRMWARE-STAGE passes its checks (log 51): it goes on where the chunks before it, `old`, end, and its stream gives the bytes `bs`. -/
structure StageFits (s u : State) (r : Req) (bs old : List Byte) : Prop where
  fields : fieldsOk r 0 false false true 32 40 = true
  primary : isPrimary r = true
  total : u32 r.bytes 36 ≤ 0x400000
  chunks : u32 r.bytes 32 = 0 ∧ old = [] ∨ u32 r.bytes 32 ≠ 0 ∧ s.pkg.staging = some (u32 r.bytes 36, old)
  offset : old.length = u32 r.bytes 32
  now : (backupFitted s && mustWait s r 1) = false
  stream : streamOf s r (u32 r.bytes 36 - u32 r.bytes 32) = (.inr bs, u)

/-- A FIRMWARE-STAGE that passes its checks: the final chunk ends the image, any other of whole units of 4 KiB is kept behind those before it. -/
theorem firmwareStageAct_eq (fits : StageFits s u r bs old) :
    firmwareStageAct s r =
      if (old ++ bs).length = u32 r.bytes 36 then stageEnd (stageWrite u (old ++ bs)) r (old ++ bs)
      else if bs.length % 4096 != 0 then reply u r ccMalformed
      else reply (stageWrite (u.modPkg (fun p => { p with staging := some (u32 r.bytes 36, old ++ bs) })) (old ++ bs)) r ccSuccess := by
  obtain ⟨fields, primary, total, chunks, offset, now, stream⟩ := fits
  have fits : ¬ 0x400000 < u32 r.bytes 36 := Nat.not_lt.2 total
  rcases chunks with ⟨first, rfl⟩ | ⟨later, staging⟩
  case inl =>
    rw [first] at stream
    rcases staging : s.pkg.staging with _ | ⟨t, earlier⟩ <;>
      simp only [firmwareStageAct, accepts_acts s r _ fields primary, staging, first, fits, now, stream, List.length_nil,
        bne_self_eq_false, decide_false, Bool.or_self, Bool.false_eq_true, if_true, if_false]
  case inr =>
    simp only [firmwareStageAct, accepts_acts s r _ fields primary, staging, later, offset, fits, now, stream,
      bne_self_eq_false, decide_false, Bool.or_self, Bool.false_eq_true, if_false]

/-- The last chunk of a valid image stages it in every flash that the firmware writes. -/
theorem stageEnd_valid {v : State} {img : List Byte} (hv : v = s.modPkg (fun p => { p with staging := none }))
    (valid : imageReject (v.die 0).otp img true = 0) :
    stageEnd s r img = reply ((flashDies v).foldl (fun s d =>
      dirWrite s d (fun x => { x with staged := true, stagedSlot := stageSlot s d })) v) r ccSuccess := by
  subst hv
  simp only [stageEnd, valid]

/-! ### FIRMWARE-ACTIVATE (R290, R291) -/

/-- A FIRMWARE-ACTIVATE while an image is staged makes it the one booted first. -/
theorem activateAct_activates (act : State → Req → State) (fields : fieldsOk r 1 false false false 32 32 = true)
    (primary : isPrimary r = true) (staged : (s.die 0).flash.dir.staged = true) (now : (backupFitted s && mustWait s r 1) = false) :
    activateAct act s r = act (activateDirs s) r := by
  rw [activateAct, accepts_acts s r _ fields primary, staged, now]
  rfl

/-- The run of a FIRMWARE-ACTIVATE whose NOW is `live`. -/
theorem run_serve_isActivate {src : EntrySrc} {act : State → Req → State} (asks : Asks s src 0x88 r) (i : Instr) (live : Bool)
    (hw : i.wf = src.ok) (which : decide (par r 0 1 = 1) = live) :
    run i s (fun s => serve s src (isActivate live) act) = .next (settle s (act s r)) := by
  have ⟨_, _, opcode, _⟩ := asks
  exact run_serve asks i _ act hw (by simp [isActivate, isOp, opcode, ← which])

end

/-! ### The reload of a half (R291, R469) -/

section
variable (s : State) (d : Nat)

/-- Half `d` has left its reload: its firmware starts anew, and the resets that waited for it follow. -/
def reloadLeft : State :=
  resetsFollow portPw (firmwareFresh ((s.modDie d (fun x => { x with stw := { x.stw with pair := if x.stw.pair = 2 then 0 else x.stw.pair } })).modPkg
    (fun p => { p with reloading := none })) d) d

/-- Half `d` runs the image that it has reloaded, where its flash holds one. -/
def reloadBooted : State :=
  match reloadImage s d with
  | some (img, k) => s.modDie d (fun x => { x with boot := bootOf img k 1 0 })
  | none => s

theorem exec_halfReloadDone (ok : Bool) (hd : d < 2) : exec (.halfReloadDone d ok) s = .next (settle s (halfReloaded s d ok)) :=
  run_eq (.halfReloadDone d ok) s (fun s => halfReloaded s d ok) (decide_eq_true hd)

variable {s d} (reloading : s.pkg.reloading = some d)
include reloading

/-- A reload that fails ends the activation (log 52). -/
theorem halfReloaded_fails : halfReloaded s d false = activationEnds (reloadLeft s d) ccFirmwareRejected := by
  rw [halfReloaded, reloading]
  simp only [bne_self_eq_false, Bool.false_eq_true, if_false, Bool.not_false, if_true]
  rfl

/-- After half 1, half 0 reloads where it runs; else the activation ends. -/
theorem halfReloaded_succeeds :
    halfReloaded s d true =
      if d = 1 && dieUp (reloadBooted (reloadLeft s d) d) 0 then reloadBegins (reloadBooted (reloadLeft s d) d) 0
      else activationEnds (reloadBooted (reloadLeft s d) d) ccSuccess := by
  rw [halfReloaded, reloading]
  simp only [bne_self_eq_false, Bool.false_eq_true, if_false, Bool.not_true]
  rfl

end

/-- Settles O15: the two rows of FIRMWARE-ACTIVATE take its opcode by NOW, and each action has its equation above. What a chunk may follow is log 51;
an activation ends at the first half that fails (log 52). -/
theorem firmwareIsStagedAndActivated : Obligations.FirmwareIsStagedAndActivated := by
  refine ⟨?stage, ?activate, ?reload⟩
  case stage =>
    intro s u src r bs old ⟨asks, fields, primary⟩ total chunks offset now stream
    have serves := run_serve_isOp asks (.firmwareStage src) firmwareStageAct rfl
    rw [firmwareStageAct_eq ⟨fields, primary, total, chunks, offset, now, stream⟩] at serves
    refine ⟨fun more units => serves.trans ?_, fun v hv whole valid => serves.trans ?_⟩
    · rw [if_neg more, units]
      rfl
    · rw [if_pos whole, stageEnd_valid hv valid]
  case activate =>
    intro s src r ⟨asks, fields, primary⟩ staged now
    refine ⟨fun later => ?_, fun live => ?_⟩
    · refine (run_serve_isActivate asks (.firmwareActivate src) false rfl (by rw [later]; rfl)).trans ?_
      rw [activateAct_activates activateLater fields primary staged now, activateLater, versionNow]
    · refine (run_serve_isActivate asks (.liveActivation src) true rfl (decide_eq_true live)).trans ?_
      rw [activateAct_activates activateNow fields primary staged now, activateNow]
  case reload =>
    intro s d hd reloading t ht
    obtain rfl : t = reloadLeft s d := ht
    refine ⟨?_, fun v hv => ?_⟩
    · rw [exec_halfReloadDone s d false hd, halfReloaded_fails reloading]
    · obtain rfl : v = reloadBooted (reloadLeft s d) d := hv
      rw [exec_halfReloadDone s d true hd, halfReloaded_succeeds reloading]
      refine ⟨fun second up => ?_, fun last => ?_⟩
      · rw [up, decide_eq_true second]
        rfl
      · rw [if_neg]
        rcases last with rfl | down
        · simp
        · simp [down]

end Sys2Proof.Machine
end

section
/-! SUPPORT. Proofs about OTP-COMMIT and BLACKBOX-READ (R263, R421, R485). -/

namespace Sys2Proof.Machine
open Claims

/-! ### OTP-COMMIT (R485) -/

/-- A change of a die loses no half. -/
@[simp] theorem modDie_isLost (s : State) (d e : Nat) (f : Die → Die) : isLost (s.modDie d f) e = isLost s e := by
  simp only [isLost, State.modDie_pkg]

/-- Programming the OTP of a half loses no half. -/
theorem otpDone_isLost {s t : State} {d k : Nat} {g : List Byte} {verify : List Bool} (done : otpDone s d g verify = (k, t)) (e : Nat) :
    isLost t e = isLost s e := by
  obtain rfl : (otpDone s d g verify).2 = t := by rw [done]
  unfold otpDone
  split
  · rfl
  · exact modDie_isLost s d e _

/-- Half `d` as OTP-COMMIT programs it, where it is there. -/
def halfProgrammed (there : Bool) (s : State) (d : Nat) (g : List Byte) (verify : List Bool) : Nat × State :=
  if there then
    ((otpProgram g (gensUnused (s.die d).otp) verify (s.die d).otp).1,
      s.modDie d (fun x => { x with otp := (otpProgram g (gensUnused (s.die d).otp) verify (s.die d).otp).2 }))
  else (0, s)

theorem halfProgrammed_eq_otpDone (s : State) (d : Nat) (g : List Byte) (verify : List Bool) :
    halfProgrammed (!isLost s d) s d g verify = otpDone s d g verify := by
  unfold halfProgrammed otpDone
  cases isLost s d <;> rfl

section
variable {s u v w : State} {src : EntrySrc} {r : Req} {g : List Byte} {verify0 verify1 : List Bool} {k0 k1 : Nat}

/-- Each half of the device that is there takes the generation and has a place for it. -/
theorem commitOk_halves (ok : CommitOk s u src r g) :
    [0, 1].all (fun d => isLost u d || generationOk (u.die d).otp g) = true ∧
    [0, 1].any (fun d => !isLost u d && (gensUnused (u.die d).otp).isEmpty) = false := by
  obtain ⟨-, -, -, -, -, halves⟩ := ok
  have half (d : Nat) (hd : d < 2) : (isLost u d || generationOk (u.die d).otp g) = true ∧
      (!isLost u d && (gensUnused (u.die d).otp).isEmpty) = false := by
    cases there : isLost u d
    · obtain ⟨valid, unused⟩ := halves d hd there
      simp [valid, unused]
    · simp
  simp [half 0 (by decide), half 1 (by decide)]

/-- OTP-COMMIT of a generation that passes its checks programs half 0, then half 1, and answers the places where each half that is there has
one that verifies. -/
theorem otpCommitAct_programs (ok : CommitOk s u src r g) (done0 : otpDone u 0 g verify0 = (k0, v)) (done1 : otpDone v 1 g verify1 = (k1, w))
    (placed0 : isLost u 0 = false → k0 ≠ 0) (placed1 : isLost u 1 = false → k1 ≠ 0) :
    otpCommitAct verify0 verify1 s r = replyWith w r ccSuccess 0 [w8 (k0 + 16 * k1)] := by
  obtain ⟨valid, unused⟩ := commitOk_halves ok
  obtain ⟨⟨-, fields, primary⟩, whole, now, stream, enough, -⟩ := ok
  have long : ¬ g.length < 384 := Nat.not_lt.2 enough
  have first : halfProgrammed (!isLost u 0) u 0 g verify0 = (k0, v) := (halfProgrammed_eq_otpDone u 0 g verify0).trans done0
  have second : halfProgrammed (!isLost u 1) v 1 g verify1 = (k1, w) := by
    rw [← otpDone_isLost done0 1, halfProgrammed_eq_otpDone, done1]
  have placed : (!isLost u 0 && decide (k0 = 0) || !isLost u 1 && decide (k1 = 0)) = false := by
    simpa using And.intro placed0 placed1
  unfold halfProgrammed at first second
  simp only [otpCommitAct, accepts_acts s r _ fields primary, whole, now, stream, long, Bool.not_not, valid, unused, first, second, placed,
    Bool.not_true, decide_false, Bool.or_self, Bool.false_eq_true, if_false]

end

/-! ### BLACKBOX-READ (R263, R421) -/

/-- The records that a BLACKBOX-READ of die `d` names, in index order. -/
def boxRecords (s : State) (r : Req) (d : Nat) : List Byte :=
  (List.range (par r 13 13)).flatMap (fun i => bbxBytes s d ((par r 1 12 + i) % 4096))

/-- RESULT of a BLACKBOX-READ of die `d`: the newest index, and whether the box is frozen. -/
def boxResult (s : State) (d : Nat) : List Byte := leBytes 2 (s.die d).bbx.newest.toNat ++ [w8 (b2n (s.die d).bbx.frozen)]

/-- A BLACKBOX-READ of die `d` passes its checks. -/
structure BoxReadFits (s : State) (r : Req) (d : Nat) : Prop where
  fields : fieldsOk r 0x3FFFFFF false (!isMailbox r) false 32 32 = true
  capability : hasCap s r.fn 3 = true
  die : par r 0 1 = d
  least : 1 ≤ par r 13 13
  most : par r 13 13 ≤ if isMailbox r then 1 else 4096
  aligned : eB r.bytes % 32 = 0
  now : mustWait s r d = false
  reached : (isLost s d && !(s.die (1 - d)).arc.sideband) = false

/-- BLACKBOX-READ in the mailbox puts its record into DATA; from a queue it stores its records at B. -/
theorem blackboxAct_eq {s : State} {r : Req} {d : Nat} (fits : BoxReadFits s r d) :
    blackboxAct s r =
      if isMailbox r then replyWith (mailboxPut s r.fn 0x10 (boxRecords s r d)) r ccSuccess 0 (boxResult s d)
      else storedReply r (boxResult s d) (reqPut s r (eB r.bytes) (boxRecords s r d)) := by
  obtain ⟨fields, capability, rfl, least, most, aligned, now, reached⟩ := fits
  rw [blackboxAct, accepts_acts s r _ (by simp [fields, least, most, aligned]) capability]
  simp only [now, reached, Bool.or_self, Bool.false_eq_true, if_false]
  generalize hs : reqPut s r (eB r.bytes) (boxRecords s r (par r 0 1)) = stored
  rw [boxRecords] at hs
  rw [hs]
  rcases stored with ⟨_ | f, u⟩ <;> rfl

/-- Settles O16: each command is the action of its row on the request that its source takes, and each action has its equation above. A lost half is
left out by OTP-COMMIT and counts as place 0 (R485). -/
theorem otpCommitAndBlackboxRead : Obligations.OtpCommitAndBlackboxRead := by
  refine ⟨?commit, ?read⟩
  case commit =>
    intro s u v w src r g verify0 verify1 k0 k1 ok done0 done1 placed0 placed1
    have ⟨⟨asks, _⟩, _⟩ := ok
    refine (run_serve_isOp asks (.otpCommit src verify0 verify1) (otpCommitAct verify0 verify1) rfl).trans ?_
    rw [otpCommitAct_programs ok done0 done1 placed0 placed1]
  case read =>
    intro s src r d bs res ⟨asks, fields, capability⟩ die least most aligned now reached hbs hres
    subst hbs hres
    have serves := run_serve_isOp asks (.blackboxRead src) blackboxAct rfl
    rw [blackboxAct_eq ⟨fields, capability, die, least, most, aligned, now, reached⟩] at serves
    refine ⟨fun mail => serves.trans ?_, fun u queue store => serves.trans ?_⟩
    · rw [if_pos mail]
      rfl
    · rw [if_neg (by rw [queue]; decide), boxRecords, store]
      rfl

end Sys2Proof.Machine
end

section
/-! SUPPORT. Proofs about the fetch of entries and the publishing of heads (R271, R274). -/

namespace Sys2Proof.Machine

/-! ### The turns of queues and functions (R271) -/

theorem exec_entryFetch (s : State) (f : Nat) (hf : f < 8) : exec (.entryFetch f) s = .next (settle s (entryFetch s f)) :=
  run_eq (.entryFetch f) s (fun s => entryFetch s f) (decide_eq_true hf)

/-- The work queues of a function in the order of their turns, from `k` on. -/
def workTurns (k : Nat) : List Nat := rangeL k (128 - k) ++ rangeL 1 (k - 1)

section
variable {s u : State} {f : Nat}

/-- The function whose turn it is fetches from its first queue with an entry, the admin queue first, and its port's turn goes on. -/
theorem entryFetch_turn (turn : frontTurn s (fnPort f) = some f) :
    entryFetch s f =
      (fetchFirst s f (0 :: workTurns (s.func f).rr)).modDie (fnPort f) (fun x => { x with frontRr := (f + 1) % 4 }) :=
  if_pos turn

/-- An admin queue with an entry gives it before every work queue. -/
theorem fetchFirst_admin (rest : List Nat) (takes : takeEntry s f 0 = some u) : fetchFirst s f (0 :: rest) = u := by
  simp only [fetchFirst, takes, if_true]

/-- Queues with no entry are passed over. -/
theorem fetchFirst_append (before rest : List Nat) (empty : ∀ p ∈ before, takeEntry s f p = none) :
    fetchFirst s f (before ++ rest) = fetchFirst s f rest := by
  induction before with
  | nil => rfl
  | cons p before ih =>
    obtain ⟨first, others⟩ := List.forall_mem_cons.1 empty
    simp only [List.cons_append, fetchFirst, first, ih others]

/-- A work queue with an entry gives it and hands the turn to the next. -/
theorem fetchFirst_work {q : Nat} (rest : List Nat) (work : q ≠ 0) (takes : takeEntry s f q = some u) :
    fetchFirst s f (q :: rest) = u.modFunc f (fun x => { x with rr := if q = 127 then 1 else q + 1 }) := by
  simp only [fetchFirst, takes, work, if_false]

end

/-! ### The entry of a queue (R271) -/

/-- Changes of a queue that agree on it as it stands are the same change. -/
theorem modQueue_congr (s : State) (f q : Nat) {g h : Queue → Queue} (agree : g (s.queue f q) = h (s.queue f q)) :
    s.modQueue f q g = s.modQueue f q h := by
  rw [State.modQueue, agree, State.modQueue]

section
variable {s u : State} {f : Nat} {x : Queue} {i : Nat} {acc bs : List Byte}

@[simp] theorem unitsGet_zero : unitsGet f x 0 i s acc = (some acc, s) := rfl

/-- The one unit at index `i` of a ring. -/
theorem unitsGet_one (read : fetchGet s (fnParty s f) (x.ring.toNat + 64 * (i % 2 ^ x.sizeLog2)) 64 = (.ok bs, u)) :
    unitsGet f x 1 i s [] = (some bs, u) := by
  rw [unitsGet, read]
  rfl

end

/-- A fixed entry that lies before the tail and whose OWN bit is set is put in flight. -/
theorem takeEntry_fixed {s u : State} {f q : Nat} {e : List Byte} (offers : queueOffers s f q = true)
    (fixed : (s.queue f q).variable_ = false) (size : 1 ≤ (s.queue f q).sizeLog2)
    (waiting : ((s.queue f q).tail + 2 ^ (s.queue f q).sizeLog2 - (s.queue f q).fetch) % 2 ^ (s.queue f q).sizeLog2 ≠ 0)
    (read : fetchGet s (fnParty s f) ((s.queue f q).ring.toNat + 64 * ((s.queue f q).fetch % 2 ^ (s.queue f q).sizeLog2)) 64 = (.ok e, u))
    (own : eOwn e = true) (same : u.queue f q = s.queue f q) :
    takeEntry s f q = some ((u.modPkg (fun p => { p with fetched := p.fetched + 1 })).modQueue f q
      (fun x => Claims.inFlight x e [] 1 u.pkg.fetched u.edges)) := by
  have fits : ¬ 2 ^ (s.queue f q).sizeLog2 - 1 < 1 := by
    have := Nat.pow_le_pow_right (n := 2) (by decide) size
    omega
  have available : ¬ ((s.queue f q).tail + 2 ^ (s.queue f q).sizeLog2 - (s.queue f q).fetch) % 2 ^ (s.queue f q).sizeLog2 < 1 := by
    omega
  have one : (decide (1 = 0) || decide (64 < 1)) = false := rfl
  simp only [takeEntry, offers, unitsGet_one read, fixed, own, one, fits, available, Nat.sub_self, unitsGet_zero, Bool.not_true,
    Bool.false_eq_true, if_false]
  refine congrArg some (modQueue_congr _ f q ?_)
  have kept : (u.modPkg (fun p => { p with fetched := p.fetched + 1 })).queue f q = s.queue f q := same
  rw [kept]
  rfl

/-! ### Heads (R274) -/

theorem exec_headPublish (s : State) (f q : Nat) (hf : f < 8) (hq : q < 128) (up : dieUp s (fnPort f) = true) :
    exec (.headPublish f q) s = .next (settle s (destroyOver (headPublish s f q) f q)) := by
  refine (run_eq (.headPublish f q) s _ (Bool.and_eq_true_iff.2 ⟨decide_eq_true hf, decide_eq_true hq⟩)).trans ?_
  rw [if_pos up]

/-- The head of a RUNNING queue goes on over the entries `gone ++ [e]` that have completed at its front. -/
def headPassed (s : State) (f q : Nat) (gone : List Flight) (e : Flight) : State :=
  mirrorWrite (quarPassed (s.modQueue f q (fun x => { x with
    head := (e.idx + e.len) % 2 ^ (s.queue f q).sizeLog2, flight := x.flight.dropWhile (·.done) })) f q
    (fun i => (gone ++ [e]).any (fun e => e.idx = i))) f q false

/-- Publishing the head of a RUNNING queue raises the queue's source with NOTIFY. -/
theorem headPublish_running {s : State} {f q : Nat} {gone : List Flight} {e : Flight} (running : (s.queue f q).st = .running)
    (completed : (s.queue f q).flight.takeWhile (·.done) = gone ++ [e]) :
    headPublish s f q =
      if (s.queue f q).notify then
        raisePulse (headPassed s f q gone e) f q kindQueue ((e.idx + e.len) % 2 ^ (s.queue f q).sizeLog2)
      else headPassed s f q gone e := by
  simp only [headPublish, running, headAdvance, completed, List.getLast?_concat]
  rfl

/-- Settles O20: the turns are those of `fetchFirst` and `frontTurn`; an entry and a head have their equations above. -/
theorem entriesAreFetchedAndHeadsPublished : Obligations.EntriesAreFetchedAndHeadsPublished := by
  refine ⟨?admin, ?work, ?entry, ?head⟩
  case admin =>
    intro s u f hf turn takes
    rw [exec_entryFetch s f hf, entryFetch_turn turn, fetchFirst_admin _ takes]
  case work =>
    intro s u f q before after hf turn order noAdmin empty _ work takes
    have passed : ∀ p ∈ 0 :: before, takeEntry s f p = none := List.forall_mem_cons.2 ⟨noAdmin, empty⟩
    rw [exec_entryFetch s f hf, entryFetch_turn turn, workTurns, order, ← List.cons_append, fetchFirst_append _ _ passed,
      fetchFirst_work after work takes]
  case entry =>
    intro s u f q e offers fixed size waiting read own same
    exact takeEntry_fixed offers fixed size waiting read own same
  case head =>
    intro s f q gone e t hf hq up running completed ht
    obtain rfl : t = headPassed s f q gone e := ht
    rw [exec_headPublish s f q hf hq up, headPublish_running running completed]

end Sys2Proof.Machine
end

section
/-! SUPPORT. Proofs about event ring heads, acknowledgements and the routes of shared sources (R302, R304, R308, R309). -/

namespace Sys2Proof.Machine
open Claims

/-! ### The commands as runs -/

section
variable (s : State) (t : Nat) (v : Word) (ht : t < 10) (up : dieUp s (targetDie t) = true)
include ht up

theorem exec_evcHeadWrite : exec (.evcHeadWrite t v) s = .next (settle s (headWrite s (bankWho t) t (bankOff t 0x10) v)) := by
  refine (run_eq (.evcHeadWrite t v) s _ (decide_eq_true ht)).trans ?_
  rw [if_pos up]

theorem exec_evcAck : exec (.evcAck t v) s = .next (settle s (ackWrite s (bankWho t) t (bankOff t 0x18) v)) := by
  refine (run_eq (.evcAck t v) s _ (decide_eq_true ht)).trans ?_
  rw [if_pos up]

end

theorem exec_evcRouteWrite (s : State) {who : Who} (ok : who.ok = true) (d n : Nat) (v : Word) (hd : d < 2) (least : 256 ≤ n) (most : n < 768)
    (hr : portReach s who d = true) :
    exec (.evcRouteWrite who d n v) s = .next (settle s (routeWrite s who d n (0x20000 + 4 * (n - 256)) v)) := by
  have wellFormed : (Instr.evcRouteWrite who d n v).wf = true := by simp [Instr.wf, ok, hd, least, most]
  refine (run_eq (.evcRouteWrite who d n v) s _ wellFormed).trans ?_
  rw [if_pos hr]

/-! ### EVC_HEAD (R302, R304) -/

/-- With the head at `h`, INT stands while READY is set and records remain. -/
@[simp] theorem intOf_headAt (h : Nat) (g : Target) : intOf (headAt h g) = (g.ready && h != g.tail) := rfl

/-- A head inside the ring that passes no unwritten record moves. -/
theorem headWrite_moves (s : State) (who : Who) (t off : Nat) (v : Word) (live : (s.target t).live = true)
    (inRing : wf v 0 12 < 2 ^ (s.target t).sizeLog2)
    (written : (wf v 0 12 + 2 ^ (s.target t).sizeLog2 - (s.target t).head) % 2 ^ (s.target t).sizeLog2 ≤
      ((s.target t).tail + 2 ^ (s.target t).sizeLog2 - (s.target t).head) % 2 ^ (s.target t).sizeLog2) :
    headWrite s who t off v =
      if wf v 0 12 = (s.target t).tail then
        (s.modTarget t (headAt (wf v 0 12))).modTarget t (fun x => { x with ready := false, paces := [] })
      else if intOf ((s.modTarget t (headAt (wf v 0 12))).target t) then messageDue (s.modTarget t (headAt (wf v 0 12))) t
      else s.modTarget t (headAt (wf v 0 12)) := by
  simp only [headWrite, live, Nat.not_le.2 inRing, Nat.not_lt.2 written, decide_false, Bool.or_self, Bool.not_true, Bool.false_eq_true,
    if_false]
  rfl

/-! ### EVC_ACK (R308) -/

/-- The target of a source in service takes it out of service. -/
theorem ackWrite_inService (s : State) (who : Who) (off : Nat) (v : Word) (least : 256 ≤ wf v 0 10) (most : wf v 0 10 < 768)
    (serves : (s.source (wf v 0 10)).inService = true) :
    ackWrite s who (routeTarget (s.source (wf v 0 10))) off v =
      routeApply (sampleLevel (s.modSource (wf v 0 10) (fun x => { x with inService := false })) (wf v 0 10)) (wf v 0 10) := by
  simp [ackWrite, serves, Nat.not_lt.2 least, Nat.not_le.2 most]

/-! ### EVC_ROUTE (R309, R313) -/

/-- The fields of a route as a write of EVC_ROUTE gives them; its other bits are reserved (R313). -/
def routeFields (v : Word) : Word := w32 (wf v 0 7 + 256 * wf v 8 11)

/-- A source takes ENABLE of the route written; TARGET, SENSE and VERTEX wait where they differ from those in force. -/
def routeWritten (v : Word) (x : Shared) : Shared :=
  { x with
    next := if wf x.route 0 6 = wf (routeFields v) 0 6 ∧ wf x.route 8 11 = wf (routeFields v) 8 11 then none else some (routeFields v)
    route := put x.route 6 1 (wf (routeFields v) 6 1) }

/-- An allowed route of a source that exists is taken through the source's home die. -/
theorem routeWrite_allowed (s : State) (who : Who) (n off : Nat) (v : Word) (low : ¬(516 ≤ n ∧ n < 520)) (high : ¬(524 ≤ n ∧ n < 528))
    (allowed : routeOk s n v = true) :
    routeWrite s who (sourceDie n) n off v =
      if !routeOn (s.source n) && wb (routeFields v) 6 then sampleLevel (routeApply (s.modSource n (routeWritten v)) n) n
      else routeApply (s.modSource n (routeWritten v)) n := by
  have there : (sourceDie n != sourceDie n || (decide (516 ≤ n) && decide (n < 520)) || (decide (524 ≤ n) && decide (n < 528))) = false := by
    simp only [bne_self_eq_false, ← Bool.decide_and, low, high, decide_false, Bool.or_self]
  simp only [routeWrite, there, allowed, Bool.not_true, Bool.false_eq_true, if_false, Bool.and_eq_true, decide_eq_true_eq]
  rfl

/-- Settles O21: each command is the run of one write, and each write has its equation above. -/
theorem eventHeadsAcksAndRoutes : Obligations.EventHeadsAcksAndRoutes := by
  refine ⟨?head, ?ack, ?route⟩
  case head =>
    intro s t v ht up live g n h inRing written
    have int : intOf ((s.modTarget t (headAt h)).target t) = (g.ready && h != g.tail) := by
      rw [State.modTarget_target, if_pos rfl, intOf_headAt]
    refine ⟨fun empty => ?_, fun remain ready => ?_, fun remain waits => ?_⟩ <;>
      rw [exec_evcHeadWrite s t v ht up, headWrite_moves s _ t _ v live inRing written]
    · rw [if_pos empty]
    · rw [if_neg remain, int, ready, Bool.true_and, if_pos (bne_iff_ne.2 remain)]
    · rw [if_neg remain, int, waits, Bool.false_and, if_neg Bool.false_ne_true]
  case ack =>
    intro s t v ht up least most serves target
    subst target
    rw [exec_evcAck s _ v ht up, ackWrite_inService s _ _ v least most serves]
  case route =>
    intro s who d n v u ok hd least most hr home low high allowed hu
    subst home
    obtain rfl : u = routeApply (s.modSource n (routeWritten v)) n := hu
    rw [exec_evcRouteWrite s ok _ n v hd least most hr, routeWrite_allowed s who n _ v low high allowed, routeFields]

end Sys2Proof.Machine
end

section
/-! SUPPORT. Proofs about moderation (R305, R306, R313), the ring writer (R300, R302, R303) and the mask of a vector (R304). -/

namespace Sys2Proof.Machine
open Claims

/-! ### Moderation values (R306, R313) -/

/-- A moderation value as it stands in its register: its reserved bits 1 to 7 read 0 (R312). -/
def modValue (v : Word) : Word := w32 (v.toNat - fld v.toNat 1 7 * 2)

/-- The moderation of group `g` becomes `w`, in a target's own registers or in a die's shared ones. -/
def targetModSet (g : Nat) (w : Word) (x : Target) : Target := { x with mods := tset 0x00010100 x.mods g w }
def dieModSet (g : Nat) (w : Word) (x : Die) : Die := { x with smod := tset 0x00010100 x.smod g w }

section
variable (s : State) (t g : Nat) (v : Word)

/-- A function writes the moderation of its own groups through its bank. -/
theorem exec_moderationWrite_own (ht : t < 8) (own : g < 16) (up : dieUp s (targetDie t) = true) :
    exec (.moderationWrite (.fn t) t g v) s = .next (settle s (modWrite s (.fn t) t g (bankOff t (0x40 + 4 * g)) v)) := by
  have wellFormed : (Instr.moderationWrite (.fn t) t g v).wf = true := by
    simp only [Instr.wf, Who.ok, Bool.and_eq_true, decide_eq_true_eq]
    omega
  refine (run_eq (.moderationWrite (.fn t) t g v) s (fun s => moderate s (.fn t) t g v) wellFormed).trans ?_
  simp [moderate, own, up]

/-- Function 0 writes the moderation of a shared group through die 0. -/
theorem exec_moderationWrite_shared (ht : t < 10) (shared : 16 ≤ g) (hg : g < 48) (hr : portReach s (.fn 0) 0 = true) :
    exec (.moderationWrite (.fn 0) t g v) s = .next (settle s (smodWrite s (.fn 0) 0 g (0x20800 + 4 * (g - 16)) v)) := by
  have wellFormed : (Instr.moderationWrite (.fn 0) t g v).wf = true := by
    simp only [Instr.wf, Who.ok, Bool.and_eq_true, decide_eq_true_eq]
    omega
  refine (run_eq (.moderationWrite (.fn 0) t g v) s (fun s => moderate s (.fn 0) t g v) wellFormed).trans ?_
  rw [moderate, if_neg (Nat.not_lt.2 shared), reachWrite, if_pos hr]

end

section
variable (s : State) (who : Who) {v : Word} (good : modOk v = true)
include good

theorem modWrite_allowed (t g off : Nat) :
    modWrite s who t g off v = modApplied (s.modTarget t (targetModSet g (modValue v))) t g (modOf s t g) := by
  rw [modWrite, good, if_neg (by decide)]
  rfl

/-- A shared group's value stands on both dies and is judged anew for every target. -/
theorem smodWrite_allowed (d g off : Nat) :
    smodWrite s who d g off v = (List.range 10).foldl (fun u k => modApplied u k g (modOf s 0 g))
      ((s.modDie 0 (dieModSet g (modValue v))).modDie 1 (dieModSet g (modValue v))) := by
  rw [smodWrite, good, if_neg (by decide)]
  rfl

end

/-! ### Releases (R304, R305) -/

theorem exec_moderationTimer (s : State) (t g : Nat) (ht : t < 10) (hg : g < 48) :
    exec (.moderationTimer t g) s = .next (settle s (judgePair s t g)) :=
  run_eq (.moderationTimer t g) s (fun s => judgePair s t g) (Bool.and_eq_true_iff.2 ⟨decide_eq_true ht, decide_eq_true hg⟩)

theorem judgePair_due (s : State) (t g : Nat) (due : groupDue s t g = true) : judgePair s t g = releasePair s t g :=
  if_pos due

/-! ### The ring writer (R300, R302, R303) -/

theorem exec_eventRecordWrite (s : State) (t : Nat) (ht : t < 10) :
    exec (.eventRecordWrite t) s = .next (settle s (recordWrite s t)) :=
  run_eq (.eventRecordWrite t) s (fun s => recordWrite s t) (decide_eq_true ht)

/-- The writer has written within the last 4 ticks (R303). -/
def wroteLately (s : State) (t : Nat) : Bool :=
  match (s.target t).wroteAt with
  | some a => decide (s.edges < a + 4)
  | none => false

theorem wroteLately_eq_false (s : State) (t : Nat) (rested : ∀ a, (s.target t).wroteAt = some a → a + 4 ≤ s.edges) :
    wroteLately s t = false := by
  rw [wroteLately]
  cases wrote : (s.target t).wroteAt with
  | none => rfl
  | some a => exact decide_eq_false (Nat.not_lt.2 (rested a wrote))

/-- A writer that may write gives the record of the source whose turn it is. -/
theorem recordWrite_writes {s u : State} {t n : Nat} {o : Occ} (live : (s.target t).live = true) (room : ringFull (s.target t) = false)
    (runs : writerRuns s t = true) (rested : wroteLately s t = false) (turn : nextSource s t = some n) (takes : takeOcc s t n = some (o, u)) :
    recordWrite s t = recordStands u t n (s.target t) o := by
  have mayWrite : ¬ (!(s.target t).live || ringFull (s.target t) || !writerRuns s t || wroteLately s t) = true := by
    simp [live, room, runs, rested]
  refine (if_neg mayWrite).trans ?_
  rw [turn]
  simp only [takes]
  rfl

/-! ### The mask of a vector (R304) -/

theorem exec_msixUnmask (s : State) (f : Nat) (hf : f < 8) (up : dieUp s (fnPort f) = true) :
    exec (.msixUnmask f) s = .next (settle s (msixWrite s f 12 0)) := by
  refine (run_eq (.msixUnmask f) s _ (decide_eq_true hf)).trans ?_
  rw [if_pos up]

/-- A target with its vector's mask clear. -/
def unmasked (g : Target) : Target := { g with masked := false }

/-- Clearing the mask sends the message that waits for it, or drops it once INT is gone. -/
theorem msixWrite_unmasks (s : State) (f : Nat) :
    msixWrite s f 12 0 =
      if (s.target f).masked && (s.target f).msixPending then
        (if intOf (s.target f) then messageDue (s.modTarget f unmasked) f
         else (s.modTarget f unmasked).modTarget f (fun g => { g with msixPending := false }))
      else s.modTarget f unmasked := by
  have clear : (!wb (0 : Word) 0) = true := rfl
  rw [msixWrite]
  simp only [clear, Bool.and_true]
  rfl

/-- Settles O22: each command is the run of one of the operations above. -/
theorem moderationRecordsAndMessages : Obligations.ModerationRecordsAndMessages := by
  refine ⟨?own, ?shared, ?release, ?record, ?unmask⟩
  case own =>
    intro s t g v ht own up good
    rw [exec_moderationWrite_own s t g v ht own up, modWrite_allowed s _ good]
    rfl
  case shared =>
    intro s t g v ht shared hg hr good
    rw [exec_moderationWrite_shared s t g v ht shared hg hr, smodWrite_allowed s _ good]
    rfl
  case release =>
    intro s t g u ht hg due hu
    rw [exec_moderationTimer s t g ht hg, judgePair_due s t g due, releasePair, hu]
  case record =>
    intro s t n o u ht live room runs rested turn takes
    rw [exec_eventRecordWrite s t ht,
      recordWrite_writes live (decide_eq_false room) runs (wroteLately_eq_false s t rested) turn takes]
  case unmask =>
    intro s f hf up u
    refine ⟨fun masked waits int => ?_, fun masked waits noInt => ?_, fun idle => ?_⟩ <;>
      rw [exec_msixUnmask s f hf up, msixWrite_unmasks]
    · rw [masked, waits, int]
      rfl
    · rw [masked, waits, noInt]
      rfl
    · have nothingWaits : ((s.target f).masked && (s.target f).msixPending) = false := by
        rcases idle with open_ | sent
        · rw [open_, Bool.false_and]
        · rw [sent, Bool.and_false]
      rw [nothingWaits]
      rfl

end Sys2Proof.Machine
end

section
/-! SUPPORT. Proofs about direct transfer channels (R319–R323) and the phases of a region bus (R328–R333). -/

namespace Sys2Proof.Machine

/-! ### The commands as runs -/

theorem exec_xfrStart (s : State) (who : Who) (ch : Nat) (ok : who.ok = true) (hch : ch < 128) (reach : portReach s who (ch / 64) = true) :
    exec (.xfrStart who ch) s = .next (settle s (xfrBegin s who ch (xfrOff ch 0x18) 1)) := by
  refine (run_eq (.xfrStart who ch) s _ (Bool.and_eq_true_iff.2 ⟨ok, decide_eq_true hch⟩)).trans ?_
  rw [if_pos reach]

section
variable (s : State) (ch : Nat) (hch : ch < 128)
include hch

theorem exec_xfrStop (up : dieUp s (ch / 64) = true) : exec (.xfrStop ch) s = .next (settle s (xfrEnd s ch)) := by
  refine (run_eq (.xfrStop ch) s _ (decide_eq_true hch)).trans ?_
  rw [if_pos up]

theorem exec_xfrRunPiece (runs : regionRuns s (ch / 16) = true) :
    exec (.xfrRunPiece ch) s = .next (settle s (xfrPiece portPw s ch)) := by
  refine (run_eq (.xfrRunPiece ch) s _ (decide_eq_true hch)).trans ?_
  rw [if_pos runs]

theorem exec_xfrCountEnd (runs : regionRuns s (ch / 16) = true) :
    exec (.xfrCountEnd ch) s = .next (settle s (xfrCounted portPw s ch)) := by
  refine (run_eq (.xfrCountEnd ch) s _ (decide_eq_true hch)).trans ?_
  rw [if_pos runs]

end

/-- A phase of a region that runs, with requests that are requests, is one cycle of its arbiter. -/
theorem exec_arbPhase (s : State) (r : Nat) (reqs : List BusReq) (withdraw : Bool) (hr : r < 8) (runs : regionRuns s r = true)
    (requests : arbOk reqs = true) :
    exec (.arbPhase r reqs withdraw) s =
      .next (settle s (s.modRegion r (fun x => { x with arb := arbCycle x.arb reqs withdraw }))) := by
  refine (run_eq (.arbPhase r reqs withdraw) s _ (decide_eq_true hr)).trans ?_
  rw [runs, requests, if_pos (Bool.and_self true)]

/-! ### A run begins and stops (R319, R320, R323) -/

/-- START of a channel that is set up, in service and not running makes a run of it once the checks pass. -/
theorem xfrBegin_starts {s u : State} {ch : Nat} (who : Who) (off : Nat) (v : Word) (idle : (s.xfr ch).st ≠ .running)
    (on : xfrOn (s.xfr ch).cfg = true) (direct : xfrDirect (s.xfr ch).cfg = true) (serves : (s.xfr ch).unit = .inService)
    (checked : xfrStartFail s ch = (none, u)) :
    xfrBegin s who ch off v = u.modXfr ch (fun x => { x with
      st := .running, code := 0, done := 0, wraps := 0, acc := xfrAcc x.cfg, rx := [] }) := by
  simp only [xfrBegin, idle, on, direct, serves, checked, bne_self_eq_false, decide_false, Bool.not_true, Bool.or_self,
    Bool.false_eq_true, if_false]

theorem xfrEnd_running (s : State) (ch : Nat) (runs : (s.xfr ch).st = .running) : xfrEnd s ch = xfrFail s ch xfrStopped :=
  if_pos runs

/-! ### A run goes on and ends (R321, R322) -/

/-- A piece between two addresses that no bridge cuts off, read and written without a failure, is counted. -/
theorem xfrPiece_moves {s u v : State} {ch : Nat} {bs : List Byte} (runs : (s.xfr ch).st = .running)
    (memory : xfrStream (s.xfr ch).cfg = false) (left : (s.xfr ch).done.toNat < (s.xfr ch).count.toNat)
    (srcReached : crossesDown s ch ((s.xfr ch).src.toNat + (s.xfr ch).done.toNat) (xfrParty s ch).fn = false)
    (dstReached : crossesDown s ch ((s.xfr ch).dst.toNat + (s.xfr ch).done.toNat) (xfrParty s ch).fn = false)
    (read : rawRead s (xfrParty s ch) ((s.xfr ch).src.toNat + (s.xfr ch).done.toNat)
      (min 256 ((s.xfr ch).count.toNat - (s.xfr ch).done.toNat)) = (.ok bs, u))
    (written : rawWrite portPw u (xfrParty s ch) ((s.xfr ch).dst.toNat + (s.xfr ch).done.toNat) bs .data false = (none, v)) :
    xfrPiece portPw s ch = v.modXfr ch (fun x => xfrMoved x bs) := by
  have bytesLeft : (s.xfr ch).count.toNat - (s.xfr ch).done.toNat ≠ 0 := Nat.sub_ne_zero_of_lt left
  simp only [xfrPiece, runs, bytesLeft, memory, srcReached, dstReached, read, written, bne_self_eq_false, decide_false,
    Bool.or_self, Bool.false_eq_true, if_false]

/-- Changes of a channel that agree on it as it stands are the same change. -/
theorem modXfr_congr (s : State) (ch : Nat) {f g : Xfr → Xfr} (h : f (s.xfr ch) = g (s.xfr ch)) : s.modXfr ch f = s.modXfr ch g := by
  rw [State.modXfr, h]
  rfl

/-- A run that has counted its bytes, stores no check word and does not wrap is DONE, and its owner is told. -/
theorem xfrCounted_done (s : State) (ch : Nat) (runs : (s.xfr ch).st = .running) (counted : (s.xfr ch).done = (s.xfr ch).count)
    (storesNone : xfrStore (s.xfr ch).cfg = false) (once : xfrWrap (s.xfr ch).cfg = false) :
    xfrCounted portPw s ch = xfrRaise (s.modXfr ch (fun x => xfrIdleApply { x with
      check := if xfrCheck (s.xfr ch).cfg = 0 then 0 else accResult (s.xfr ch).acc, st := .done })) ch := by
  simp only [xfrCounted, runs, counted, storesNone, bne_self_eq_false, Bool.false_and, Bool.or_self, Bool.false_eq_true, if_false]
  exact congrArg (fun t => xfrRaise t ch) (modXfr_congr s ch (if_neg (Bool.eq_false_iff.1 once)))

/-- Settles O29: each command is the run of one operation, which has its equation above. What a cycle of the arbiter chooses stands in
`arbCycle` (log 55). -/
theorem channelsAndBus : Obligations.ChannelsAndBus := by
  refine ⟨?start, ?stop, ?piece, ?counted, ?phase⟩
  case start =>
    intro s u who ch ok hch reach idle on direct serves checked
    rw [exec_xfrStart s who ch ok hch reach, xfrBegin_starts who _ _ idle on direct serves checked]
  case stop =>
    intro s ch hch up runs
    rw [exec_xfrStop s ch hch up, xfrEnd_running s ch runs]
  case piece =>
    intro s u v ch bs hch region runs memory left x srcReached dstReached read written
    rw [exec_xfrRunPiece s ch hch region, xfrPiece_moves runs memory left srcReached dstReached read written]
    rfl
  case counted =>
    intro s ch hch region runs counted storesNone once
    rw [exec_xfrCountEnd s ch hch region, xfrCounted_done s ch runs counted storesNone once]
  case phase =>
    intro s r reqs withdraw hr runs requests
    exact exec_arbPhase s r reqs withdraw hr runs requests

end Sys2Proof.Machine
end

section
/-! SUPPORT. Proofs about the flits of the Arc bridge (R337, R341), its loss and its training (R342, R343). -/

namespace Sys2Proof.Machine

/-! ### The commands as runs -/

theorem exec_arcFlitReceive (s : State) (d : Nat) (seq : Half) (ok : Bool) (ch : ArcChannel) (hd : d < 2) :
    exec (.arcFlitReceive d seq ok ch) s = .next (settle s (flitArrives s d seq ok ch)) :=
  run_eq (.arcFlitReceive d seq ok ch) s (fun s => flitArrives s d seq ok ch) (decide_eq_true hd)

theorem exec_arcDown (s : State) (cause : ArcCause) : exec (.arcDown cause) s = .next (settle s (arcGoesDown s cause)) :=
  run_eq (.arcDown cause) s (fun s => arcGoesDown s cause) rfl

theorem exec_arcRetrain (s : State) (ok : Bool) : exec (.arcRetrain ok) s = .next (settle s (arcRetrains s ok)) :=
  run_eq (.arcRetrain ok) s (fun s => arcRetrains s ok) rfl

/-! ### Flits (R337, R341) -/

/-- What a flit that is taken makes of the state: it stands in its channel's buffer, and both ends count it. -/
def flitTaken (s : State) (d : Nat) (ch : ArcChannel) : State :=
  modArc (modArc (modArc s d (arcPush ch)) d (fun a => { a with expect := a.expect + 1, bad := 0, rx := a.rx + 1 })) (1 - d)
    (fun a => { a with tx := a.tx + 1 })

/-- What a flit that fails its check makes of the state: the receiver counts the failure, the sender the replay. -/
def flitReplayed (s : State) (d : Nat) : State :=
  modArc (modArc s d (fun a => { a with bad := a.bad + 1 })) (1 - d) (fun a => { a with replays := sat a.replays })

section
variable {s : State} {d : Nat} {ch : ArcChannel} (up : arcUp s = true) (carries : (s.die d).arc.link = 2)
  (room : arcFull (s.die d).arc ch = false)
include up carries room

/-- A flit in sequence that passes its check is taken. -/
theorem flitArrives_inSequence : flitArrives s d (s.die d).arc.expect true ch = flitTaken s d ch := by
  simp only [flitArrives, up, carries, room, bne_self_eq_false, Bool.not_true, Bool.or_self, Bool.false_eq_true, if_false, if_true]
  rfl

/-- A flit that fails its check, whatever its sequence number, is replayed; the fourth failure in a row ends the bridge. -/
theorem flitArrives_fails (seq : Half) : flitArrives s d seq false ch =
    if (s.die d).arc.bad = 3 then arcDownAt portPw (flitReplayed s d) 1 else flitReplayed s d := by
  simp only [flitArrives, up, carries, room, bne_self_eq_false, Bool.not_true, Bool.or_self, Bool.false_eq_true, if_false,
    Nat.reduceEqDiff]
  rfl

end

/-! ### The bridge goes down (R341, R342) -/

/-- Only a bridge that is parked at both ends is spared, and only by the causes that a parked bridge cannot show. -/
theorem arcGoesDown_up (s : State) (cause : ArcCause) (up : arcUp s = true)
    (shown : s.die0.arc.link ≠ 3 ∨ s.die1.arc.link ≠ 3 ∨ (cause ≠ .silence ∧ cause ≠ .replayLimit)) :
    arcGoesDown s cause = arcDownAt portPw s (arcCode cause) := by
  refine if_neg ?_
  simp only [up, Bool.not_true, Bool.false_or, Bool.and_eq_true, Bool.or_eq_true, decide_eq_true_eq]
  rintro ⟨⟨parked0, parked1⟩, spared⟩
  rcases shown with notParked | notParked | ⟨notSilence, notLimit⟩
  · exact notParked parked0
  · exact notParked parked1
  · exact spared.elim notSilence notLimit

/-! ### Training (R342) -/

/-- A training attempt that failed is recorded with its cause, and the next is 1,000 ticks after tick `now`. -/
def arcTriesAgain (now : Nat) (a : Arc) : Arc := { a with cause := 4, tryAt := now + 1000 }

/-- An attempt that is due, of two halves that live. -/
theorem arcRetrains_due (s : State) (ok : Bool) (down : arcUp s = false) (lives0 : halfLives s 0 = true) (lives1 : halfLives s 1 = true)
    (due0 : s.die0.arc.tryAt ≤ s.edges) (due1 : s.die1.arc.tryAt ≤ s.edges) :
    arcRetrains s ok =
      if ok then arcReturns s else modArc (modArc s 0 (arcTriesAgain s.edges)) 1 (arcTriesAgain s.edges) := by
  simp only [arcRetrains, down, lives0, lives1, decide_eq_false (Nat.not_lt.2 due0), decide_eq_false (Nat.not_lt.2 due1),
    Bool.not_true, Bool.or_self, Bool.false_eq_true, if_false]
  rfl

/-- Settles O37: each command is the run of one operation, which has its equation above. A failed attempt is recorded with CAUSE 4 (log 36);
a taken flit stands in its buffer until the buffer drains (log 72). -/
theorem arcCarriesFlits : Obligations.ArcCarriesFlits := by
  refine ⟨?inSequence, ?fails, ?goesDown, ?trains⟩
  case inSequence =>
    intro s d ch hd up carries room
    rw [exec_arcFlitReceive s d _ true ch hd, flitArrives_inSequence up carries room]
    rfl
  case fails =>
    rintro s d q ch t hd up carries room rfl
    rw [exec_arcFlitReceive s d q false ch hd, flitArrives_fails up carries room q]
    refine ⟨fun earlier => ?_, fun fourth => ?_⟩
    · rw [if_neg earlier]
      rfl
    · rw [if_pos fourth]
      rfl
  case goesDown =>
    intro s cause up shown
    rw [exec_arcDown, arcGoesDown_up s cause up shown]
  case trains =>
    intro s down lives0 lives1 due0 due1
    refine ⟨?_, ?_⟩ <;> rw [exec_arcRetrain, arcRetrains_due s _ down lives0 lives1 due0 due1]
    · rw [if_pos rfl]
    · rw [if_neg Bool.false_ne_true]
      rfl

end Sys2Proof.Machine
end

section
/-! SUPPORT. Proofs about steps and runs: the queue is served in order (log 1), and only a cold reset changes the straps (R473) and the OTP
generation in force (R484). -/

namespace Sys2Proof.Machine
open Claims

/-! ### What a command answers -/

/-- A state keeps what it keeps itself. -/
theorem settle_self (s : State) : settle s s = s := settle_eq s s rfl rfl rfl rfl rfl rfl rfl rfl rfl

/-- A run answers a settled state, whether the command is well-formed or not. -/
theorem run_settles (i : Instr) (s : State) (f : State → State) : ∃ u, run i s f = .next (settle s u) := by
  cases wf : i.wf with
  | true => exact ⟨f s, run_eq i s f wf⟩
  | false => exact ⟨s, by rw [run_ill_formed i s f wf, settle_self]⟩

theorem exec_settles (c : Instr) (s : State) (warm : ∀ k f, c ≠ .coldReset k f) : ∃ u, exec c s = .next (settle s u) := by
  obtain ⟨f, isRun⟩ := exec_is_run c s warm
  rw [isRun]
  exact run_settles c s f

/-- Every command, a cold reset too, answers a state with the same queue behind it at the same edge. -/
theorem exec_keeps_queue (c : Instr) (s : State) : ∃ t, exec c s = .next t ∧ t.pending = s.pending ∧ t.edges = s.edges := by
  by_cases cold : ∃ k f, c = .coldReset k f
  · obtain ⟨k, f, rfl⟩ := cold
    exact ⟨_, rfl, rfl, rfl⟩
  · obtain ⟨u, answers⟩ := exec_settles c s (fun k f h => cold ⟨k, f, h⟩)
    exact ⟨_, answers, settle_pending s u, settle_edges s u⟩

/-- Every command but a cold reset keeps the straps and the OTP generation in force. -/
theorem exec_keeps_identity {c : Instr} {s t : State} (warm : isColdReset c = false) (answers : exec c s = .next t) : sameIdentity s t := by
  obtain ⟨u, settled⟩ := exec_settles c s (fun k f h => by rw [h] at warm; cases warm)
  cases settled.symm.trans answers
  obtain ⟨-, -, sysId, standby, tiebreak, force0, force1, skipped0, skipped1⟩ := settle_keeps s u
  exact ⟨sysId, standby, tiebreak, force0, skipped0, force1, skipped1⟩

/-! ### What a step answers -/

theorem step_command {s : State} {c : Instr} {rest : List Instr} (front : s.pending = c :: rest) :
    step s = exec c { s with pending := rest } := by
  rw [step, front]

theorem step_idle {s : State} (empty : s.pending = []) : step s = .next (tick s) := by
  rw [step, empty]

/-- A step with a command takes it off the queue and passes no time. -/
theorem step_serves {s : State} {c : Instr} {rest : List Instr} (front : s.pending = c :: rest) :
    ∃ t, step s = .next t ∧ t.pending = rest ∧ t.edges = s.edges := by
  rw [step_command front]
  exact exec_keeps_queue c { s with pending := rest }

/-- A step on an empty queue leaves it empty and passes one pilot edge. -/
theorem step_ticks {s : State} (empty : s.pending = []) : ∃ t, step s = .next t ∧ t.pending = [] ∧ t.edges = s.edges + 1 :=
  ⟨tick s, step_idle empty, (tick_keeps s).1.trans empty, (tick_keeps s).2.1⟩

/-- Both forms of a step at once: it drops the front of the queue, and passes time only where there is none. -/
theorem step_answers (s : State) : ∃ t, step s = .next t ∧ t.pending = s.pending.tail ∧ t.edges = s.edges + (1 - s.pending.length) := by
  cases waiting : s.pending with
  | nil => exact step_ticks waiting
  | cons c rest =>
    obtain ⟨t, answers, queue, edges⟩ := step_serves waiting
    exact ⟨t, answers, queue, by rw [edges, List.length_cons]; omega⟩

theorem sameIdentity_keeps {k : Straps} {g0 g1 : Nat} {s t : State} (same : sameIdentity s t) (identity : Identity k g0 g1 s) :
    Identity k g0 g1 t := by
  obtain ⟨sysId, standby, tiebreak, force0, skipped0, force1, skipped1⟩ := same
  rw [Identity, sysId, standby, tiebreak, force0, skipped0, force1, skipped1]
  exact identity

/-- A step that takes no cold reset keeps the straps and the OTP generation in force. -/
theorem step_keeps_identity {s t : State} (answers : step s = .next t) (warm : ∀ c rest, s.pending = c :: rest → isColdReset c = false) :
    sameIdentity s t := by
  cases waiting : s.pending with
  | nil =>
    cases (step_idle waiting).symm.trans answers
    obtain ⟨-, -, sysId, standby, tiebreak, force0, force1, skipped0, skipped1⟩ := tick_keeps s
    exact ⟨sysId, standby, tiebreak, force0, skipped0, force1, skipped1⟩
  | cons c rest => exact exec_keeps_identity (s := { s with pending := rest }) (warm c rest waiting) ((step_command waiting).symm.trans answers)

/-! ### What runs answer -/

/-- `n` steps drop the first `n` commands, and pass one edge for each step that finds none. -/
theorem runs_answer (n : Nat) (s : State) :
    ∃ t, Runs n s t ∧ t.pending = s.pending.drop n ∧ t.edges = s.edges + (n - s.pending.length) := by
  induction n generalizing s with
  | zero => exact ⟨s, rfl, rfl, by omega⟩
  | succ n ih =>
    obtain ⟨u, answers, queue, edges⟩ := step_answers s
    obtain ⟨t, runs, queue', edges'⟩ := ih u
    refine ⟨t, ⟨u, answers, runs⟩, ?_, ?_⟩
    · rw [queue', queue, ← List.drop_one, List.drop_drop, Nat.add_comm]
    · rw [edges', edges, queue, List.length_tail]
      omega

/-- A run whose commands are none of them cold resets keeps the straps and the OTP generation in force. -/
theorem runs_keep_identity {k : Straps} {g0 g1 : Nat} (n : Nat) {s t : State} (identity : Identity k g0 g1 s) (runs : Runs n s t)
    (warm : ∀ c ∈ s.pending.take n, isColdReset c = false) : Identity k g0 g1 t := by
  induction n generalizing s with
  | zero => exact runs ▸ identity
  | succ n ih =>
    obtain ⟨u, answers, rest⟩ := runs
    have front : ∀ c rest, s.pending = c :: rest → isColdReset c = false := fun c rest waiting =>
      warm c (by rw [waiting]; exact List.mem_cons_self)
    have queue : u.pending = s.pending.tail := by
      obtain ⟨u', answers', queue, -⟩ := step_answers s
      cases answers.symm.trans answers'
      exact queue
    refine ih (sameIdentity_keeps (step_keeps_identity answers front) identity) rest (fun c waits => warm c ?_)
    cases waiting : s.pending with
    | nil => rw [queue, waiting, List.tail_nil, List.take_nil] at waits; cases waits
    | cons d ds => rw [queue, waiting] at waits; exact List.mem_cons_of_mem d waits

/-- Settles O53: a command but a cold reset is settled, and a tick keeps the same; runs follow by induction on their length. -/
theorem onlyColdResetChangesIdentity : Obligations.OnlyColdResetChangesIdentity :=
  ⟨fun _ _ _ _ _ identity answers warm => sameIdentity_keeps (step_keeps_identity answers warm) identity,
   fun n _ _ _ _ _ identity runs warm => runs_keep_identity n identity runs warm⟩

/-- Settles O52: one step drops the front command or passes an edge, and runs follow by induction on their length. -/
theorem theQueueIsServedInOrder : Obligations.TheQueueIsServedInOrder := by
  refine ⟨fun s empty => step_ticks empty, fun s c rest front => step_serves front, fun s => ?_, fun n s => ?_⟩
  · obtain ⟨t, runs, queue, edges⟩ := runs_answer s.pending.length s
    exact ⟨t, runs, by rw [queue, List.drop_length], by rw [edges, Nat.sub_self, Nat.add_zero]⟩
  · obtain ⟨t, runs, -, edges⟩ := runs_answer n s
    exact ⟨t, runs, edges⟩

end Sys2Proof.Machine
end

section
/-! SUPPORT. Proofs about the steward's units: the results of ALU, MUL, SHF and CMP (R360), the values that loads give (R361, R362), the
targets of branches (R368) and the branch predictor (R370–R372). -/

namespace Sys2Proof.Machine

/-! ### Results as numbers -/

theorem w32_toNat {k : Nat} (inRange : k < 2 ^ 32) : (w32 k).toNat = k := by
  rw [w32, BitVec.toNat_ofNat, Nat.mod_eq_of_lt inRange]

theorem w32_b2n (b : Bool) : w32 (b2n b) = if b then 1 else 0 := by cases b <;> rfl

/-- A field that begins at bit 0 is a remainder. -/
theorem wf_zero (w : BitVec n) (len : Nat) : wf w 0 len = w.toNat % 2 ^ len := by rw [wf, fld, Nat.pow_zero, Nat.div_one]

theorem iw32_toInt {i : Int} (least : -2147483648 ≤ i) (most : i ≤ 2147483647) : (iw32 i).toInt = i := by
  rw [iw32, BitVec.toInt_ofInt]
  exact Int.bmod_eq_of_le (by omega) (by omega)

/-- Saturation takes the nearest value that a signed word has. -/
theorem satS_toInt (i : Int) : (satS i).toInt = max (-2147483648) (min 2147483647 i) := by
  rw [satS, iw32_toInt] <;> omega

theorem word_toInt_bounds (a : Word) : -2147483648 ≤ a.toInt ∧ a.toInt ≤ 2147483647 := by
  have least := BitVec.le_toInt a
  have most := BitVec.toInt_lt (x := a)
  omega

/-- The product of two signed words lies within 62 bits and a sign. -/
theorem word_toInt_mul_bounds (a v : Word) :
    -4611686018427387904 ≤ a.toInt * v.toInt ∧ a.toInt * v.toInt ≤ 4611686018427387904 := by
  have size (w : Word) : w.toInt.natAbs ≤ 2147483648 := by
    have := word_toInt_bounds w
    omega
  have product : (a.toInt * v.toInt).natAbs ≤ 2147483648 * 2147483648 := by
    rw [Int.natAbs_mul]
    exact Nat.mul_le_mul (size a) (size v)
  omega

/-! ### ALU, MUL, SHF and CMP (R360) -/

theorem aluOp_signed (a v : Word) :
    (aluOp 7 a v).toInt = min a.toInt v.toInt ∧ (aluOp 8 a v).toInt = max a.toInt v.toInt := by
  simp only [aluOp]
  by_cases le : sx a ≤ sx v
  · rw [if_pos le, if_pos le]
    simp only [sx] at le
    omega
  · rw [if_neg le, if_neg le]
    simp only [sx] at le
    omega

theorem aluOp_unsigned (a v : Word) :
    (aluOp 9 a v).toNat = min a.toNat v.toNat ∧ (aluOp 10 a v).toNat = max a.toNat v.toNat := by
  simp only [aluOp]
  by_cases le : a.toNat ≤ v.toNat
  · rw [if_pos le, if_pos le]
    omega
  · rw [if_neg le, if_neg le]
    omega

theorem mulOp_low (a v : Word) : (mulOp 0 a v).toNat = a.toNat * v.toNat % 4294967296 := BitVec.toNat_mul a v

theorem mulOp_highSigned (a v : Word) : (mulOp 1 a v).toInt = a.toInt * v.toInt / 4294967296 := by
  have product := word_toInt_mul_bounds a v
  exact iw32_toInt (by simp only [sx]; omega) (by simp only [sx]; omega)

theorem mulOp_highUnsigned (a v : Word) : (mulOp 2 a v).toNat = a.toNat * v.toNat / 4294967296 :=
  w32_toNat (Nat.div_lt_of_lt_mul (Nat.mul_lt_mul'' a.isLt v.isLt))

theorem shfOp_left (a v : Word) : (shfOp 0 a v).toNat = a.toNat * 2 ^ (v.toNat % 32) % 4294967296 := by
  rw [shfOp, wf_zero]
  exact (BitVec.toNat_shiftLeft ..).trans (congrArg (· % 2 ^ 32) (Nat.shiftLeft_eq ..))

theorem shfOp_right (a v : Word) : (shfOp 1 a v).toNat = a.toNat / 2 ^ (v.toNat % 32) := by
  rw [shfOp, wf_zero]
  exact (BitVec.toNat_ushiftRight ..).trans (Nat.shiftRight_eq_div_pow ..)

theorem shfOp_rightSigned (a v : Word) : (shfOp 2 a v).toInt = a.toInt / 2 ^ (v.toNat % 32) := by
  rw [shfOp, wf_zero]
  exact BitVec.toInt_sshiftRight.trans ((Int.shiftRight_eq_div_pow ..).trans (congrArg (a.toInt / ·) (Int.natCast_pow 2 _)))

/-- A comparison that holds gives 1. -/
theorem flag_eq (p : Prop) [Decidable p] : w32 (b2n (decide p)) = if p then 1 else 0 := by
  simp only [w32_b2n, decide_eq_true_eq]

/-- A comparison that fails gives 1, where the operation is the negated one. -/
theorem flag_not_eq (p q : Prop) [Decidable p] [Decidable q] (negated : ¬p ↔ q) : w32 (b2n (decide q)) = if p then 0 else 1 := by
  rw [flag_eq]
  by_cases h : p
  · rw [if_pos h, if_neg (fun hq => negated.2 hq h)]
  · rw [if_neg h, if_pos (negated.1 h)]

theorem flag_ne (a v : Word) : w32 (b2n (a != v)) = if a = v then 0 else 1 := by
  rw [w32_b2n]
  by_cases same : a = v
  · rw [same, bne_self_eq_false, if_neg Bool.false_ne_true, if_pos rfl]
  · rw [bne_iff_ne.2 same, if_pos rfl, if_neg same]

/-! ### Loads (R361, R362) -/

theorem leNat_pair (x y : Byte) : leNat [x, y] = x.toNat + 256 * y.toNat := rfl

/-- Two bytes are one sixteen-bit value, the later one above. -/
theorem ofNat_leNat_pair (x y : Byte) : BitVec.ofNat 16 (leNat [x, y]) = y ++ x := by
  apply BitVec.eq_of_toNat_eq
  have hx := x.isLt
  have hy := y.isLt
  rw [BitVec.toNat_append, ← Nat.shiftLeft_add_eq_or_of_lt hx, Nat.shiftLeft_eq, leNat_pair, BitVec.toNat_ofNat]
  omega

theorem kindValue_signed (x y : Byte) : (kindValue 2 [x, y]).toInt = (y ++ x).toInt ∧ (kindValue 4 [x]).toInt = x.toInt := by
  constructor
  · rw [kindValue, BitVec.toInt_signExtend_of_le (by decide), ofNat_leNat_pair]
  · rw [kindValue, BitVec.toInt_signExtend_of_le (by decide)]
    exact congrArg BitVec.toInt (BitVec.ofNat_toNat 8 x |>.trans (BitVec.setWidth_eq x))

theorem kindValue_unsigned (x y : Byte) :
    (kindValue 1 [x, y]).toNat = x.toNat + 256 * y.toNat ∧ (kindValue 3 [x]).toNat = x.toNat := by
  have hx := x.isLt
  have hy := y.isLt
  exact ⟨w32_toNat (by rw [leNat_pair]; omega), w32_toNat (Nat.lt_trans hx (by decide))⟩

/-! ### Branches (R368, R370–R372) -/

/-- Of jmp and callr the target is v[13:0], of br and call it lies v from the branch. -/
theorem branchTarget_eq (pc op : Nat) (v : Word) :
    branchTarget pc op v = if op % 4 = 0 ∨ op % 4 = 3 then v.toNat % 16384 else (pc + v.toNat) % 16384 := by
  have relative : (w32 pc + v).toNat % 16384 = (pc + v.toNat) % 16384 := by
    rw [BitVec.toNat_add, w32, BitVec.toNat_ofNat]
    omega
  rw [branchTarget, wf_zero, relative]
  exact ite_congr (propext (by simp only [Bool.or_eq_true, decide_eq_true_eq])) (fun _ => rfl) (fun _ => rfl)

/-- A branch costs two bubbles where it goes against its counter, one where it is taken as predicted; with prediction barred, two where it is
taken. -/
theorem bpResolve_bubbles (x : Stw) (pc : Nat) (taken : Bool) :
    (bpResolve x pc taken).1 =
      if x.bpbar then (if taken then 2 else 0)
      else if taken then (if 2 ≤ (tget 1 x.counters (bpIndex x pc)).toNat then 1 else 2)
      else (if 2 ≤ (tget 1 x.counters (bpIndex x pc)).toNat then 2 else 0) := by
  cases barred : x.bpbar with
  | true => simp [bpResolve, barred]
  | false => cases taken <;> by_cases predicted : 2 ≤ (tget 1 x.counters (bpIndex x pc)).toNat <;>
      simp only [bpResolve, barred, predicted, b2n, decide_true, decide_false, reduceCtorEq, reduceIte]

/-- The counter of the branch takes one step towards what the branch did; every other stays. -/
theorem bpResolve_counters (x : Stw) (pc : Nat) (taken : Bool) (predicts : x.bpbar = false) (i : Nat) :
    tget 1 (bpResolve x pc taken).2.counters i =
      if i = bpIndex x pc then
        (if taken then (if tget 1 x.counters i = 3 then 3 else tget 1 x.counters i + 1)
         else (if tget 1 x.counters i = 0 then 0 else tget 1 x.counters i - 1))
      else tget 1 x.counters i := by
  simp only [bpResolve, predicts, Bool.false_eq_true, if_false, tget_tset]
  by_cases mine : i = bpIndex x pc
  · rw [mine]
  · rw [if_neg mine, if_neg mine]

/-- Settles O45: each result has its value above. The predictor's bubbles and counters are R371's and R372's; a PC is taken modulo 2^14
(log 41). -/
theorem stewardUnitsCompute : Obligations.StewardUnitsCompute := by
  refine ⟨?alu, ?mul, ?shf, ?cmp, ?load, ?branch, ?predictor⟩
  case alu =>
    intro a v
    exact ⟨rfl, rfl, rfl, (aluOp_signed a v).1, (aluOp_signed a v).2, (aluOp_unsigned a v).1, (aluOp_unsigned a v).2, satS_toInt _, satS_toInt _⟩
  case mul =>
    intro a v
    exact ⟨mulOp_low a v, mulOp_highSigned a v, mulOp_highUnsigned a v, satS_toInt _⟩
  case shf =>
    intro a v
    exact ⟨shfOp_left a v, shfOp_right a v, shfOp_rightSigned a v⟩
  case cmp =>
    intro a v
    exact ⟨flag_eq (a = v), flag_ne a v, flag_eq (a.toInt < v.toInt), flag_not_eq (a.toInt < v.toInt) _ Int.not_lt,
      flag_eq (a.toNat < v.toNat), flag_not_eq (a.toNat < v.toNat) _ Nat.not_lt⟩
  case load =>
    intro x y
    exact ⟨(kindValue_signed x y).1, (kindValue_unsigned x y).1, (kindValue_signed x y).2, (kindValue_unsigned x y).2⟩
  case branch =>
    intro pc op v _
    exact branchTarget_eq pc op v
  case predictor =>
    intro x pc taken
    exact ⟨bpResolve_bubbles x pc taken, fun predicts => bpResolve_counters x pc taken predicts⟩

end Sys2Proof.Machine
end

section
/-! SUPPORT. Proofs about the bundles that a steward pair issues (R350, R352, R356, R365, R369, R385). -/

namespace Sys2Proof.Machine
open Claims

theorem exec_stewardBundle (s : State) (d : Nat) (hd : d < 2) : exec (.stewardBundle d) s = .next (settle s (stewardRuns s d)) :=
  run_eq (.stewardBundle d) s (fun s => stewardRuns s d) (decide_eq_true hd)

/-- A pair that idles, or whose slice is over outside a delay slot, only schedules. -/
theorem stewardRuns_stops {s : State} {d c : Nat} (runs : pairRuns s d = true) (running : c = (coreOf (schedule s d) d).running)
    (stops : c = 15 ∨ isUser c = true ∧ 1024 ≤ ((schedule s d).die d).stw.slice ∧ (ctxOf (schedule s d) d c).delay = none) :
    stewardRuns s d = schedule s d := by
  have issuesNone : (decide (c = 15) ||
      (isUser c && decide (1024 ≤ ((schedule s d).die d).stw.slice) && (ctxOf (schedule s d) d c).delay.isNone)) = true := by
    rcases stops with idle | ⟨user, slice, delay⟩
    · simp [idle]
    · simp [user, slice, delay]
  subst running
  simp only [stewardRuns, runs, issuesNone, Bool.not_true, Bool.false_eq_true, if_false, if_true]

section
variable {s t : State} {d c : Nat}

/-- A pair that is about to issue a bundle, no stream running beside it, issues it. -/
theorem stewardRuns_fetching (fetches : Fetching s d c t) : stewardRuns s d = bundleIssues (schedule s d) d c := by
  obtain ⟨runs, rfl, busy, noStream, slice, -⟩ := fetches
  simp only [stewardRuns, streamRuns, runs, busy, noStream, slice, decide_false, Bool.or_self, Bool.not_true, Bool.not_false, Bool.true_or,
    Bool.false_eq_true, if_false, if_true]

/-- A user context whose PC has left its code faults (R363). -/
theorem bundleIssues_outside (fetches : Fetching s d c t) (user : isUser c = true) (outside : (ctxOf t d c).codeLen ≤ (ctxOf t d c).pc) :
    bundleIssues (schedule s d) d c = ctxFault t d c fFetch := by
  obtain ⟨-, -, -, -, -, rfl⟩ := fetches
  simp only [bundleIssues, user, outside, decide_true, Bool.and_self, if_true]

/-- A bundle that passes the checks that need no guard meets, in their order, those on its moves whose guards are true. -/
theorem bundleIssues_eq {b : Nat} {ms : List Move} (issues : Issues s d c t b ms) :
    bundleIssues (schedule s d) d c =
      if doubleWrite ms then ctxFault t d c fDouble
      else if ms.any (fun m => portDenied c m.src || portDenied c m.dst) then ctxFault t d c fSocket
      else if ms.any (moveHeld (coreOf t d).units) then addCycles t d c 1
      else bundleMoves t d c b ms (ctxOf t d c).delay (ctxOf t d c).rfe := by
  obtain ⟨⟨-, -, -, -, -, landed⟩, inside, kept, clean, fetched, decodes, guarded⟩ := issues
  simp only [bundleIssues, ← landed, inside, kept, clean, ← fetched, decodes, ← guarded, Bool.false_eq_true, if_false]

theorem exec_stewardBundle_issues {b : Nat} {ms : List Move} (hd : d < 2) (issues : Issues s d c t b ms) :
    exec (.stewardBundle d) s = .next (settle s (
      if doubleWrite ms then ctxFault t d c fDouble
      else if ms.any (fun m => portDenied c m.src || portDenied c m.dst) then ctxFault t d c fSocket
      else if ms.any (moveHeld (coreOf t d).units) then addCycles t d c 1
      else bundleMoves t d c b ms (ctxOf t d c).delay (ctxOf t d c).rfe)) := by
  rw [exec_stewardBundle s d hd, stewardRuns_fetching issues.1, bundleIssues_eq issues]

end

/-- Settles O44: the pair schedules, and a bundle meets its checks in their order; DOUBLE_WRITE is R357's and FETCH_RANGE R363's. A denied port is
BAD_SOCKET (log 41); a bundle at the end of a slice waits for the slice (log 53). -/
theorem stewardIssuesBundles : Obligations.StewardIssuesBundles := by
  refine ⟨?moves, ?faults, ?outside, ?stops⟩
  case moves =>
    intro s d c t b ms hd issues once allowed
    have runs := exec_stewardBundle_issues hd issues
    rw [once, allowed] at runs
    refine ⟨fun free => runs.trans ?_, fun held => runs.trans ?_⟩
    · rw [free]
      rfl
    · rw [held]
      rfl
  case faults =>
    intro s d c t b ms hd issues
    have runs := exec_stewardBundle_issues hd issues
    refine ⟨fun twice => runs.trans ?_, fun once denied => runs.trans ?_⟩
    · rw [twice]
      rfl
    · rw [once, denied]
      rfl
  case outside =>
    intro s d c t hd fetches user outside
    rw [exec_stewardBundle s d hd, stewardRuns_fetching fetches, bundleIssues_outside fetches user outside]
  case stops =>
    intro s d c hd runs running stops
    rw [exec_stewardBundle s d hd, stewardRuns_stops runs running stops]

end Sys2Proof.Machine
end

section
/-! SUPPORT. Proofs about how the steward's contexts go on: event entries (R374, R376), slices (R350), waits (R383), port-space loads (R366)
and streams (R378). -/

namespace Sys2Proof.Machine

/-- Changes of a context that agree on it as it stands are the same change. -/
theorem modContext_congr (s : State) (d c : Nat) {f g : Ctx → Ctx} (agree : f (ctxOf s d c) = g (ctxOf s d c)) :
    modContext s d c f = modContext s d c g := by
  simp only [modContext, modCore, modStw]
  exact modDie_congr s d (by rw [show f (tget {} (s.die d).stw.core.ctxs c) = _ from agree]; rfl)

theorem modCore_edges (s : State) (d : Nat) (f : Core → Core) : (modCore s d f).edges = s.edges := State.modDie_edges s d _

section
variable (s : State) (d : Nat) (hd : d < 2)
include hd

theorem exec_eventContextEntry : exec (.eventContextEntry d) s = .next (settle s (eventEntered s d)) :=
  run_eq (.eventContextEntry d) s (fun s => eventEntered s d) (decide_eq_true hd)

theorem exec_userSliceEnd : exec (.userSliceEnd d) s = .next (settle s (sliceEnds s d)) :=
  run_eq (.userSliceEnd d) s (fun s => sliceEnds s d) (decide_eq_true hd)

theorem exec_sysWaitEnd (c : Nat) : exec (.sysWaitEnd d c) s = .next (settle s (sysWaitOver s d c)) :=
  run_eq (.sysWaitEnd d c) s (fun s => sysWaitOver s d c) (decide_eq_true hd)

theorem exec_lspLoadArrival : exec (.lspLoadArrival d) s = .next (settle s (lspArrives s d)) :=
  run_eq (.lspLoadArrival d) s (fun s => lspArrives s d) (decide_eq_true hd)

theorem exec_strStreamEnd : exec (.strStreamEnd d) s = .next (settle s (streamEnds s d)) :=
  run_eq (.strStreamEnd d) s (fun s => streamEnds s d) (decide_eq_true hd)

end

section
variable {s : State} {d : Nat} (runs : pairRuns s d = true)
include runs

/-- A user context's slice that is over outside a delay slot ends. -/
theorem sliceEnds_over (user : isUser (coreOf s d).running = true) (slice : 1024 ≤ (s.die d).stw.slice)
    (delay : (ctxOf s d (coreOf s d).running).delay = none) : sliceEnds s d = checkpoint (rotate s d) d := by
  simp only [sliceEnds, runs, user, delay, decide_eq_false (Nat.not_lt.2 slice), Option.isSome_none, Bool.not_true, Bool.or_self,
    Bool.false_eq_true, if_false]

/-- A SYS.wait that its vertex or its limit has ended: the context runs again, its result the vertex's or 0. -/
theorem sysWaitOver_ends {c v r : Nat} {lim : Option Nat} {k : Bool} (mayWait : c = 0 ∨ isUser c = true) (waits : (ctxOf s d c).st = .waiting)
    (wait : (ctxOf s d c).wait = some { vertex := some v, regTick := r, deadline := lim, toContinue := k })
    (ended : (∃ b, (ctxOf s d c).sysR = some b) ∨ ∃ t, lim = some t ∧ t < s.edges) :
    sysWaitOver s d c = checkpoint (schedule
      (modContext s d c (fun x => { x with st := .running, wait := none, sysR := some ((ctxOf s d c).sysR.getD 0) })) d) d := by
  have may : (decide (c = 0) || isUser c) = true := by rcases mayWait with zero | user <;> simp [*]
  refine Eq.trans ?_ (congrArg (fun t => checkpoint (schedule t d) d)
    (modContext_congr (f := fun x => { x with st := .running, wait := none, sysR := some (x.sysR.getD 0) }) s d c rfl))
  rcases ended with ⟨b, fired⟩ | ⟨t, rfl, late⟩
  · simp only [sysWaitOver, runs, may, waits, wait, fired, Option.isNone_some, bne_self_eq_false, Bool.not_true, Bool.false_and, Bool.or_self,
      Bool.false_eq_true, if_false]
  · simp only [sysWaitOver, runs, may, waits, wait, decide_eq_true late, bne_self_eq_false, Bool.not_true, Bool.and_false, Bool.or_self,
      Bool.false_eq_true, if_false]

/-- The data of a port-space load lands, and its unit is free. -/
theorem lspArrives_busy (busy : (coreOf s d).units.lspBusy = true) :
    lspArrives s d =
      let t := modUnits s d (fun u => { u with
        lspBusy := false, r := ((coreOf s d).units.due.filter (fun e => e.1 = 7)).foldl (fun t e => tset 0 t e.1 e.2.2) u.r
        due := u.due.filter (fun e => e.1 != 7) })
      checkpoint (addCycles t.freeWord.2 d (coreOf t d).running t.freeWord.1.toNat) d := by
  simp only [lspArrives, runs, busy, Bool.not_true, Bool.or_self, Bool.false_eq_true, if_false]
  rfl

/-- A stream whose last words all move runs out: BUSY clears. -/
theorem streamEnds_out {t : State} (busy : wb (coreOf s d).units.ctl 5 = true)
    (moved : streamWords d (coreOf s d).running (coreOf s d).units.cnt.toNat s = (none, t)) :
    streamEnds s d = modUnits t d (fun u => { u with ctl := put u.ctl 5 1 0 }) := by
  simp only [streamEnds, runs, busy, moved, Bool.not_true, Bool.or_self, Bool.false_eq_true, if_false]

/-- A stream of whose last words one fails stops with that word's fault. -/
theorem streamEnds_fails {t : State} {f : Byte} (busy : wb (coreOf s d).units.ctl 5 = true)
    (failed : streamWords d (coreOf s d).running (coreOf s d).units.cnt.toNat s = (some f, t)) :
    streamEnds s d = streamFault t d (coreOf s d).running f := by
  simp only [streamEnds, runs, busy, failed, Bool.not_true, Bool.or_self, Bool.false_eq_true, if_false]

/-- An interrupt that is not masked enters the event context, but for the delay slot of a branch. -/
theorem eventEntered_enters (int : intOf (s.target (8 + d)) = true) (unmasked : (s.die d).stw.emask = false)
    (outside : (coreOf s d).running ≠ 1)
    (between : (coreOf (schedule s d) d).running = 15 ∨
      (ctxOf (schedule s d) d (coreOf (schedule s d) d).running).delay = none ∧
      (ctxOf (schedule s d) d (coreOf (schedule s d) d).running).squash = false) :
    eventEntered s d = checkpoint (bpFlush ((modCore (schedule s d) d (fun k => { k with
      units := { unitsDrained k.units with
        epc := w32 (ctxOf (schedule s d) d (coreOf (schedule s d) d).running).pc, ectx := w32 k.running }
      running := 1, wrote := []
      ctxs := tset {} k.ctxs 1 { tget {} k.ctxs 1 with pc := 16, delay := none, squash := false, rfe := false } })).modTarget (8 + d)
      (fun g => { g with lastMsg := some (schedule s d).edges })) d) d := by
  have enters : ((coreOf (schedule s d) d).running != 15 &&
      ((ctxOf (schedule s d) d (coreOf (schedule s d) d).running).delay.isSome ||
        (ctxOf (schedule s d) d (coreOf (schedule s d) d).running).squash)) = false := by
    rcases between with idle | ⟨delay, squash⟩
    · simp [idle]
    · simp [delay, squash]
  simp only [eventEntered, runs, int, unmasked, outside, enters, decide_false, Bool.not_true, Bool.or_self, Bool.false_eq_true, if_false]
  rw [modCore_edges]

end

/-- Settles O46: each command is the run of one operation, which has its equation above. The time of the last message is R305's and the checkpoint
R390's; how long a load took is free (log 40), and the slice and the event entry keep a branch and its delay slot together (log 53, log 54). -/
theorem stewardContextsGoOn : Obligations.StewardContextsGoOn := by
  refine ⟨?event, ?slice, ?wait, ?load, ?stream⟩
  case event =>
    intro s d k x hd runs int unmasked outside hk hx between
    subst hk
    subst hx
    rw [exec_eventContextEntry s d hd, eventEntered_enters runs int unmasked outside between]
  case slice =>
    intro s d hd runs user slice delay
    rw [exec_userSliceEnd s d hd, sliceEnds_over runs user slice delay]
  case wait =>
    intro s d c v r lim k hd runs mayWait waits wait
    refine ⟨fun b fired => ?_, fun t unfired limit late => ?_⟩
    · rw [exec_sysWaitEnd s d hd c, sysWaitOver_ends runs mayWait waits wait (.inl ⟨b, fired⟩), fired]
      rfl
    · rw [exec_sysWaitEnd s d hd c, sysWaitOver_ends runs mayWait waits wait (.inr ⟨t, limit, late⟩), unfired]
      rfl
  case load =>
    intro s d hd runs busy t ht
    subst ht
    rw [exec_lspLoadArrival s d hd, lspArrives_busy runs busy]
  case stream =>
    intro s d hd runs busy
    refine ⟨fun t moved => ?_, fun f t failed => ?_⟩
    · rw [exec_strStreamEnd s d hd, streamEnds_out runs busy moved]
    · rw [exec_strStreamEnd s d hd, streamEnds_fails runs busy failed]

end Sys2Proof.Machine
end

section
/-! SUPPORT. Proofs about policy contexts: POLICY-LOAD (R381) and POLICY-CONTROL (R382). -/

namespace Sys2Proof.Machine
open Claims

/-! ### POLICY-LOAD (R381) -/

/-- A POLICY-LOAD passes its checks: its image has the header `h` and the bytes `b`, and `cb` and `db` are the places for its code and data
(log 32). -/
structure PolicyFits (s u v : State) (r : Req) (d c : Nat) (h b : List Byte) (cb db : Nat) : Prop where
  fields : fieldsOk r 0xF false false true 32 32 = true
  right : hasCap s r.fn 4 = true
  die : par r 0 1 = d
  context : par r 1 3 = c
  serves : DieServes s r d
  stopped : (userCtx (s.die d).stw.core c).st ≠ .running
  ready : (userCtx (s.die d).stw.core c).st ≠ .waiting
  header : streamOf s r 176 = (.inr h, u)
  headerWhole : 176 ≤ h.length
  headerOk : policyHeaderOk u d c r.fn h ((List.range 128).filter (fun m => bit (u8 h (24 + m / 8)) (m % 8))) = true
  image : streamOf u r (176 + 16 * u32 h 8 + u32 h 12) = (.inr b, v)
  imageWhole : 176 + 16 * u32 h 8 + u32 h 12 ≤ b.length
  code : placeFor (codeUsed (v.die d).stw.core c) 8192 16384 (u32 b 8) = some cb
  data : placeFor (dataUsed (v.die d).stw.core c) 4096 8192 (u32 b 12 / 64) = some db

/-- A POLICY-LOAD that passes its checks places its image and completes. -/
theorem policyLoadAct_places {s u v : State} {r : Req} {d c : Nat} {h b : List Byte} {cb db : Nat} (fits : PolicyFits s u v r d c h b cb db) :
    policyLoadAct s r =
      reply (policyPlaced v d c r.fn b ((List.range 128).filter (fun m => bit (u8 h (24 + m / 8)) (m % 8))) cb db) r ccSuccess := by
  obtain ⟨fields, right, rfl, rfl, serves, stopped, ready, header, headerWhole, headerOk, image, imageWhole, code, data⟩ := fits
  rw [policyLoadAct, accepts_acts s r _ fields right]
  simp only [serves.now, lostDie, serves.there, stopped, ready, header, Nat.not_lt.2 headerWhole, headerOk, image, Nat.not_lt.2 imageWhole,
    code, data, decide_false, Bool.or_self, Bool.not_true, Bool.false_eq_true, if_false]

/-! ### POLICY-CONTROL (R382) -/

section
variable {s : State} {src : EntrySrc} {r : Req} {k d c : Nat}

/-- A POLICY-CONTROL that passes its checks acts on its context. -/
theorem policyAct_acts (asks : PolicyAsks s src r k d c) (act : Nat → Nat → State → Req → State) : policyAct act s r = act d c s r := by
  obtain ⟨⟨-, fields, right⟩, rfl, rfl, rfl, now, there, holds⟩ := asks
  have named : (par r 4 2 != 3 && decide ((userCtx (s.die (par r 0 1)).stw.core (par r 1 3)).st = .empty)) = false := by
    by_cases status : par r 4 2 = 3
    · simp [status]
    · simp [holds status]
  rw [policyAct, accepts_acts s r _ fields right]
  simp only [now, lostDie, there, named, Bool.or_self, Bool.false_eq_true, if_false]

/-- The run of a POLICY-CONTROL of ACTION `k`. -/
theorem run_serve_isPolicy (asks : PolicyAsks s src r k d c) (i : Instr) (act : Nat → Nat → State → Req → State) (hw : i.wf = src.ok) :
    run i s (fun s => serve s src (isPolicy k) (policyAct act)) = .next (settle s (act d c s r)) := by
  obtain ⟨⟨opcode, -⟩, action, -⟩ := id asks
  have mine : isPolicy k r = true := by simp [isPolicy, isOp, opcode.2.2.1, action]
  rw [run_serve opcode i _ _ hw mine, policyAct_acts asks]

end

section
variable (s : State) (r : Req) (d c : Nat)

theorem policyReply_eq : policyReply d c s r = policyDone s r d c := rfl

/-- Start runs a LOADED or FAULTED context from its ENTRY. -/
theorem policyStartAct_starts (idle : (userCtx (s.die d).stw.core c).st = .loaded ∨ (userCtx (s.die d).stw.core c).st = .faulted) :
    policyStartAct d c s r = policyDone (checkpoint (modCtx s d c (fun x => { x with
      st := .running, pc := x.entry, g := [], p := [], saved := {}, wait := none, sysR := none, fault := 0, delay := none
      squash := false })) d) r d c := by
  rcases idle with loaded | faulted
  · simp only [policyStartAct, loaded, decide_true, Bool.true_or, if_true, policyReply_eq]
  · simp only [policyStartAct, faulted, decide_true, Bool.or_true, if_true, policyReply_eq]

/-- Start changes nothing of a context that runs or waits. -/
theorem policyStartAct_runs (runs : (userCtx (s.die d).stw.core c).st = .running ∨ (userCtx (s.die d).stw.core c).st = .waiting) :
    policyStartAct d c s r = policyDone s r d c := by
  rcases runs with running | waiting
  · simp only [policyStartAct, running, reduceCtorEq, decide_false, Bool.or_self, Bool.false_eq_true, if_false, policyReply_eq]
  · simp only [policyStartAct, waiting, reduceCtorEq, decide_false, Bool.or_self, Bool.false_eq_true, if_false, policyReply_eq]

/-- Unload of a context with no submission left. -/
theorem policyUnloadAct_unloads (left : (userCtx ((ctxStopped s d c).die d).stw.core c).subs = []) :
    policyUnloadAct d c s r = policyDone (ctxUnload (ctxStopped s d c) d c) r d c := by
  simp only [policyUnloadAct, left, List.isEmpty_nil, if_true, policyReply_eq]

/-- Unload waits for the submissions that are left. -/
theorem policyUnloadAct_waits (left : (userCtx ((ctxStopped s d c).die d).stw.core c).subs ≠ []) :
    policyUnloadAct d c s r =
      modCtx (tookEffect (ctxStopped s d c) r) d c (fun x => { x with leaving := some (r.src, r.idx) }) := by
  simp only [policyUnloadAct, List.isEmpty_eq_false_iff.2 left, Bool.false_eq_true, if_false]

end

/-- Settles O17: the four rows of POLICY-CONTROL take its opcode by ACTION, and each action has its equation above. An image takes the lowest place that
fits (log 32); what a stop leaves of a context is log 53. -/
theorem policiesAreLoadedAndControlled : Obligations.PoliciesAreLoadedAndControlled := by
  refine ⟨?load, ?start, ?stop, ?unload, ?status⟩
  case load =>
    rintro s u v src r d c h b cb db meters ⟨asks, fields, right⟩ die context now there stopped ready header headerWhole rfl headerOk image
      imageWhole code data
    refine (run_serve_isOp asks (.policyLoad src) policyLoadAct rfl).trans ?_
    rw [policyLoadAct_places
      ⟨fields, right, die, context, ⟨now, there⟩, stopped, ready, header, headerWhole, headerOk, image, imageWhole, code, data⟩]
  case start =>
    intro s src r d c asks
    have serves := run_serve_isPolicy asks (.policyStart src) policyStartAct rfl
    refine ⟨fun idle => serves.trans ?_, fun runs => serves.trans ?_⟩
    · rw [policyStartAct_starts s r d c idle]
    · rw [policyStartAct_runs s r d c runs]
  case stop =>
    intro s src r d c asks
    exact run_serve_isPolicy asks (.policyStop src) policyStopAct rfl
  case unload =>
    intro s src r d c asks
    have serves := run_serve_isPolicy asks (.policyUnload src) policyUnloadAct rfl
    refine ⟨fun left => serves.trans ?_, fun left => serves.trans ?_⟩
    · rw [policyUnloadAct_unloads s r d c left]
    · rw [policyUnloadAct_waits s r d c left]
  case status =>
    intro s src r d c asks
    exact run_serve_isPolicy asks (.policyStatus src) policyReply rfl

end Sys2Proof.Machine
end

section
/-! SUPPORT. Proofs about mismatches and fatal faults of a half (R349, R389–R391, R410, R413, R462). -/

namespace Sys2Proof.Machine

/-- A fatal fault of a half that runs is recorded, its box is frozen, and the half stops itself (R391, R413). -/
theorem dieFatalAt_up (s : State) (d cause : Nat) (up : dieUp s d = true) :
    dieFatalAt s d cause =
      (bbxFreezeBox (bbxRecordAt (s.modDie d (fun x => { x with fatal := BitVec.ofNat 4 cause })) d 0x14 true cause [] s.pilot) d 1).modDie d
        (fun x => { x with alive := false, selfStopped := true, stw := { x.stw with pair := 3 }, arc := { x.arc with link := 0 } }) := by
  simp only [dieFatalAt, up, Bool.not_true, Bool.false_eq_true, if_false, State.modDie_pilot]

/-- A mismatch rolls the pair back; the fourth after one checkpoint is fatal. -/
theorem mismatch_eq (s : State) (d : Nat) (runs : pairRuns s d = true) :
    mismatch s d =
      if 3 ≤ (s.die d).stw.repeats then dieFatalAt s d 1
      else modStw (rollback s d) d (fun x => { x with repeats := x.repeats + 1 }) := by
  rw [mismatch, runs]
  rfl

theorem rollbackEnds_rolling (s : State) (d : Nat) (up : dieUp s d = true) (rolling : (s.die d).stw.pair = 1) :
    rollbackEnds s d = modStw s d (fun x => { x with pair := 0 }) := by
  rw [rollbackEnds, up, rolling]
  rfl

theorem clockFails_up (s : State) (d : Nat) (up : dieUp s d = true) : clockFails s d = dieFatalAt (fireFault portPw s d 7) d 4 :=
  if_pos up

/-- The die watchdog is armed while firmware runs and the pair executes (R410). -/
theorem watchdog_armed (s : State) (d : Nat) (alive : (s.die d).alive = true) (clock : (s.die d).stewardClock = true)
    (executes : (s.die d).stw.pair = 0) : watchdog s d = dieFatalAt s d 3 := by
  rw [watchdog, alive, clock, executes]
  rfl

/-- Settles O35: each command is the run of one operation, which has its equation above. The fatal faults are R389's and R413's; the fourth mismatch
after one checkpoint is fatal (log 54). -/
theorem mismatchesAndFatalFaults : Obligations.MismatchesAndFatalFaults := by
  refine ⟨?mismatch, ?rollback, ?clock, ?watchdog, ?supply, dieFatalAt_up, ?aon⟩
  case mismatch =>
    intro s d hd runs
    have mismatches : exec (.lockstepMismatch d) s = .next (settle s (mismatch s d)) :=
      run_eq (.lockstepMismatch d) s (fun s => mismatch s d) (decide_eq_true hd)
    rw [mismatch_eq s d runs] at mismatches
    refine ⟨fun earlier => mismatches.trans ?_, fun fourth => mismatches.trans ?_⟩
    · rw [if_neg (Nat.not_le.2 earlier)]
    · rw [if_pos fourth]
  case rollback =>
    intro s d hd up rolling
    refine (run_eq (.rollbackComplete d) s (fun s => rollbackEnds s d) (decide_eq_true hd)).trans ?_
    rw [rollbackEnds_rolling s d up rolling]
  case clock =>
    intro s d hd up
    refine (run_eq (.fastClockFailure d) s (fun s => clockFails s d) (decide_eq_true hd)).trans ?_
    rw [clockFails_up s d up]
  case watchdog =>
    intro s d hd alive clock executes
    refine (run_eq (.dieWatchdogExpiry d) s (fun s => watchdog s d) (decide_eq_true hd)).trans ?_
    rw [watchdog_armed s d alive clock executes]
  case supply =>
    intro s d hd
    exact run_eq (.supplyOutOfRange d) s (fun s => dieFatalAt s d 5) (decide_eq_true hd)
  case aon =>
    intro s d hd
    exact run_eq (.vddAonLoss d) s (fun s => aonLost s d) (decide_eq_true hd)

end Sys2Proof.Machine
end

section
/-! SUPPORT. Proofs about the loss of a half, SPLIT, adoption, the reset of a lost half and its return (R377, R406, R411–R414, R472). -/

namespace Sys2Proof.Machine

/-! ### ALIVE of the other half (R411, R472) -/

/-- Half `d` judges ALIVE a wire fault (R411). -/
def wireFaultJudged (s : State) (d : Nat) : State :=
  stewardNotice (fireFault portPw (bbxRecord
    (s.modDie d (fun x => { x with wireFault := true, seen := false, losses := x.losses + 1 })) d 0x0F 1 []) d 6) d 13 256

/-- A silence is a wire fault while the data path and the side band stand; else the other half is lost. -/
theorem silenceAt_judged (s : State) (d : Nat) (up : dieUp s d = true) (armed : (s.die d).monitor = true) (first : (s.die d).wireFault = false)
    (there : isLost s (1 - d) = false) :
    silenceAt s d = if arcUp s && (s.die d).arc.sideband then wireFaultJudged s d else halfLostAt portPw s (1 - d) := by
  rw [silenceAt, up, armed, first, there]
  rfl

/-- Half `d` sees edges of ALIVE: its monitor is armed, and a judged silence is over. -/
def aliveSeen (s : State) (d : Nat) : State := s.modDie d (fun x => { x with monitor := true, seen := true, wireFault := false })

/-- Edges of ALIVE that come again are reported only where the silence was judged (log 44). -/
theorem aliveAgain_unseen (s : State) (d : Nat) (up : dieUp s d = true) (drives : (s.die (1 - d)).alive = true)
    (unseen : (s.die d).seen = false) :
    aliveAgain s d =
      if (s.die d).wireFault || isLost s (1 - d) then stewardNotice (bbxRecord (aliveSeen s d) d 0x0F 2 []) d 13 0 else aliveSeen s d := by
  rw [aliveAgain, up, drives, unseen]
  rfl

/-- No edge of ALIVE within 500 ms of the firmware's start: the other half is lost. -/
theorem peerTimeout_passed (s : State) (d t : Nat) (up : dieUp s d = true) (started : (s.die d).startAt = some t)
    (unarmed : (s.die d).monitor = false) (there : isLost s (1 - d) = false) (passed : t + 50000000 ≤ s.edges) :
    peerTimeout s d = halfLostAt portPw s (1 - d) := by
  simp only [peerTimeout, started, up, unarmed, there, decide_eq_true passed, Bool.not_false, Bool.and_self, if_true]

/-! ### SPLIT (R412) -/

/-- The data path has been down for 200 ticks, and both halves live (R412). -/
structure SplitDue (s : State) : Prop where
  whole : s.pkg.split = false
  down : arcUp s = false
  up0 : dieUp s 0 = true
  up1 : dieUp s 1 = true
  alive0 : s.die0.alive = true
  alive1 : s.die1.alive = true
  passed : s.die0.arc.downAt + 200 ≤ s.edges

/-- SPLIT: the half of the tie-break strap holds custody, and V1493 is set. -/
def splitEntered (s : State) : State :=
  vertexSet portPw (takeCustody portPw (s.modPkg (fun p => { p with split := true })) (b2n s.pkg.tiebreak) true) 1493 true

/-- Both halves record SPLIT and tell their steward. -/
theorem splitBegins_due {s : State} (due : SplitDue s) :
    splitBegins s =
      stewardNotice (bbxRecord (stewardNotice (bbxRecord (splitEntered s) 0 0x11 1 []) 0 13 258) 1 0x11 1 []) 1 13 258 := by
  simp only [splitBegins, due.whole, due.down, due.up0, due.up1, due.alive0, due.alive1, decide_eq_false (Nat.not_lt.2 due.passed),
    Bool.not_true, Bool.or_self, Bool.false_eq_true, if_false]
  rfl

/-! ### The lost half (R406, R414) -/

theorem adopted_lost (s : State) (l : Nat) (lost : isLost s (l / 16) = true) (first : (s.cluster l).adopted = false)
    (runs : regionRuns s ((l ^^^ 16) / 4) = true) : adopted s l = adoptAt portPw s l := by
  rw [adopted, lost, first, runs]
  rfl

/-- 10 ms after the loss the lost half is reset, unless HOLD_LOST holds it. -/
theorem lostHalfReset_due (s : State) (d t : Nat) (lost : isLost s d = true) (since : (s.die d).lostAt = some t)
    (free : s.pkg.holdLost = false) (passed : t + 1000000 ≤ s.edges) : lostHalfReset s d = dieResetAt portPw s d := by
  simp only [lostHalfReset, since, lost, free, decide_eq_true passed, Bool.not_false, Bool.and_self, if_true]

/-- A lost half that has been reset, drives ALIVE and has its bridge up rejoins. -/
theorem halfRejoin_ready (s : State) (d : Nat) (lost : isLost s d = true) (reset : (s.die d).lostAt = none) (drives : (s.die d).alive = true)
    (seen : (s.die (1 - d)).seen = true) (bridge : arcUp s = true) : halfRejoin s d = rejoinAt s d := by
  rw [halfRejoin, lost, reset, drives, seen, bridge]
  rfl

/-- Settles O36: each command is the run of one operation, which has its equation above. The stopping of a half is R413's, its notices R377's and the
adoption R406's; edges that come again are reported only after a judged silence (log 44). -/
theorem halvesAreLostAndRejoin : Obligations.HalvesAreLostAndRejoin := by
  refine ⟨?silence, ?again, ?timeout, ?split, ?adoption, ?reset, ?rejoin⟩
  case silence =>
    intro s d hd up armed first there
    have judges : exec (.aliveSilence d) s = .next (settle s (silenceAt s d)) :=
      run_eq (.aliveSilence d) s (fun s => silenceAt s d) (decide_eq_true hd)
    rw [silenceAt_judged s d up armed first there] at judges
    refine ⟨fun stands => judges.trans ?_, fun fallen => judges.trans ?_⟩
    · rw [if_pos stands]
      rfl
    · rw [if_neg (Bool.eq_false_iff.1 fallen)]
  case again =>
    rintro s d hd up drives unseen t rfl
    refine (run_eq (.aliveRegained d) s (fun s => aliveAgain s d) (decide_eq_true hd)).trans ?_
    rw [aliveAgain_unseen s d up drives unseen]
    rfl
  case timeout =>
    intro s d t hd up started unarmed there passed
    refine (run_eq (.peerEdgeTimeout d) s (fun s => peerTimeout s d) (decide_eq_true hd)).trans ?_
    rw [peerTimeout_passed s d t up started unarmed there passed]
  case split =>
    rintro s whole down up0 up1 alive0 alive1 passed t rfl
    refine (run_eq .splitEntry s splitBegins rfl).trans ?_
    rw [splitBegins_due ⟨whole, down, up0, up1, alive0, alive1, passed⟩]
    rfl
  case adoption =>
    intro s l hl lost first runs
    refine (run_eq (.adoption l) s (fun s => adopted s l) (decide_eq_true hl)).trans ?_
    rw [adopted_lost s l lost first runs]
  case reset =>
    intro s d t hd lost since free passed
    refine (run_eq (.lostHalfReset d) s (fun s => lostHalfReset s d) (decide_eq_true hd)).trans ?_
    rw [lostHalfReset_due s d t lost since free passed]
  case rejoin =>
    intro s d hd lost reset drives seen bridge
    refine (run_eq (.halfRejoin d) s (fun s => halfRejoin s d) (decide_eq_true hd)).trans ?_
    rw [halfRejoin_ready s d lost reset drives seen bridge]

end Sys2Proof.Machine
end

section
/-! SUPPORT. Proofs about the scrubber: what a scrub read finds, and weak rows (R394–R397). -/

namespace Sys2Proof.Machine

section
variable {s : State} {k : MemKind} {i w : Nat}

theorem exec_scrubRead (found : EccFound) (inDevice : memOk k i = true) :
    exec (.scrubRead k i w found) s = .next (settle s (scrubbed s k i w found)) :=
  run_eq (.scrubRead k i w found) s (fun s => scrubbed s k i w found) inDevice

/-! ### What the read finds (R394) -/

/-- A word that a scrub read reads: its scrubber runs, the memory has it, and it is not POISON. -/
structure ScrubReads (s : State) (k : MemKind) (i w : Nat) : Prop where
  runs : scrubs s k i = true
  inMemory : w < memWords k
  sound : s.ecc.contains (k, i, w) = false

theorem ScrubReads.goesOn (reads : ScrubReads s k i w) : (!scrubs s k i || decide (memWords k ≤ w) || s.ecc.contains (k, i, w)) = false := by
  rw [reads.runs, reads.sound, decide_eq_false (Nat.not_le.2 reads.inMemory)]
  rfl

/-- A read that finds nothing forgets the word. -/
theorem scrubbed_clean (reads : ScrubReads s k i w) :
    scrubbed s k i w .clean = s.modDie (memDie k i) (fun x => { x with scrubCe := x.scrubCe.filter (· != (k, i, w)) }) := by
  rw [scrubbed, reads.goesOn]
  rfl

theorem scrubbed_ce (reads : ScrubReads s k i w) : scrubbed s k i w .ce = scrubCorrects s k i w := by
  rw [scrubbed, reads.goesOn]
  rfl

theorem scrubbed_ue (reads : ScrubReads s k i w) : scrubbed s k i w .ue = scrubPoisons s k i w := by
  rw [scrubbed, reads.goesOn]
  rfl

/-! ### CEs (R395) -/

/-- A CE stands remembered at the word, or at an earlier word of its row. -/
theorem rowSeen_iff (l : List (MemKind × Nat × Nat)) :
    (l.filter (fun e => e.1 = k && e.2.1 = i && e.2.2 / 64 = w / 64)).any (fun e => decide (e.2.2 ≤ w)) = true ↔
      ∃ e ∈ l, e.1 = k ∧ e.2.1 = i ∧ e.2.2 / 64 = w / 64 ∧ e.2.2 ≤ w := by
  simp only [List.any_eq_true, List.mem_filter, Bool.and_eq_true, decide_eq_true_eq, and_assoc]

/-- The first CE of its row in a pass is counted and remembered. -/
theorem scrubCorrects_first (first : ∀ e ∈ (s.die (memDie k i)).scrubCe, ¬(e.1 = k ∧ e.2.1 = i ∧ e.2.2 / 64 = w / 64 ∧ e.2.2 ≤ w)) :
    scrubCorrects s k i w =
      (memLogged s k i w false).modDie (memDie k i) (fun x => { x with scrubCe := x.scrubCe ++ [(k, i, w)] }) := by
  refine if_neg fun seen => ?_
  obtain ⟨e, remembered, there⟩ := (rowSeen_iff _).1 seen
  exact first e remembered there

/-- A CE where one is remembered at the word or earlier in its row makes the row weak (log 35). -/
theorem scrubCorrects_again {v : Nat} (earlier : v ≤ w) (row : v / 64 = w / 64) (remembered : (k, i, v) ∈ (s.die (memDie k i)).scrubCe) :
    scrubCorrects s k i w = rowWeak (memLogged s k i w false) k i w :=
  if_pos ((rowSeen_iff _).2 ⟨(k, i, v), remembered, rfl, rfl, row, earlier⟩)

/-! ### UEs and weak rows (R395–R397) -/

/-- A UE at a word is logged, recorded and told. -/
def poisonTold (s : State) (k : MemKind) (i w : Nat) : State :=
  fireFault portPw (bbxRecord (memLogged { s with ecc := s.ecc ++ [(k, i, w)] } k i w true) (memDie k i) 0x0A (memCode k + 16 * i) (leBytes 4 w))
    (memDie k i) 3

/-- A UE gives the word POISON and makes its row weak; in region SRAM it is an error of the tile too. -/
theorem scrubPoisons_sound (sound : s.ecc.contains (k, i, w) = false) :
    scrubPoisons s k i w = rowWeak
      (if k = .regionSram then
        unitError (poisonTold s k i w) (memDie k i) 7 (512 * i + w / 512) (tileUsers (poisonTold s k i w) (512 * i + w / 512))
      else poisonTold s k i w) k i w := by
  rw [scrubPoisons, sound]
  rfl

end

/-- The CEs of a row are forgotten once it is weak. -/
def rowForgotten (s : State) (k : MemKind) (i w : Nat) : State :=
  s.modDie (memDie k i) (fun x => { x with scrubCe := x.scrubCe.filter (fun e => !(e.1 = k && e.2.1 = i && e.2.2 / 64 = w / 64)) })

/-- A weak row takes a spare row while there is one, and fails after the last. -/
theorem rowWeak_eq (s : State) (k : MemKind) (i w : Nat) :
    rowWeak s k i w =
      if rowsLeft (rowForgotten s k i w) k i = 0 then rowFails (rowForgotten s k i w) k i w
      else bbxRecord (rowUsed (rowForgotten s k i w) k i) (memDie k i) 0x08
        (memCode k + 16 * i + 512 * (w / 64) + 2 ^ 21 * rowsLeft (rowUsed (rowForgotten s k i w) k i) k i) [] := rfl

/-- Settles O38: each finding of a scrub read has its equation above. An earlier word of the row counts in the same pass (log 35). -/
theorem scrubReadsFindErrors : Obligations.ScrubReadsFindErrors := by
  intro s k i w inDevice runs inMemory sound
  have reads : ScrubReads s k i w := ⟨runs, inMemory, sound⟩
  refine ⟨?clean, ?first, ?again, ?poison, ?weak⟩
  case clean =>
    rw [exec_scrubRead .clean inDevice, scrubbed_clean reads]
  case first =>
    intro first
    rw [exec_scrubRead .ce inDevice, scrubbed_ce reads, scrubCorrects_first first]
  case again =>
    intro v earlier row remembered
    rw [exec_scrubRead .ce inDevice, scrubbed_ce reads, scrubCorrects_again earlier row remembered]
  case poison =>
    rintro t u rfl rfl
    rw [exec_scrubRead .ue inDevice, scrubbed_ue reads, scrubPoisons_sound sound]
    rfl
  case weak =>
    rintro t u rfl
    refine ⟨fun spare => ?_, fun spent => ?_⟩
    · exact (rowWeak_eq t k i w).trans (if_neg spare)
    · exact (rowWeak_eq t k i w).trans (if_pos spent)

end Sys2Proof.Machine
end

section
/-! SUPPORT. Proofs about the boot of a half (R472, R477–R480). -/

namespace Sys2Proof.Machine

/-! ### The list of a half (R477, R478) -/

section
variable {s : State} {d src : Nat} {image : List Byte} {readOk : Bool}

/-- The image that the ROM reads from a source: over the bridge, source 4, it is the one that die 0 runs. -/
def bootImage (s : State) (src : Nat) (image : List Byte) : List Byte := if src = 4 then s.die0.boot.image else image

/-- Half `d` boots, and `src` is the next source of its list; die 1 with its bridge up waits for die 0. -/
structure BootsFrom (s : State) (d src : Nat) : Prop where
  lives : halfLives s d = true
  boots : (s.die d).boot.state.toNat < 2
  next : (bootList s d)[(s.die d).boot.attempts.toNat]? = some src
  peer : d = 1 ∧ arcUp s = true → s.die0.boot.state = 2

theorem BootsFrom.goesOn (turn : BootsFrom s d src) : (!halfLives s d || decide (2 ≤ (s.die d).boot.state.toNat)) = false := by
  rw [turn.lives, decide_eq_false (Nat.not_le.2 turn.boots)]
  rfl

theorem BootsFrom.peerBooted (turn : BootsFrom s d src) : (decide (d = 1) && arcUp s && s.die0.boot.state != 2) = false := by
  refine Bool.eq_false_iff.2 fun waits => ?_
  simp only [Bool.and_eq_true, decide_eq_true_eq, bne_iff_ne] at waits
  obtain ⟨needs, unbooted⟩ := waits
  exact unbooted (turn.peer needs)

/-- An image that passes its checks, and on die 1 is die 0's or of its version, starts the half's firmware. -/
theorem bootLoad_passes (turn : BootsFrom s d src) (sound : imageReject (s.die d).otp (bootImage s src image) (readOk || src = 4) = 0)
    (same : d = 1 ∧ arcUp s = true ∧ src ≠ 4 → imageVersion (bootImage s src image) = s.die0.boot.version.toNat) :
    bootLoad s d image readOk =
      firmwareStarts (modBoot s d (fun b => bootOf (bootImage s src image) src (b.attempts.toNat + 1) b.reject)) d := by
  have agrees : (decide (d = 1) && arcUp s && src != 4 && imageVersion (bootImage s src image) != s.die0.boot.version.toNat) = false := by
    refine Bool.eq_false_iff.2 fun differs => ?_
    simp only [Bool.and_eq_true, decide_eq_true_eq, bne_iff_ne] at differs
    obtain ⟨⟨⟨second, bridge⟩, own⟩, version⟩ := differs
    exact version (same ⟨second, bridge, own⟩)
  simp only [bootImage] at sound agrees ⊢
  simp only [bootLoad, turn.goesOn, turn.next, turn.peerBooted, sound, agrees, decide_true, Bool.not_false, Bool.and_self, Bool.false_eq_true,
    if_false, if_true]

/-- An image that fails a check moves the half on along its list with the reason. -/
theorem bootLoad_fails (turn : BootsFrom s d src) (fails : imageReject (s.die d).otp (bootImage s src image) (readOk || src = 4) ≠ 0) :
    bootLoad s d image readOk = modBoot s d (fun b => { b with
      attempts := b.attempts + 1, reject := w8 (imageReject (s.die d).otp (bootImage s src image) (readOk || src = 4))
      state := if (bootList s d).length ≤ b.attempts.toNat + 1 then 3 else 1 }) := by
  simp only [bootImage] at fails ⊢
  simp only [bootLoad, turn.goesOn, turn.next, turn.peerBooted, fails, decide_false, Bool.false_and, Bool.false_eq_true, if_false]

/-- A half whose list is spent has failed to boot (R480). -/
theorem bootLoad_spent (lives : halfLives s d = true) (boots : (s.die d).boot.state.toNat < 2)
    (spent : (bootList s d)[(s.die d).boot.attempts.toNat]? = none) :
    bootLoad s d image readOk = modBoot s d (fun b => { b with state := 3 }) := by
  simp only [bootLoad, lives, decide_eq_false (Nat.not_le.2 boots), spent, Bool.not_true, Bool.or_self, Bool.false_eq_true, if_false]

end

theorem bootRetries_failed (s : State) (d : Nat) (failed : (s.die d).boot.state = 3) :
    bootRetries s d = modBoot s d (fun b => { b with state := 0, attempts := 0 }) := if_pos failed

/-! ### Ready firmware (R472, R479) -/

/-- Firmware that is ready for the first time makes the steward's event ring and sets READY for its four functions. -/
theorem firmwareReadyAt_first (s : State) (d : Nat) (up : dieUp s d = true) (runs : (s.die d).boot.state = 2)
    (first : (s.func (4 * d)).ready = false) :
    firmwareReadyAt s d = thermoRaise ((rangeL (4 * d) 4).foldl (fun s f => s.modFunc f (fun x => { x with ready := true }))
      (stewardRingMade s d)) := by
  rw [firmwareReadyAt, up, runs, first]
  rfl

/-- Settles O41: each command is the run of one operation, which has its equation above. The page of the steward's event ring is its firmware's
choice (log 39). -/
theorem halvesBoot : Obligations.HalvesBoot := by
  refine ⟨?load, ?spent, ?retry, ?ready⟩
  case load =>
    rintro s d src image readOk img hd lives boots next rfl peer
    have turn : BootsFrom s d src := ⟨lives, boots, next, peer⟩
    have loads : exec (.bootImageLoad d image readOk) s = .next (settle s (bootLoad s d image readOk)) :=
      run_eq (.bootImageLoad d image readOk) s (fun s => bootLoad s d image readOk) (decide_eq_true hd)
    refine ⟨fun sound same => loads.trans ?_, fun fails => loads.trans ?_⟩
    · rw [bootLoad_passes turn sound same]
      rfl
    · rw [bootLoad_fails turn fails]
      rfl
  case spent =>
    intro s d image readOk hd lives boots spent
    refine (run_eq (.bootImageLoad d image readOk) s (fun s => bootLoad s d image readOk) (decide_eq_true hd)).trans ?_
    rw [bootLoad_spent lives boots spent]
  case retry =>
    intro s d hd failed
    refine (run_eq (.bootRetry d) s (fun s => bootRetries s d) (decide_eq_true hd)).trans ?_
    rw [bootRetries_failed s d failed]
  case ready =>
    intro s d hd up runs first
    refine (run_eq (.firmwareReady d) s (fun s => firmwareReadyAt s d) (decide_eq_true hd)).trans ?_
    rw [firmwareReadyAt_first s d up runs first]
    rfl

end Sys2Proof.Machine
end

section
/-! SUPPORT. Proofs about the reference clock (R436, R458) and power failure (R198, R419, R420). -/

namespace Sys2Proof.Machine

/-- A lost REFCLK takes down the half's two link ports, where they have trained or train. -/
theorem refLostAt_eq (s : State) (d : Nat) :
    refLostAt s d = (rangeL (2 * d) 2).foldl (fun s p =>
      if (s.port p).st = .disabled ∨ (s.port p).st = .down then s else portLeaves portPw s p .down ((s.port p).st = .up))
      (s.modDie d (fun x => { x with refLost := true })) := by
  simp only [refLostAt, Bool.or_eq_true, decide_eq_true_eq]

/-- Half `d` records PFAIL and freezes its box. -/
def pfailRecorded (s : State) (d : Nat) : State := bbxFreezeBox (bbxRecord s d 0x15 0 []) d 3

/-- Half `d` records PFAIL, freezes its box, and starts to save it where it may. -/
def boxSaveBegins (s : State) (d : Nat) : State :=
  if maySave (pfailRecorded s d) d then (pfailRecorded s d).modDie d (fun x => { x with bbx := { x.bbx with saving := true } })
  else pfailRecorded s d

/-- PFAIL_N has gone low: V1494 is set (R198). -/
def pfailSeen (s : State) : State := vertexSet portPw (s.modPkg (fun p => { p with pfail := true })) 1494 true

/-- What PFAIL_N makes of one half: only one that runs records it. -/
def pfailHalf (s : State) (d : Nat) : State := if !dieUp s d then s else boxSaveBegins s d

theorem pfailHalf_up (s : State) (d : Nat) (up : dieUp s d = true) : pfailHalf s d = boxSaveBegins s d :=
  if_neg (by rw [up]; decide)

/-- PFAIL_N low for two samples is seen by both halves. -/
theorem pfailBegins_falls (s : State) (n : Nat) (low : 2 ≤ n) (first : s.pkg.pfail = false) :
    pfailBegins s n = pfailHalf (pfailHalf (pfailSeen s) 0) 1 := by
  have accepted : filterAccepts 2 n = true := decide_eq_true (Nat.max_le.2 ⟨low, by omega⟩)
  rw [pfailBegins, first, accepted]
  rfl

theorem saveDone_saves (s : State) (d : Nat) (saving : (s.die d).bbx.saving = true) (lives : halfLives s d = true) :
    saveDone s d = s.modDie d (fun x => { x with bbx := { x.bbx with
      saving := false, copy := some { records := x.bbx.records, newest := x.bbx.newest, seq := x.bbx.seq, wrapped := x.bbx.wrapped }
      savedRecords := if x.bbx.wrapped then 4096 else if x.bbx.written then x.bbx.newest.toNat + 1 else 0 } }) := by
  rw [saveDone, saving, lives]
  rfl

/-- Settles O42: each command is the run of one operation, which has its equation above. A half may save its box where its flash region is erased and
reached (log 51). -/
theorem clockAndPowerFailures : Obligations.ClockAndPowerFailures := by
  refine ⟨?lost, ?relock, ?pfail, ?saved⟩
  case lost =>
    intro s d hd
    refine (run_eq (.refclkLost d) s (fun s => refLostAt s d) (decide_eq_true hd)).trans ?_
    rw [refLostAt_eq]
  case relock =>
    intro s d hd
    exact run_eq (.refclkRelock d) s (fun s => s.modDie d (fun x => { x with refLost := false })) (decide_eq_true hd)
  case pfail =>
    intro s n u v w low first up0 up1 hu hv hw
    obtain rfl : u = pfailSeen s := hu
    obtain rfl : v = boxSaveBegins (pfailSeen s) 0 := hv
    obtain rfl : w = boxSaveBegins (boxSaveBegins (pfailSeen s) 0) 1 := hw
    refine (run_eq (.pfailAsserted n) s (fun s => pfailBegins s n) rfl).trans ?_
    rw [pfailBegins_falls s n low first, pfailHalf_up _ 0 up0, pfailHalf_up _ 1 up1]
  case saved =>
    intro s d hd saving lives
    refine (run_eq (.blackboxSaveDone d) s (fun s => saveDone s d) (decide_eq_true hd)).trans ?_
    rw [saveDone_saves s d saving lives]

end Sys2Proof.Machine
end

section
/-! SUPPORT. Proofs about heartbeats and delay exchanges (R428, R432, R443, R447, R450, R452). -/

namespace Sys2Proof.Machine

/-- A port that sends and takes heartbeats: its half runs with its reference clock, and it is UP or in STANDOFF. -/
structure Beats (s : State) (p : Nat) : Prop where
  alive : portAlive s p = true
  trained : (s.port p).st = .up ∨ (s.port p).st = .standoff

theorem Beats.goesOn {s : State} {p : Nat} (beats : Beats s p) :
    (!portAlive s p || !((s.port p).st = .up || (s.port p).st = .standoff)) = false := by
  rcases beats.trained with up | off
  · simp [beats.alive, up]
  · simp [beats.alive, off]

/-! ### Heartbeats sent (R432, R450) -/

/-- The root gives each of its heartbeats a new ROOT_SEQ. -/
def rootCounted (s : State) : State :=
  if isRoot s && !s.pkg.standoff then s.modPkg (fun k => { k with rootSeq := k.rootSeq + 1, rootSeqAt := s.edges }) else s

/-- Port `p`, in state `st`, sends the heartbeat with the path that the device has. -/
def beatSent (s : State) (p : Nat) (st : PortState) : State :=
  s.modPort p (fun x => emitBlock { x with beats := x.beats + 1 }
    (.heartbeat s.pkg.root (if st = .up && s.pkg.path then s.pkg.hops else 0) (st = .up && s.pkg.path) s.pkg.epoch s.pkg.rootSeq
      (BitVec.ofNat 24 s.pilot.toNat)))

/-- Every 64th heartbeat of an UP port has a delay request behind it. -/
theorem heartbeatOut_beats {s : State} {p : Nat} (beats : Beats s p) :
    heartbeatOut s p =
      if (s.port p).st = .up && ((s.port p).beats + 1) % 64 = 0 then
        (beatSent (rootCounted s) p (s.port p).st).modPort p (fun x =>
          emitBlock x (.delayReq (BitVec.ofNat 40 (beatSent (rootCounted s) p (s.port p).st).pilot.toNat)))
      else beatSent (rootCounted s) p (s.port p).st := by
  rw [heartbeatOut, beats.goesOn]
  rfl

/-! ### Heartbeats taken (R428, R443, R447, R452) -/

section
variable (s : State) (p : Nat) (root : BitVec 5) (hops : BitVec 2) (attached : Bool) (epoch rootSeq : Byte) (time : BitVec 24) (takesUs : Bool)

/-- What the heartbeat of a peer says of its path and root is heard, and the tree follows. -/
def beatHeard : State :=
  retree portPw (hearRoot (s.modPort p (fun x => { x with
    peerRoot := root, peerHops := hops, peerAttached := attached, peerTakes := takesUs, peerSeq := rootSeq
    seqAt := if seqLater rootSeq x.peerSeq then s.edges else x.seqAt })) root epoch)

/-- A later ROOT_SEQ from the upstream peer is the device's. -/
def rootSeqTaken (t : State) : State :=
  if seqLater rootSeq t.pkg.rootSeq then t.modPkg (fun k => { k with rootSeq := rootSeq, rootSeqAt := t.edges }) else t

variable {s p root hops attached epoch rootSeq takesUs}

/-- The upstream peer, while it is attached, gives ROOT_SEQ and the time. -/
theorem heartbeatIn_upstream (beats : Beats s p) (upstream : upPort (beatHeard s p root hops attached epoch rootSeq takesUs) = some p)
    (path : attached = true) :
    heartbeatIn s p root hops attached epoch rootSeq time takesUs =
      offsetFrom (rootSeqTaken rootSeq (beatHeard s p root hops attached epoch rootSeq takesUs)) p time := by
  have follows : (upPort (beatHeard s p root hops attached epoch rootSeq takesUs) != some p || !attached) = false := by
    rw [upstream, path, bne_self_eq_false]
    rfl
  simp only [heartbeatIn, beats.goesOn, Bool.false_eq_true, if_false]
  exact if_neg (Bool.eq_false_iff.1 follows)

/-- Any other peer gives its path and root alone. -/
theorem heartbeatIn_other (beats : Beats s p)
    (other : upPort (beatHeard s p root hops attached epoch rootSeq takesUs) ≠ some p ∨ attached = false) :
    heartbeatIn s p root hops attached epoch rootSeq time takesUs = beatHeard s p root hops attached epoch rootSeq takesUs := by
  simp only [heartbeatIn, beats.goesOn, Bool.false_eq_true, if_false]
  refine if_pos (Bool.or_eq_true_iff.2 (other.imp (fun elsewhere => bne_iff_ne.2 elsewhere) fun detached => ?_))
  rw [detached]
  rfl

end

/-! ### The delay exchange (R452) -/

/-- A delay request is answered, a response gives half of its round trip. -/
theorem delayIn_up (s : State) (p : Nat) (response : Bool) (time : BitVec 40) (trip : Nat) (alive : portAlive s p = true)
    (up : (s.port p).st = .up) :
    delayIn s p response time trip =
      if response then s.modPort p (fun x => { x with delay := w16 (trip / 2) }) else s.modPort p (fun x => emitBlock x (.delayResp time)) := by
  rw [delayIn, alive, up]
  rfl

/-- Settles O47: each command is the run of one operation, which has its equation above. ROOT_SEQ counts once for each heartbeat sent (log 43); a port
in STANDOFF sends and takes them too (R436). -/
theorem heartbeatsAndDelays : Obligations.HeartbeatsAndDelays := by
  refine ⟨?sends, ?takes, ?delay⟩
  case sends =>
    intro s p t u hp alive trained ht hu
    obtain rfl : t = rootCounted s := ht
    obtain rfl : u = beatSent (rootCounted s) p (s.port p).st := hu
    refine (run_eq (.heartbeatSend p) s (fun s => heartbeatOut s p) (decide_eq_true hp)).trans ?_
    rw [heartbeatOut_beats ⟨alive, trained⟩]
  case takes =>
    intro s p root hops attached epoch rootSeq time takesUs t u hp alive trained ht hu
    obtain rfl : t = beatHeard s p root hops attached epoch rootSeq takesUs := ht
    obtain rfl : u = rootSeqTaken rootSeq (beatHeard s p root hops attached epoch rootSeq takesUs) := hu
    have takes : exec (.heartbeatReceive p root hops attached epoch rootSeq time takesUs true) s =
        .next (settle s (heartbeatIn s p root hops attached epoch rootSeq time takesUs)) :=
      run_eq (.heartbeatReceive p root hops attached epoch rootSeq time takesUs true) s _ (decide_eq_true hp)
    refine ⟨fun upstream path => takes.trans ?_, fun other => takes.trans ?_⟩
    · rw [heartbeatIn_upstream time ⟨alive, trained⟩ upstream path]
    · rw [heartbeatIn_other time ⟨alive, trained⟩ other]
  case delay =>
    intro s p time trip hp alive up
    have exchange (response : Bool) : exec (.delayBlock p response time trip true) s = .next (settle s (delayIn s p response time trip)) :=
      run_eq (.delayBlock p response time trip true) s _ (decide_eq_true hp)
    refine ⟨(exchange true).trans ?_, (exchange false).trans ?_⟩ <;> rw [delayIn_up s p _ time trip alive up]
    · rfl
    · rfl

end Sys2Proof.Machine
end

section
/-! SUPPORT. Proofs about VERTEX and SIGNAL blocks and acknowledgements on Polob links (R434, R435, R439–R441). -/

namespace Sys2Proof.Machine
open Claims

/-! ### Blocks in sequence (R434, R439, R441) -/

/-- The system ID of all devices is 31 (R426). -/
theorem toNat_eq_allDevices (dest : BitVec 5) : dest.toNat = allDevices ↔ dest = 31 :=
  ⟨fun all => BitVec.eq_of_toNat_eq all, fun all => all ▸ rfl⟩

section
variable {s t : State} {p : Nat} {b : BitVec 3} (takes : TakesBlock s p b t)
include takes

/-- A block of the SEQ that its port expects is acknowledged. -/
theorem blockIn_takes : blockIn s p b (true && portAlive s p) = (true, t) := by
  obtain ⟨-, alive, up, rfl, rfl⟩ := takes
  simp only [blockIn, alive, up, Bool.and_self, Bool.not_true, bne_self_eq_false, Bool.or_self, Bool.false_eq_true, if_false, if_true]

/-- The acknowledgement leaves the device's system ID. -/
theorem ownId_of_takes : ownId t = s.pkg.sysId := by
  obtain ⟨-, -, -, -, rfl⟩ := takes
  rfl

theorem vertexIn_takes (dest : BitVec 5) (index : BitVec 7) (level : Bool) (change : Half) (src : BitVec 5) :
    vertexIn s p dest b index level change src true =
      if dest = s.pkg.sysId then vertexApplied portPw t index level change src
      else relay t p dest.toNat (.vertex 0 dest index level change src) := by
  rw [vertexIn, blockIn_takes takes, ← ownId_of_takes takes]

theorem signalIn_takes (dest : BitVec 5) (n : Byte) (data : Word) :
    signalIn s p dest b n data true =
      if dest = 31 then sendSignal (fireSoft portPw t n.toNat data) allDevices n.toNat data
      else if dest = s.pkg.sysId then fireSoft portPw t n.toNat data
      else relay t p dest.toNat (.signal 0 dest n data) := by
  rw [signalIn, blockIn_takes takes, ← ownId_of_takes takes]
  exact ite_congr (propext (toNat_eq_allDevices dest)) (fun _ => rfl) (fun _ => rfl)

end

/-! ### Acknowledgements (R434, R435) -/

/-- An ACK for blocks at a port's end: it frees the blocks up to its SEQ, and those that wait follow. -/
def blocksFreed (b : BitVec 3) (p np : Nat) (x : LinkPort) : LinkPort :=
  let y := packetAck x false x.txSeq p np
  blocksDrain y.waiting.length { y with unacked := blocksAcked b y.unacked }

/-- An ACK at a port that is UP, or that trains with block lock, frees what it names and returns credit. -/
theorem ackIn_trained (s : State) (p : Nat) (nak block : Bool) (b : BitVec 3) (seq : Half) (cp cnp : Nat) (alive : portAlive s p = true)
    (trained : (s.port p).st = .up ∨ ((s.port p).st = .training ∧ (s.port p).locked = true)) :
    ackIn s p nak block b seq cp cnp =
      creditsReturn s (s.modPort p (fun x => if block then blocksFreed b cp cnp x else packetAck x nak seq cp cnp)) := by
  have goesOn : (!portAlive s p || !((s.port p).st = .up || ((s.port p).st = .training && (s.port p).locked))) = false := by
    rcases trained with up | ⟨training, locked⟩
    · simp [alive, up]
    · simp [alive, training, locked]
  rw [ackIn, goesOn]
  cases block
  · simp only [Bool.not_false, Bool.and_true, Bool.false_eq_true, if_false]
  · simp only [Bool.not_true, Bool.and_false, Bool.false_eq_true, if_false, if_true]
    rfl

theorem blocksAgain_up (s : State) (p : Nat) (alive : portAlive s p = true) (up : (s.port p).st = .up) :
    blocksAgain s p = s.modPort p (fun x => x.unacked.foldl emitBlock { x with replays := satAdd x.replays x.unacked.length }) := by
  rw [blocksAgain, alive, up]
  rfl

/-- Settles O48: a block in sequence is applied here, relayed, or both, and an acknowledgement frees what it names. A relayed packet keeps its place in
the receive buffer until it leaves (log 75), and credit returns as places come free (log 42). -/
theorem blocksAndAcks : Obligations.BlocksAndAcks := by
  refine ⟨?vertex, ?signal, ?ack, ?resend⟩
  case vertex =>
    intro s p dest b index lvl change src t takes
    have arrives : exec (.vertexBlock p dest b index lvl change src true) s =
        .next (settle s (vertexIn s p dest b index lvl change src true)) :=
      run_eq (.vertexBlock p dest b index lvl change src true) s (fun s => vertexIn s p dest b index lvl change src true) (decide_eq_true takes.1)
    rw [vertexIn_takes takes] at arrives
    refine ⟨fun here => arrives.trans ?_, fun elsewhere => arrives.trans ?_⟩
    · rw [if_pos here]
    · rw [if_neg elsewhere]
  case signal =>
    intro s p dest b n data t takes
    have arrives : exec (.signalBlock p dest b n data true) s = .next (settle s (signalIn s p dest b n data true)) :=
      run_eq (.signalBlock p dest b n data true) s (fun s => signalIn s p dest b n data true) (decide_eq_true takes.1)
    rw [signalIn_takes takes] at arrives
    refine ⟨fun all => arrives.trans ?_, fun one here => arrives.trans ?_, fun one elsewhere => arrives.trans ?_⟩
    · rw [if_pos all]
    · rw [if_neg one, if_pos here]
    · rw [if_neg one, if_neg elsewhere]
  case ack =>
    intro s p nak b seq cp cnp ccpl hp alive trained
    have acks (nak block : Bool) : exec (.ackBlock p nak block b seq cp cnp ccpl true) s =
        .next (settle s (ackIn s p nak block b seq cp.toNat cnp.toNat)) :=
      run_eq (.ackBlock p nak block b seq cp cnp ccpl true) s _ (decide_eq_true hp)
    refine ⟨(acks nak true).trans ?_, (acks nak false).trans ?_⟩ <;> rw [ackIn_trained s p nak _ b seq _ _ alive trained]
    · rfl
    · rfl
  case resend =>
    intro s p hp alive up
    refine (run_eq (.blockResend p) s (fun s => blocksAgain s p) (decide_eq_true hp)).trans ?_
    rw [blocksAgain_up s p alive up]

end Sys2Proof.Machine
end

section
/-! SUPPORT. Proofs about the training of link ports, their loss, and the loss of the path and of the apex (R429, R433, R436, R443, R446,
R450). -/

namespace Sys2Proof.Machine

/-! ### Training (R429, R433, R436) -/

theorem lockedOn_training (s : State) (p : Nat) (alive : portAlive s p = true) (training : (s.port p).st = .training)
    (first : (s.port p).locked = false) : lockedOn s p = sendHello (s.modPort p (fun x => { x with locked := true })) p := by
  rw [lockedOn, alive, training, first]
  rfl

section
variable (s : State) (p : Nat) (sysId : BitVec 5) (serial : DWord) (hops : BitVec 2) (attached : Bool) (root : BitVec 5) (epoch : Byte)
  (time : DWord)

/-- Port `p` is up, or in STANDOFF on a device that stands off, with the peer that its HELLO names. -/
def peerMet : State :=
  withSourceEdge s (515 + 8 * (p / 2)) (fun s => s.modPort p (fun x => { x with
    st := if s.pkg.standoff then .standoff else .up, peerId := sysId, peerSerial := some serial, hello := time, helloAt := s.edges, peerHops := hops
    peerAttached := attached, peerRoot := root, seqAt := s.edges }))

/-- A HELLO takes its place in the order of packets; one in STANDOFF is not acknowledged (log 75). -/
def helloCounted (t : State) : State :=
  if t.pkg.standoff then t.modPort p (fun x => { x with rxSeq := x.rxSeq + 1 }) else packetTaken t p 0 true

/-- The HELLO of a peer that is new, or the one of before, at a port with block lock. -/
theorem helloIn_training (alive : portAlive s p = true) (training : (s.port p).st = .training) (locked : (s.port p).locked = true)
    (peer : (s.port p).peerSerial = none ∨ (s.port p).peerSerial = some serial) :
    helloIn s p sysId serial hops attached root epoch time =
      retree portPw (hearRoot (dupFound (helloCounted p (peerMet s p sysId serial hops attached root time)) sysId serial) root epoch) := by
  have samePeer : ((s.port p).peerSerial.isSome && (s.port p).peerSerial != some serial) = false := by
    rcases peer with none | same
    · rw [none]
      rfl
    · rw [same, bne_self_eq_false, Bool.and_false]
  rw [helloIn, alive, training, locked, samePeer]
  rfl

end

/-- A port that is DOWN trains again 1,000 ticks later. -/
theorem trainAgain_due (s : State) (p : Nat) (alive : portAlive s p = true) (enabled : portEnabled s p = true) (down : (s.port p).st = .down)
    (passed : (s.port p).downAt + 1000 ≤ s.edges) : trainAgain s p = s.modPort p (fun x => { x with st := .training, locked := false }) := by
  simp only [trainAgain, alive, enabled, down, decide_eq_false (Nat.not_lt.2 passed), bne_self_eq_false, Bool.not_true, Bool.or_self,
    Bool.false_eq_true, if_false]

/-- A trained port goes DOWN for a cause that holds. -/
theorem portFalls_trained (s : State) (p : Nat) (why : PortLoss) (up : dieUp s (p / 2) = true)
    (trained : (s.port p).st = .up ∨ (s.port p).st = .standoff) (naks : why = .nakLimit → 4 ≤ (s.port p).naks)
    (refclk : why = .refclkLost → (s.die (p / 2)).refLost = true) : portFalls s p why = portLeaves portPw s p .down true := by
  have leaves : (decide ((s.port p).st = .up) || decide ((s.port p).st = .standoff)) = true := by
    rw [← Bool.decide_or]
    exact decide_eq_true trained
  cases why
  case nakLimit =>
    simp only [portFalls, up, leaves, decide_eq_true (naks rfl), Bool.not_true, Bool.or_self, Bool.false_eq_true, if_false]
  case refclkLost => simp only [portFalls, up, leaves, refclk rfl, Bool.not_true, Bool.or_self, Bool.false_eq_true, if_false]
  all_goals simp only [portFalls, up, leaves, Bool.not_true, Bool.or_self, Bool.false_eq_true, if_false]

/-! ### The path and the apex (R443, R446) -/

/-- A root that has been silent for 3,000 ticks: the upstream peer offers no path. -/
theorem pathLost3000_silent (s : State) (p : Nat) (upstream : upPort s = some p) (below : isRoot s = false)
    (silent : s.pkg.rootSeqAt + 3000 ≤ s.edges) :
    pathLost3000 s = retree portPw (s.modPort p (fun x => { x with peerAttached := false })) := by
  simp only [pathLost3000, upstream, below, decide_eq_false (Nat.not_lt.2 silent), Bool.or_self, Bool.false_eq_true, if_false]

/-- The standby that judges the apex lost becomes the acting apex. -/
theorem takesOver_gone (s : State) (gone : apexGone s = true) (up : dieUp s 0 = true ∨ dieUp s 1 = true) :
    takesOver s = retree portPw (s.modPkg (fun k => { k with
      epoch := k.epoch + 1, takeovers := k.takeovers + 1, acting := true, root := k.sysId, path := true, hops := 0 })) := by
  rw [takesOver, gone, Bool.or_eq_true_iff.2 up]
  rfl

/-- Settles O50: each command is the run of one operation, which has its equation above. TAKEOVERS counts the device's own EPOCH and the end of a path
withdraws the offer (log 42); a port in STANDOFF goes DOWN too (log 43); a HELLO takes a place in the order of packets (log 75). -/
theorem portsTrainAndPathsEnd : Obligations.PortsTrainAndPathsEnd := by
  refine ⟨?lock, ?hello, ?retry, ?down, ?path, ?apex⟩
  case lock =>
    intro s p hp alive training first
    refine (run_eq (.blockLock p) s (fun s => lockedOn s p) (decide_eq_true hp)).trans ?_
    rw [lockedOn_training s p alive training first]
  case hello =>
    intro s p id serial hops attached root epoch time t u hp alive training locked peer ht hu
    obtain rfl : t = peerMet s p id serial hops attached root time := ht
    obtain rfl : u = helloCounted p (peerMet s p id serial hops attached root time) := hu
    refine (run_eq (.helloPacket p id serial hops attached root epoch time) s
      (fun s => helloIn s p id serial hops attached root epoch time) (decide_eq_true hp)).trans ?_
    rw [helloIn_training s p id serial hops attached root epoch time alive training locked peer]
  case retry =>
    intro s p hp alive enabled down passed
    refine (run_eq (.linkTrainingRetry p) s (fun s => trainAgain s p) (decide_eq_true hp)).trans ?_
    rw [trainAgain_due s p alive enabled down passed]
  case down =>
    intro s p why hp up trained naks refclk
    refine (run_eq (.linkPortDown p why) s (fun s => portFalls s p why) (decide_eq_true hp)).trans ?_
    rw [portFalls_trained s p why up trained naks refclk]
  case path =>
    intro s p upstream below silent
    refine (run_eq .pathLoss s pathLost3000 rfl).trans ?_
    rw [pathLost3000_silent s p upstream below silent]
  case apex =>
    intro s gone up
    refine (run_eq .apexLoss s takesOver rfl).trans ?_
    rw [takesOver_gone s gone up]

end Sys2Proof.Machine
end

section
/-! SUPPORT. Proofs about EPOCH and the root that a device follows (R447, R450). -/

namespace Sys2Proof.Machine

/-- One EPOCH is newer than another that it follows by 1 to 127, modulo 256. -/
theorem epochNewer_iff (a b : Byte) :
    epochNewer a b = true ↔ 1 ≤ (a.toNat + 256 - b.toNat) % 256 ∧ (a.toNat + 256 - b.toNat) % 256 ≤ 127 := by
  have distance : (a - b).toNat = (a.toNat + 256 - b.toNat) % 256 := by
    have := b.isLt
    rw [BitVec.toNat_sub]
    omega
  simp only [epochNewer, distance, Bool.and_eq_true, decide_eq_true_eq]

/-- The root that is heard of is a lower one of the same EPOCH. -/
def lowerRoot (s : State) (root : BitVec 5) (epoch : Byte) : Bool := epoch = s.pkg.epoch && root.toNat < s.pkg.root.toNat

section
variable (s : State) (root : BitVec 5) (epoch : Byte)

/-- A root that is neither of a newer EPOCH nor a lower one of the same changes nothing. -/
theorem hearRoot_older (older : epochNewer epoch s.pkg.epoch = false) (notLower : lowerRoot s root epoch = false) :
    hearRoot s root epoch = s := by
  refine if_pos ?_
  rw [older, show (decide (epoch = s.pkg.epoch) && decide (root.toNat < s.pkg.root.toNat)) = false from notLower]
  rfl

/-- A device that is not the apex takes the EPOCH and the root. -/
theorem hearRoot_follows (worker : s.pkg.sysId ≠ 0) (heard : (epochNewer epoch s.pkg.epoch || lowerRoot s root epoch) = true) :
    (hearRoot s root epoch).pkg.epoch = epoch ∧ (hearRoot s root epoch).pkg.root = root := by
  have goesOn : (!epochNewer epoch s.pkg.epoch && !(decide (epoch = s.pkg.epoch) && decide (root.toNat < s.pkg.root.toNat))) = false := by
    rw [← Bool.not_or, show (_ || (decide (epoch = s.pkg.epoch) && decide (root.toNat < s.pkg.root.toNat))) = true from heard]
    rfl
  rw [hearRoot, goesOn, if_neg Bool.false_ne_true, if_neg worker]
  exact ⟨rfl, rfl⟩

/-! ### The apex stands off (R450) -/

/-- An UP port goes into STANDOFF. -/
def portStandsOff (x : LinkPort) : LinkPort := if x.st = .up then { x with st := .standoff, role := .none } else x

/-- Ports changed one after another: each of the list is, and nothing else of the package. -/
theorem foldl_modPort_pkg (f : LinkPort → LinkPort) (l : List Nat) (s : State) : (l.foldl (fun s p => s.modPort p f) s).pkg = s.pkg := by
  induction l generalizing s with
  | nil => rfl
  | cons p l ih => exact ih (s.modPort p f)

theorem foldl_modPort_port (f : LinkPort → LinkPort) (l : List Nat) (s : State) (once : l.Nodup) (p : Nat) :
    (l.foldl (fun s p => s.modPort p f) s).port p = if p ∈ l then f (s.port p) else s.port p := by
  induction l generalizing s with
  | nil => rfl
  | cons q l ih =>
    obtain ⟨fresh, once⟩ := List.nodup_cons.1 once
    rw [List.foldl_cons, ih _ once, State.modPort_port]
    by_cases here : p = q
    · subst here
      simp [fresh]
    · simp [here]

/-- The apex that hears a newer EPOCH notes it and closes its ports. -/
theorem hearRoot_apex (apex : s.pkg.sysId = 0) (newer : epochNewer epoch s.pkg.epoch = true) :
    hearRoot s root epoch = (List.range 4).foldl (fun s p => s.modPort p portStandsOff)
      (s.modPkg (fun p => { p with standoff := true, path := false, epoch := epoch, root := root, takeovers := p.takeovers + 1 })) := by
  rw [hearRoot, newer, apex]
  rfl

end

/-- Settles O60: a device follows what R447 says is newer; the apex stands off instead, with all its UP ports (R450). -/
theorem newerEpochIsFollowed : Obligations.NewerEpochIsFollowed := by
  refine ⟨epochNewer_iff, ?follows, ?apex⟩
  case follows =>
    intro s root epoch worker
    refine ⟨fun newer => ?_, fun same lower => ?_, fun older notLower => ?_⟩
    · exact hearRoot_follows s root epoch worker (by rw [newer, Bool.true_or])
    · exact hearRoot_follows s root epoch worker (by simp [lowerRoot, same, lower])
    · exact hearRoot_older s root epoch older (by simpa [lowerRoot] using notLower)
  case apex =>
    intro s root epoch apex newer
    rw [hearRoot_apex s root epoch apex newer, foldl_modPort_pkg]
    refine ⟨rfl, rfl, fun p hp up => ?_⟩
    rw [foldl_modPort_port _ _ _ List.nodup_range, if_pos (List.mem_range.2 hp)]
    exact congrArg LinkPort.st (if_pos up)

end Sys2Proof.Machine
end

section
/-! SUPPORT. Proofs about the front of the queue (log 4), the state after reset (R34, R259, R466) and the sentinels' balls (R36). -/

namespace Sys2Proof.Machine
open Claims

/-- Settles O51: it is the arm of `step` for a queue that is not empty. -/
theorem stepTakesTheFrontCommand : Obligations.StepTakesTheFrontCommand := fun _ _ _ front => step_command front

/-! ### The state after reset (R34, R259, R466) -/

/-- Function 0 alone holds capabilities (R259). -/
theorem reset_caps (f : Nat) : (State.reset.func f).caps = if f = 0 then 0x1F else 0 := by
  have listed : State.reset.func f = if 0 = f then { caps := 0x1F } else {} := rfl
  rw [listed]
  by_cases primary : f = 0
  · rw [if_pos primary, if_pos primary.symm]
  · rw [if_neg primary, if_neg (Ne.symm primary)]

/-- Settles O54: function 0 is the one element that is listed; every other has its fields' reset values. -/
theorem resetLeavesItsValues : Obligations.ResetLeavesItsValues :=
  ⟨rfl, rfl, rfl, rfl, reset_caps, fun _ => ⟨rfl, rfl⟩, fun _ => rfl, fun _ => rfl, fun _ _ => rfl, fun _ => rfl, fun _ => rfl, fun _ => rfl,
   fun _ => rfl, by decide, ⟨rfl, rfl, rfl, rfl, rfl, rfl, rfl⟩⟩

/-! ### Sentinels (R36) -/

/-- A bit of a word is the digit of its value at that place. -/
theorem wb_iff (w : BitVec n) (i : Nat) : wb w i = true ↔ w.toNat / 2 ^ i % 2 = 1 := beq_iff_eq

/-- One of the two halves runs and asserts the sentinel. -/
theorem sentinelLow_iff (s : State) (k : Nat) : sentinelLow s k = true ↔
    (dieUp s 0 = true ∧ s.pkg.sentinel0.toNat / 2 ^ k % 2 = 1) ∨ (dieUp s 1 = true ∧ s.pkg.sentinel1.toNat / 2 ^ k % 2 = 1) := by
  rw [sentinelLow, Bool.or_eq_true, Bool.and_eq_true, Bool.and_eq_true, wb_iff, wb_iff]

/-- Settles O59: the ball is low where one half that runs asserts the sentinel, else it is released. -/
theorem eitherHalfAssertsASentinel : Obligations.EitherHalfAssertsASentinel := fun s k =>
  ⟨sentinelLow_iff s k, by rw [← Bool.not_eq_true, sentinelLow_iff, not_or]⟩

end Sys2Proof.Machine
end

section
/-! SUPPORT. Proofs about the resets of units, regions and lost halves (R18, R19, R29, R414, R468). -/

namespace Sys2Proof.Machine
open Claims

/-! ### DIE_UNIT_RESET (R19) -/

theorem unitWord_type {utype unit : Nat} (type : utype < 8) : wf (unitWord utype unit) 0 3 = utype := by
  simp only [wf, fld, unitWord, w32, BitVec.toNat_ofNat]
  omega

theorem unitWord_unit {utype unit : Nat} (type : utype < 8) (number : unit < 4096) : wf (unitWord utype unit) 8 12 = unit := by
  simp only [wf, fld, unitWord, w32, BitVec.toNat_ofNat]
  omega

section
variable {s : State} {who : Who} {d : Nat} (reach : portReach s who d = true)
include reach

/-- A write that names an IN_SERVICE unit of the die starts its reset. -/
theorem unitWrite_starts {utype unit : Nat} (sent : Nat) (recv : List Byte) (type : utype < 8) (number : unit < 4096)
    (may : unitMay s d utype unit = true) :
    unitWrite s who d utype unit sent recv = unitResetStart portPw s utype unit sent recv := by
  rw [unitWrite, reachWrite, if_pos reach, unitResetWrite, unitWord_type type, unitWord_unit type number, if_pos may]

/-- The same for the command that writes the register. -/
theorem run_unitReset {utype unit : Nat} {sent : Nat} {recv : List Byte} (i : Instr) (hw : i.wf = (who.ok && decide (d < 2)))
    (ok : who.ok = true) (hd : d < 2) (type : utype < 8) (number : unit < 4096) (may : unitMay s d utype unit = true) :
    run i s (fun s => unitWrite s who d utype unit sent recv) = .next (settle s (unitResetStart portPw s utype unit sent recv)) := by
  rw [run_eq i s _ (hw.trans (Bool.and_eq_true_iff.2 ⟨ok, decide_eq_true hd⟩)), unitWrite_starts reach sent recv type number may]

end

theorem unitMay_spare {s : State} {d r : Nat} (hr : r < 8) (die : r / 4 = d) (serves : (s.region r).spareUnit = .inService)
    (sound : (s.region r).spareBad = false) : unitMay s d 2 (32 + r) = true := by
  have spare : ¬32 + r < 32 := Nat.not_lt.2 (Nat.le_add_right 32 r)
  have number : 32 + r < 40 := Nat.add_lt_add_left hr 32
  simp only [unitMay, if_neg spare, Nat.add_sub_cancel_left, number, die, serves, sound, decide_true, Bool.not_false, Bool.and_self]

/-- The spare engine of region `r` is engine number 32 + `r`; its reset pauses the lanes of the cluster that it serves. -/
theorem unitResetStart_spare (s t : State) (r : Nat) (ht : t = s.modRegion r (fun x => { x with spareUnit := .resetting })) :
    (∀ c, (s.region r).spareFor = some c → unitResetStart portPw s 2 (32 + r) 0 [] = pauseLanes t c true) ∧
    ((s.region r).spareFor = none → unitResetStart portPw s 2 (32 + r) 0 [] = t) := by
  have kept : (t.region r).spareFor = (s.region r).spareFor := by rw [ht, State.modRegion_region, if_pos rfl]
  rw [unitResetStart, if_neg (show ¬32 + r < 32 by omega), Nat.add_sub_cancel_left]
  simp only [← ht, kept]
  exact ⟨fun c serves => by rw [serves], fun free => by rw [free]⟩

/-! ### PWR_RESET and PKG_LOST_CTRL (R414, R468) -/

theorem regionReset_resets {s : State} {who : Who} {d q : Nat} (hq : q < 4) (reach : portReach s who d = true)
    (first : (s.region (4 * d + q)).inReset = false) :
    reachWrite s who d (fun s => regionResetWrite portPw s who d (q % 4) (w32 (q % 4 + 4))) = regionResetAt portPw s (4 * d + q) := by
  rw [reachWrite, if_pos reach, Nat.mod_eq_of_lt hq, regionResetWrite, first, if_neg Bool.false_ne_true]

/-- RESET_LOST is bit 1 of the word that the command writes, which keeps HOLD_LOST in bit 0. -/
theorem lostCtrl_bits (hold : Bool) : wb (w32 (2 + b2n hold)) 1 = true ∧ wb (w32 (2 + b2n hold)) 0 = hold := by
  cases hold <;> decide

theorem lostReset_inCustody (s : State) (d : Nat) (reach : portReach s (.steward d) d = true) (custody : (s.pkg.split && s.pkg.custody != d) = false) :
    lostReset s (.steward d) = resetLostNow s := by
  obtain ⟨reset, hold⟩ := lostCtrl_bits s.pkg.holdLost
  have kept : pkgWrite s (.steward d) d 0x104 (w32 (2 + b2n s.pkg.holdLost)) = s := by
    rw [pkgWrite, custody, hold]
    rfl
  have write : portWrite s (.steward d) d 0x104 (w32 (2 + b2n s.pkg.holdLost)) = resetLostNow s := by
    simp only [portWrite, reset, custody, kept]
    rfl
  exact (if_pos reach).trans write

/-- Settles O28: a unit's reset starts by its type, a test that passes changes the unit alone, and each of the other commands is one operation. -/
theorem unitAndRegionResets : Obligations.UnitAndRegionResets := by
  refine ⟨?start, ?slotDone, ?channelDone, ?meterDone, ?chordDone, ?region, ?regionDone, ?lost⟩
  case start =>
    intro s who d ok hd reach
    refine ⟨fun n sent recv hn die there => ?_, fun c hc die there => ?_, fun n hn die there => ?_, fun n hn die there => ?_,
      fun m hm die there => ?_, fun r t hr die there sound ht => ?_, fun c hc die there => ?_⟩
    · exact run_unitReset reach (.unitResetLane who d n sent recv) rfl ok hd (by decide) (by omega) (by simp [unitMay, hn, die, there])
    · refine (run_unitReset reach (.unitResetEngine who d c) rfl ok hd (by decide) (by omega) (by simp [unitMay, hc, die, there])).trans ?_
      rw [unitResetStart, if_pos hc]
    · exact run_unitReset reach (.unitResetSlot who d n) rfl ok hd (by decide) (by omega) (by simp [unitMay, hn, die, there])
    · exact run_unitReset reach (.unitResetChannel who d n) rfl ok hd (by decide) (by omega) (by simp [unitMay, hn, die, there])
    · exact run_unitReset reach (.unitResetMeter who d m) rfl ok hd (by decide) (by omega) (by simp [unitMay, hm, die, there])
    · have may : unitMay s d 2 (32 + r) = true := unitMay_spare hr die there sound
      refine (run_unitReset reach (.unitResetEngine who d (32 + r)) rfl ok hd (by decide) (by omega) may).trans ?_
      obtain ⟨serving, free⟩ := unitResetStart_spare s t r ht
      split
      · next c serves => rw [serving c serves]
      · next serves => rw [free serves]
    · exact run_unitReset reach (.unitResetChord who d c) rfl ok hd (by decide) (by omega) (by simp [unitMay, hc, die, there])
  case slotDone =>
    intro s n hn resets free
    refine (run_eq (.unitResetDone 3 n true) s (fun s => unitTestedAt s 3 n true) rfl).trans ?_
    simp [unitTestedAt, Nat.not_le.2 hn, resets, free, testReport, unitTested]
  case channelDone =>
    intro s n hn resets
    refine (run_eq (.unitResetDone 4 n true) s (fun s => unitTestedAt s 4 n true) rfl).trans ?_
    simp [unitTestedAt, Nat.not_le.2 hn, resets, testReport, unitTested]
  case meterDone =>
    intro s n hn resets idle
    refine (run_eq (.unitResetDone 5 n true) s (fun s => unitTestedAt s 5 n true) rfl).trans ?_
    simp [unitTestedAt, Nat.not_le.2 hn, resets, idle, testReport, unitTested]
  case chordDone =>
    intro s c hc resets
    refine (run_eq (.unitResetDone 6 c true) s (fun s => unitTestedAt s 6 c true) rfl).trans ?_
    simp [unitTestedAt, Nat.not_le.2 hc, resets, testReport, unitTested]
  case region =>
    intro s who d q ok hd hq reach first
    refine (run_eq (.regionReset who d q) s (fun s => reachWrite s who d _) (Bool.and_eq_true_iff.2 ⟨ok, decide_eq_true hd⟩)).trans ?_
    rw [regionReset_resets hq reach first]
  case regionDone =>
    intro s r hr
    exact run_eq (.regionResetDone r) s (fun s => s.modRegion r (fun x => { x with inReset := false })) (decide_eq_true hr)
  case lost =>
    intro s d hd reach custody
    refine (run_eq (.resetLost (.steward d)) s (fun s => lostReset s (.steward d)) (decide_eq_true hd)).trans ?_
    rw [lostReset_inCustody s d reach custody]

end Sys2Proof.Machine
end

section
/-! SUPPORT. Proofs about bank faults, protocol engines that fail over, and lane units that fail (R24, R28, R392, R401, R403). -/

namespace Sys2Proof.Machine
open Claims

/-! ### Banks (R24) -/

theorem bankMeasured_disagrees (s : State) (c : Nat) (v : BitVec 2) (inRange : Bool) (up : dieUp s (c / 16) = true)
    (sound : (s.cluster c).bankFault = false) (disagrees : v ≠ (s.cluster c).volts ∨ inRange = false) :
    bankMeasured s c v inRange = bankFails portPw (s.modCluster c (fun x => { x with measured := v })) c := by
  have checked : (dieUp s (c / 16) && !(s.cluster c).bankFault && (v != (s.cluster c).volts || !inRange)) = true := by
    rw [up, sound]
    simpa using disagrees
  simp only [bankMeasured, State.modCluster_cluster, if_pos]
  exact if_pos checked

/-! ### Engines (R28, R392) -/

section
variable {s : State} {c : Nat} (up : dieUp s (c / 16) = true)
include up

theorem engineFault_own (own : (s.cluster c).engine = .own) : engineFault s c = engineFails portPw s c := by
  rw [engineFault, up, own]
  rfl

theorem spareTakeover_failed {q : Nat} (failed : (s.cluster c).engine = .failed) (chosen : spareOf s c = some q) :
    spareTakeover s c = spareTakes portPw s c q := by
  rw [spareTakeover, chosen, up, failed]
  rfl

end

/-- A failed engine of its own cluster, once it is told (R20), gives way to the spare that is chosen; else the cluster's lanes have none. -/
theorem engineFails_own (s : State) (c : Nat) {u : State} (own : (s.cluster c).engine = .own)
    (hu : u = unitError ((s.modCluster c (fun x => { x with engineUnit := .spared })).modRegion (c / 4)
      (fun x => { x with enginesFailed := x.enginesFailed + 1 })) (c / 16) 2 c (laneUsers s (rangeL (12 * c) 12))) :
    (∀ q, spareChoice u (c / 4) = some q → engineFails portPw s c =
      pauseLanes ((u.modRegion q (fun x => { x with spareFor := some c })).modCluster c (fun x => { x with engine := .failed })) c true) ∧
    (spareChoice u (c / 4) = none → engineFails portPw s c =
      lanesLoseEngine portPw (u.modCluster c (fun x => { x with engine := .none, engineUnit := .retired })) c) := by
  rw [engineFails, own]
  simp only [← hu]
  exact ⟨fun q chosen => by rw [chosen], fun taken => by rw [taken]⟩

/-! ### Lane units (R401, R403) -/

section
variable (s : State) (n sent : Nat) (recv : List Byte)

theorem laneUnitFault_works (up : dieUp s (laneDie n) = true) (works : (s.lane n).unit = .inService) :
    laneUnitFault s n sent recv = laneFault portPw s n 0 sent recv := by
  rw [laneUnitFault, up, works]
  rfl

/-- A unit that serves its own lane number gives way to its twin where that stands ready, else the lane is dead. -/
theorem laneFault_own (own : ((twinOf s n).valid && (twinOf s n).shadow && (twinOf s n).failedOver) = false) :
    laneFault portPw s n 0 sent recv =
      if twinReady (unitError s (laneDie n) 1 n (laneUsers s [n])) n then twinTakes portPw (unitError s (laneDie n) 1 n (laneUsers s [n])) n 0
      else laneDies portPw (unitError s (laneDie n) 1 n (laneUsers s [n])) n 0 sent recv := by
  rw [laneFault, own, if_neg Bool.false_ne_true]

end

/-- Settles O34: each command is the run of one operation, whose cases are the equations above. -/
theorem bankEngineAndLaneFaults : Obligations.BankEngineAndLaneFaults := by
  refine ⟨?bank, ?engine, ?spare, ?lane⟩
  case bank =>
    intro s c v inRange t hc up sound disagrees ht
    refine (run_eq (.bankFault c v inRange) s (fun s => bankMeasured s c v inRange) (decide_eq_true hc)).trans ?_
    rw [bankMeasured_disagrees s c v inRange up sound disagrees, ht]
    rfl
  case engine =>
    intro s c u hc up own hu
    have fails : exec (.engineFault c) s = .next (settle s (engineFails portPw s c)) := by
      rw [← engineFault_own up own]
      exact run_eq (.engineFault c) s (fun s => engineFault s c) (decide_eq_true hc)
    obtain ⟨spare, bare⟩ := engineFails_own s c own hu
    exact ⟨fun q chosen => by rw [fails, spare q chosen], fun taken => by rw [fails, bare taken]⟩
  case spare =>
    intro s c q hc up failed chosen
    refine (run_eq (.spareTakeover c) s (fun s => spareTakeover s c) (decide_eq_true hc)).trans ?_
    rw [spareTakeover_failed up failed chosen]
    rfl
  case lane =>
    intro s n sent recv u hn up works own hu
    have fails : exec (.laneUnitFault n sent recv) s = .next (settle s (laneFault portPw s n 0 sent recv)) := by
      rw [← laneUnitFault_works s n sent recv up works]
      exact run_eq (.laneUnitFault n sent recv) s (fun s => laneUnitFault s n sent recv) (decide_eq_true hn)
    rw [laneFault_own s n sent recv own, ← hu] at fails
    exact ⟨fun ready => by rw [fails, if_pos ready], fun alone => by rw [fails, alone, if_neg Bool.false_ne_true]⟩

end Sys2Proof.Machine
end

section
/-! SUPPORT. Proofs about regions and dies that sleep and wake (R242, R311, R459–R464, R486). -/

namespace Sys2Proof.Machine
open Claims

/-! ### Regions sleep (R461) -/

section
variable {s : State} {r : Nat} (up : dieUp s (r / 4) = true) (idle : regionBusy s r = false)
include up idle

theorem regionDozes_due (runs : (s.region r).power = .run) (due : sleepDue s (s.region r).idleSince 0 = true) :
    regionDozes s r = s.modRegion r (fun x => { x with power := .doze, idleSince := s.edges }) :=
  if_pos (by rw [runs, up, idle, due]; rfl)

theorem regionGates_doze (dozes : (s.region r).power = .doze) (due : sleepDue s (s.region r).idleSince 16 = true) :
    regionGates s r = s.modRegion r (fun x => { x with power := .gated }) := by
  rw [regionGates, up, idle, dozes, due]
  rfl

theorem regionGates_gated (gated : (s.region r).power = .gated) (empty : regionMayOff s r = true) :
    regionGates s r = s.modRegion r (fun x => { x with power := .off, cache := [] }) := by
  rw [regionGates, up, idle, gated, empty]
  rfl

end

/-! ### Dies sleep (R242, R311, R462) -/

section
variable {s : State} {d : Nat} (up : dieUp s d = true)
include up

theorem dieDozes_due (runs : (s.die d).power = .run) (asleep : ∀ r ∈ rangeL (4 * d) 4, (s.region r).power ≠ .run)
    (idle : stewardIdle s d = true) (due : sleepDue s (s.die d).idleSince 0 = true) :
    dieDozes s d = s.modDie d (fun x => { x with power := .doze, stewardClock := false, idleSince := s.edges }) := by
  have regions : (rangeL (4 * d) 4).all (fun r => (s.region r).power != .run) = true :=
    List.all_eq_true.2 fun r hr => bne_iff_ne.2 (asleep r hr)
  rw [dieDozes, up, runs, regions, idle, due]
  rfl

theorem dieRests_due (dozes : (s.die d).power = .doze) (allowed : wb s.pkg.sleep (32 + d) = true)
    (gated : ∀ r ∈ rangeL (4 * d) 4, (s.region r).power = .gated ∨ (s.region r).power = .off) (saved : (s.die d).bbx.saving = false)
    (serves : s.pkg.reloading ≠ some d) (unmetered : wb s.pkg.sleep 34 = false ∨ metersOn s d = 0)
    (due : sleepDue s (s.die d).idleSince 16 = true) :
    dieRests s d = meterDomainStops (((s.meters.map Prod.fst).filter (fun m => m / 64 = d)).foldl meterRests
      (s.modDie d (fun x => { x with power := .rest, rested := true }))) d := by
  have regions : (rangeL (4 * d) 4).all (fun r => (s.region r).power = .gated || (s.region r).power = .off) = true :=
    List.all_eq_true.2 fun r hr => by simpa using gated r hr
  have firmware : (s.pkg.reloading != some d) = true := bne_iff_ne.2 serves
  have meters : (wb s.pkg.sleep 34 && metersOn s d != 0) = false := by
    rw [Bool.and_eq_false_iff, bne_eq_false_iff_eq]
    exact unmetered
  rw [dieRests, up, dozes, allowed, regions, saved, firmware, meters, due]
  simp

end

/-! ### Wakes (R460, R462, R486) -/

theorem dieWakes_asked {s : State} {d ticks : Nat} {access : Bool} (up : dieUp s d = true) (asked : (access || dieAsked s d) = true)
    (asleep : (s.die d).power = .doze ∨ (s.die d).power = .rest) (bound : ticks ≤ dieWakeBound (s.die d).power) {t : State}
    (ht : t = wakeSeen (s.modDie d (fun x => { x with
      power := .run, stewardClock := x.boot.state = 2, wakes := x.wakes + 1, idleSince := s.edges, asked := false })) d ticks) :
    dieWakes s d ticks access = if (s.die d).power = .rest then (List.range 10).foldl (fun s t => eventsWake s d t) t else t := by
  have goesOn : (!dieUp s d || !(access || dieAsked s d) || !((s.die d).power = .doze || (s.die d).power = .rest) ||
      dieWakeBound (s.die d).power < ticks) = false := by
    rw [up, asked, decide_eq_false (Nat.not_lt.2 bound)]
    simpa using Or.resolve_left asleep
  rw [dieWakes, goesOn, if_neg Bool.false_ne_true, ← ht]
  rfl

theorem regionWakes_asked {s : State} {r ticks : Nat} {access : Bool} (up : dieUp s (r / 4) = true) (asleep : (s.region r).power ≠ .run)
    (asked : (access || (s.region r).asked || regionBusy s r) = true) (bound : ticks ≤ regionWakeBound (s.region r).power) {u v : State}
    (hu : u = dieWakes s (r / 4) (min ticks (dieWakeBound (s.die (r / 4)).power)) true)
    (hv : v = if (s.region r).power = .off then regionEmptied u r else u) :
    regionWakes s r ticks access = wakeSeen (v.modRegion r (fun x => { x with power := .run, idleSince := v.edges, asked := false })) (r / 4) ticks := by
  have goesOn : (!dieUp s (r / 4) || (s.region r).power = .run || !(access || (s.region r).asked || regionBusy s r) ||
      regionWakeBound (s.region r).power < ticks) = false := by
    simp only [up, asleep, asked, Nat.not_lt.2 bound]
    rfl
  rw [regionWakes, goesOn, if_neg Bool.false_ne_true, ← hu]
  simp only [← hv]

/-- Settles O43: each command is the run of one operation, whose conditions are those stated. OFF comes from GATED and finds the memories empty
on waking (logs 37, 38), and a wake longer than its bound is none (log 57). -/
theorem regionsAndDiesSleepAndWake : Obligations.RegionsAndDiesSleepAndWake := by
  refine ⟨?doze, ?gate, ?dieDoze, ?rest, ?dieWake, ?regionWake⟩
  case doze =>
    intro s r hr runs up idle due
    refine (run_eq (.regionDozeEntry r) s (fun s => regionDozes s r) (decide_eq_true hr)).trans ?_
    rw [regionDozes_due up idle runs due]
  case gate =>
    intro s r hr up idle
    have gates : exec (.regionGateEntry r) s = .next (settle s (regionGates s r)) :=
      run_eq (.regionGateEntry r) s (fun s => regionGates s r) (decide_eq_true hr)
    exact ⟨fun dozes due => by rw [gates, regionGates_doze up idle dozes due],
      fun gated empty => by rw [gates, regionGates_gated up idle gated empty]⟩
  case dieDoze =>
    intro s d hd up runs asleep idle due
    refine (run_eq (.dieDozeEntry d) s (fun s => dieDozes s d) (decide_eq_true hd)).trans ?_
    rw [dieDozes_due up runs asleep idle due]
  case rest =>
    intro s d t hd up dozes allowed gated saved serves unmetered due ht
    refine (run_eq (.dieRestEntry d) s (fun s => dieRests s d) (decide_eq_true hd)).trans ?_
    rw [dieRests_due up dozes allowed gated saved serves unmetered due, ht]
  case dieWake =>
    intro s d ticks access t hd up asked asleep bound ht
    refine (run_eq (.wakeComplete (.die d) ticks access) s (fun s => dieWakes s d ticks access) (decide_eq_true hd)).trans ?_
    rw [dieWakes_asked up asked asleep bound ht]
  case regionWake =>
    intro s r ticks access u v hr up asleep asked bound hu hv
    refine (run_eq (.wakeComplete (.region r) ticks access) s (fun s => regionWakes s r ticks access) (decide_eq_true hr)).trans ?_
    rw [regionWakes_asked up asleep asked bound hu hv]

end Sys2Proof.Machine
end

section
/-! SUPPORT. Proofs about LINK-CONFIG (R440, R451, R454) and TWIN-CONFIG (R37, R398). -/

namespace Sys2Proof.Machine
open Claims

/-! ### LINK-CONFIG (R440, R451, R454) -/

/-- The run of a LINK-CONFIG of ACTION `k`. -/
theorem run_serve_isLink {s : State} {src : EntrySrc} {r : Req} {k pmask : Nat} {stream : Bool} (asks : LinkAsks s src r k pmask stream)
    (i : Instr) (act : State → Req → State) (hw : i.wf = src.ok) :
    run i s (fun s => serve s src (isLink k) (linkAct k pmask stream act)) = .next (settle s (act s r)) := by
  obtain ⟨⟨opcode, fields, right⟩, action⟩ := asks
  have mine : isLink k r = true := by simp [isLink, isOp, opcode.2.2.1, action]
  rw [run_serve opcode i _ _ hw mine, linkAct, accepts_acts s r _ (by simp [fields, action]) right]

section
variable {s : State} {r : Req}

/-- Every entry that is no fault is applied, in order. -/
theorem linkAliasAct_sets {u : State} {bs : List Byte} (some_ : par r 8 8 ≠ 0) (most : par r 8 8 ≤ 128)
    (read : streamOf s r (4 * par r 8 8) = (.inr bs, u)) (whole : 4 * par r 8 8 ≤ bs.length)
    (good : (aliasEntries (par r 8 8) bs).all (aliasOk u) = true) {t : State} (ht : t = (aliasEntries (par r 8 8) bs).foldl aliasSet u) :
    linkAliasAct s r = replyWith t r ccSuccess 0
      [w8 ((aliasEntries (par r 8 8) bs).filter (fun e => (tget {} t.pkg.aliases (u8 e 0)).live)).length] := by
  have number : ¬((decide (par r 8 8 = 0) || decide (128 < par r 8 8)) = true) := by simp [some_, Nat.not_lt.2 most]
  have entries : ¬((decide (bs.length < 4 * par r 8 8) || !(aliasEntries (par r 8 8) bs).all (aliasOk u)) = true) := by
    simp [Nat.not_lt.2 whole, good]
  rw [linkAliasAct, if_neg number, read]
  simp only
  rw [if_neg entries, ← ht]

/-- The stand-in hands back on the port of the apex that stands off. -/
theorem linkHandbackAct_handsBack {p : Nat} (standoff : standoffPort s = some p) (acting : s.pkg.acting = true) :
    linkHandbackAct s r = reply (retree portPw ((s.modPort p (fun x => portItem x (.handback s.pkg.sysId))).modPkg
      (fun k => { k with acting := false, path := false }))) r ccSuccess := by
  rw [linkHandbackAct, standoff]
  simp only [acting]
  rfl

end

/-! ### TWIN-CONFIG (R37, R398) -/

section
variable {s : State} {src : EntrySrc} {r : Req} {l t : Nat}

/-- The lanes of the request are two lanes of different dies that are there. -/
theorem lanesNamed_of_twinAsks {pmask : Nat} (asks : TwinAsks s src r pmask l t) :
    (noLane s l || noLane s t || decide (laneDie l = laneDie t)) = false := by
  obtain ⟨-, -, -, primary, twin, apart, -⟩ := asks
  rw [primary, twin, decide_eq_false apart]
  rfl

theorem twinConfigAct_pairs (asks : TwinAsks s src r 0x3FFFF l t) (good : twinBad s l t = false) :
    twinConfigAct s r = reply (twinSet s l t) r ccSuccess := by
  have lanes := lanesNamed_of_twinAsks asks
  obtain ⟨⟨-, fields, right⟩, rfl, rfl, -, -, -, now⟩ := asks
  rw [twinConfigAct, accepts_acts s r _ fields right]
  simp only [lanes, good, now, Bool.false_eq_true, if_false]

theorem untwinAct_dissolves (asks : TwinAsks s src r 0x8003FFFF l t) (valid : (twinOf s l).valid = true) (primary : (twinOf s l).shadow = false)
    (other : (twinOf s l).other = t) (stands : (twinOf s l).failedOver = false) (own : isPartner s l = false) :
    untwinAct s r = reply (twinCleared s l) r ccSuccess := by
  have lanes := lanesNamed_of_twinAsks asks
  obtain ⟨⟨-, fields, right⟩, rfl, rfl, -, -, -, now⟩ := asks
  rw [untwinAct, accepts_acts s r _ fields right]
  simp only [lanes, valid, primary, other, stands, own, now, Bool.not_true, bne_self_eq_false, Bool.or_self, Bool.false_eq_true, if_false]

/-- The run of a TWIN-CONFIG, or of its UNTWIN. -/
theorem run_serve_isTwin {pmask : Nat} (asks : TwinAsks s src r pmask l t) (i : Instr) (un : Bool) (act : State → Req → State) (hw : i.wf = src.ok)
    (which : decide (par r 31 1 = 1) = un) : run i s (fun s => serve s src (isTwin un) act) = .next (settle s (act s r)) := by
  obtain ⟨⟨opcode, -⟩, -⟩ := asks
  exact run_serve opcode i _ act hw (by simp [isTwin, isOp, opcode.2.2.1, ← which])

end

/-- Settles O18: each action that passes its checks is one operation and its completion. PORTS leaves the ports of a lost half, RESULT of ALIAS
counts the live entries of the list (log 43), and UNTWIN names the pair by both lanes (log 31). -/
theorem linksAndTwinsAreConfigured : Obligations.LinksAndTwinsAreConfigured := by
  refine ⟨?status, ?ports, ?alias_, ?handback, ?twin, ?untwin⟩
  case status =>
    intro s src r asks
    exact run_serve_isLink asks (.linkStatus src) linkStatusAct rfl
  case ports =>
    intro s src r asks now t ht
    refine (run_serve_isLink asks (.linkPorts src) linkPortsAct rfl).trans ?_
    rw [linkPortsAct, now, if_neg Bool.false_ne_true, ← ht]
  case alias_ =>
    intro s u src r bs asks some_ most read whole good t ht
    refine (run_serve_isLink asks (.linkAlias src) linkAliasAct rfl).trans ?_
    rw [linkAliasAct_sets some_ most read whole good ht]
  case handback =>
    intro s src r p asks standoff acting
    refine (run_serve_isLink asks (.linkHandback src) linkHandbackAct rfl).trans ?_
    rw [linkHandbackAct_handsBack standoff acting]
  case twin =>
    intro s src r l t asks good
    have ⟨⟨_, fields, _⟩, _⟩ := asks
    have pairs : decide (par r 31 1 = 1) = false := by rw [par_eq_zero_of_fieldsOk fields (by decide)]; rfl
    refine (run_serve_isTwin asks (.twinConfig src) false twinConfigAct rfl pairs).trans ?_
    rw [twinConfigAct_pairs asks good]
  case untwin =>
    intro s src r l t asks un valid primary other stands own
    refine (run_serve_isTwin asks (.untwin src) true untwinAct rfl (decide_eq_true un)).trans ?_
    rw [untwinAct_dissolves asks valid primary other stands own]

end Sys2Proof.Machine
end

section
/-! SUPPORT. Proofs about START, RESUME and HALT-PROGRAM (R22, R119, R136, R137, R141, R142, R280, R281, R405). -/

namespace Sys2Proof.Machine
open Claims

/-! ### A request and its source (R272) -/

/-- The request that takes effect next at a source is one of that source. -/
theorem nextReq_src {s : State} {src : EntrySrc} {r : Req} (next : nextReq s src = some r) : r.src = src := by
  cases src with
  | queue f q => grind [nextReq]
  | mailbox f => grind [nextReq]
  | policy d c => grind [nextReq]

theorem tookEffect_slots (s : State) (r : Req) : (tookEffect s r).slots = s.slots := by
  unfold tookEffect
  split
  · rfl
  · rfl
  · exact State.modDie_slots ..

theorem tookEffect_slot (s : State) (r : Req) (n : Nat) : (tookEffect s r).slot n = s.slot n := by
  rw [State.slot, tookEffect_slots]
  rfl

/-! ### START (R22, R119, R141, R142, R280, R281) -/

/-- Program `g` takes the slot available to it in cluster `c`, or joins its list once its QUEUED status is written; `refused` is what follows a
status write that is refused (R121). -/
def placedOn (refused : Fail → State → State) (s : State) (c : Nat) (g : Prog) : State :=
  match startSlot s c with
  | some (n, adopted) => takeSlot portPw s n g adopted
  | none => match statusWrite portPw s (progParty c g) (progSlot g) 1 with
    | (none, s) => joinList s c g
    | (some f, s) => refused f s

theorem placedOn_slot {refused : Fail → State → State} {s : State} {c k : Nat} {g : Prog} {a : Bool} (slot : startSlot s c = some (k, a)) :
    placedOn refused s c g = takeSlot portPw s k g a := by
  rw [placedOn, slot]

theorem placedOn_list {refused : Fail → State → State} {s u : State} {c : Nat} {g : Prog} (full : startSlot s c = none)
    (queued : statusWrite portPw s (progParty c g) (progSlot g) 1 = (none, u)) : placedOn refused s c g = joinList u c g := by
  rw [placedOn, full]
  simp only [queued]

/-- A START is placed once it has its GEN and its tag is in quarantine (R141, R142). -/
theorem startPlaced_eq (s : State) (r : Req) (c chain : Nat) (body : Option Nat) :
    ∃ refused, startPlaced s r c chain body = placedOn refused (startTagged s r) c (startProg s r (w64 chain) body) := ⟨_, rfl⟩

section
variable {s : State} {src : EntrySrc} {r : Req} {c : Nat} (ok : StartOk s src r c)
include ok

/-- A START that passes its checks, and whose chain lies in host memory or on chip, is placed. -/
theorem startAct_chain (chain : eA r.bytes ≠ 0) (onPackage : ∀ d k, src = .policy d k → onChip (eA r.bytes) = true) :
    startAct s r = startPlaced s r c (eA r.bytes) none := by
  obtain ⟨⟨-, next, -⟩, rfl, fields, status, fresh, now, room⟩ := ok
  have source := nextReq_src next
  unfold tagOf at fresh
  cases src with
  | policy d k => simp [startAct, source, fields, status, fresh, now, Nat.not_le.2 room, chain, onPackage d k rfl]
  | _ => simp [startAct, source, fields, status, fresh, now, Nat.not_le.2 room, chain]

/-- One with a body is placed with its body's chain in a tile of the home region. -/
theorem startAct_body {t : Nat} (chain : eA r.bytes = 0) (variable_ : r.variable_ = true) (body : 2 ≤ eLen r.bytes)
    (host : ∀ d k, src ≠ .policy d k) (tile : bodyTile s (c / 4) = some t) :
    startAct s r = startPlaced (bodyCopied s t r.body) r c (tileAddr t) (some t) := by
  obtain ⟨⟨-, next, -⟩, rfl, fields, status, fresh, now, room⟩ := ok
  have source := nextReq_src next
  unfold tagOf at fresh
  cases src with
  | policy d k => exact absurd rfl (host d k)
  | _ => simp [startAct, source, fields, status, fresh, now, Nat.not_le.2 room, chain, variable_, Nat.not_lt.2 body, tile]

end

/-! ### RESUME and HALT-PROGRAM (R136–R138) -/

section
variable {s : State} {r : Req} {n : Nat} (fields : fieldsOk r 0 false false false 32 32 = true) (tagged : tagSlot s r.fn (tagOf r) = some n)
  (now : mustWait s r (slotServer s n / 16) = false)
include fields tagged now

theorem resumeAct_resumes (suspended : (s.slot n).st = .suspended) : resumeAct s r = reply (resumeSlot s n) r ccSuccess := by
  unfold tagOf at tagged
  simp [resumeAct, fields, tagged, now, suspended]

theorem haltProgramAct_slot : haltProgramAct s r = haltSlot portPw (tookEffect s r) n haltProgramReason := by
  unfold tagOf at tagged
  simp [haltProgramAct, fields, tagged, now]

end

theorem haltProgramAct_queued {s : State} {r : Req} {c : Nat} (fields : fieldsOk r 0 false false false 32 32 = true)
    (slot : tagSlot s r.fn (tagOf r) = none) (queued : tagQueued s r.fn (tagOf r) = some c) :
    haltProgramAct s r = queuedHalted portPw (tookEffect s r) (fun _ g => isProg r.fn (tagOf r) g) haltProgramReason := by
  unfold tagOf at slot queued ⊢
  simp [haltProgramAct, fields, slot, queued]

section
variable {s : State} {n : Nat} {reason : Byte} (goesOn : (s.slot n).ended = none)
include goesOn

/-- A program that stands at a boundary ends at once, with the REASON of its first halt request. -/
theorem haltSlot_stands (up : dieUp s (slotServer s n / 16) = true) (held : (s.slot n).st ≠ .free) (stands : (s.slot n).st ≠ .active) :
    haltSlot portPw s n reason = haltEnd portPw s n ((s.slot n).halt.getD reason) (s.slot n).ccw := by
  simp [haltSlot, held, goesOn, up, stands]

theorem haltSlot_between (up : dieUp s (slotServer s n / 16) = true) (active : (s.slot n).st = .active) (between : (s.slot n).exec = none)
    (honour : (s.slot n).honour = true) :
    haltSlot portPw s n reason = haltEnd portPw s n ((s.slot n).halt.getD reason) (s.slot n).last := by
  simp [haltSlot, goesOn, up, active, between, honour]

/-- One that executes a command ends with it. -/
theorem haltSlot_executes (active : (s.slot n).st = .active) (executes : (s.slot n).exec ≠ none) :
    haltSlot portPw s n reason = s.modSlot n (fun x => { x with halt := some ((s.slot n).halt.getD reason) }) := by
  simp [haltSlot, goesOn, active, Option.isSome_iff_ne_none.2 executes]

end

/-- Settles O9: a START that passes its checks is placed; the other clauses are the cases of RESUME and HALT-PROGRAM. -/
theorem programsStartResumeAndHalt : Obligations.ProgramsStartResumeAndHalt := by
  refine ⟨?chain, ?body, ?resume, ?haltSlot, ?haltQueued⟩
  case chain =>
    intro s u src r c ok chain onPackage
    have starts : exec (.start src) s = .next (settle s (startAct s r)) := run_serve_isOp ok.1 (.start src) startAct rfl
    obtain ⟨refused, placed⟩ := startPlaced_eq s r c (eA r.bytes) none
    rw [startAct_chain ok chain onPackage, placed] at starts
    exact ⟨fun k a slot => by rw [starts, placedOn_slot slot], fun full queued => by rw [starts, placedOn_list full queued]⟩
  case body =>
    intro s u src r c t v ok chain variable_ body host tile hv
    have starts : exec (.start src) s = .next (settle s (startAct s r)) := run_serve_isOp ok.1 (.start src) startAct rfl
    obtain ⟨refused, placed⟩ := startPlaced_eq v r c (tileAddr t) (some t)
    rw [startAct_body ok chain variable_ body host tile, ← hv, placed] at starts
    exact ⟨fun k a slot => by rw [starts, placedOn_slot slot], fun full queued => by rw [starts, placedOn_list full queued]⟩
  case resume =>
    intro s src r n asks fields tagged now suspended
    refine (run_serve_isOp asks (.resume src) resumeAct rfl).trans ?_
    rw [resumeAct_resumes fields tagged now suspended]
    rfl
  case haltSlot =>
    intro s src r n asks fields tagged now held goesOn up
    have halts : exec (.haltProgram src) s = .next (settle s (haltProgramAct s r)) := run_serve_isOp asks (.haltProgram src) haltProgramAct rfl
    rw [haltProgramAct_slot fields tagged now] at halts
    rw [← tookEffect_slot s r n] at held goesOn ⊢
    refine ⟨fun stands => ?_, fun active between honour => ?_, fun active executes first => ?_⟩
    · rw [halts, haltSlot_stands goesOn up held stands]
    · rw [halts, haltSlot_between goesOn up active between honour]
    · rw [halts, haltSlot_executes goesOn active executes, first]
      rfl
  case haltQueued =>
    intro s src r c asks fields slot queued
    refine (run_serve_isOp asks (.haltProgram src) haltProgramAct rfl).trans ?_
    rw [haltProgramAct_queued fields slot queued]

end Sys2Proof.Machine
end

section
/-! SUPPORT. Proofs about programs that take slots from their lists, and about commands and results in flight (R22, R43, R124, R140, R143, R163,
R338, R406). -/

namespace Sys2Proof.Machine
open Claims

/-! ### Admission (R22, R124, R406) -/

section
variable {s : State} {c : Nat}

/-- The commands of a cluster whose sequencer runs. -/
theorem exec_programAdmit (adopted : Bool) (hc : c < 32) (runs : clusterRuns s c = true) :
    exec (.programAdmit c adopted) s = .next (settle s (if adopted then admitAdopted s c else admitOwn s c)) := by
  refine (run_eq (.programAdmit c adopted) s (fun s => if !clusterRuns s c then s else if adopted then admitAdopted s c else admitOwn s c)
    (decide_eq_true hc)).trans ?_
  rw [runs]
  rfl

theorem admitOwn_chain {e : ChainStart} {es : List ChainStart} {n : Nat} (first : (s.cluster c).chords = e :: es) (slot : freeSlot s c = some n) :
    admitOwn s c = takeChain portPw (s.modCluster c (fun x => { x with chords := es })) n e := by
  rw [admitOwn, first]
  simp only [slot]

theorem admitOwn_program {g : Prog} {gs : List Prog} {n : Nat} (none : (s.cluster c).chords = []) (first : (s.cluster c).admits = g :: gs)
    (slot : freeSlot s c = some n) (room : reserveOf s c < freeSlots s c) :
    admitOwn s c = takeSlot portPw (s.modCluster c (fun x => { x with admits := gs })) n g false := by
  rw [admitOwn, none]
  simp only [first, slot, room, if_true]

theorem admitAdopted_program {l n : Nat} {g : Prog} {gs : List Prog} (adopts : (s.cluster c).adopts = some l)
    (first : (s.cluster c).lostAdmit = g :: gs) (slot : freeSlot s l = some n) (room : reserveOf s c < freeSlots s l) :
    admitAdopted s c = takeSlot portPw (s.modCluster c (fun x => { x with lostAdmit := gs })) n g true := by
  rw [admitAdopted, adopts]
  simp only [first, slot, room, if_true]

end

/-- A program with no status block and no halt request begins in its slot, and writes nothing (R119). -/
theorem takeSlot_quiet (pw : PortWriter) (s : State) (n : Nat) (g : Prog) (noStatus : g.status = 0) (noHalt : g.halt = none) :
    takeSlot pw s n g false = s.modSlot n (fun x => {
      unit := x.unit, st := .active, owner := g.owner, fn := g.fn, tag := g.tag, gen := g.gen, pc := g.chain, body := g.body, enforce := g.enforce }) := by
  simp [takeSlot, interim, statusWrite, noStatus, noHalt]

/-- What only a cold reset may change is neither a cluster's nor a slot's. -/
theorem settle_modCluster_modSlot (s : State) (c n : Nat) (f : Cluster → Cluster) (g : Slot → Slot) :
    settle s ((s.modCluster c f).modSlot n g) = (s.modCluster c f).modSlot n g :=
  settle_eq s _ rfl rfl rfl rfl rfl rfl rfl rfl rfl

theorem modCluster_modSlot_cluster (s : State) (c n k : Nat) (f : Cluster → Cluster) (g : Slot → Slot) :
    ((s.modCluster c f).modSlot n g).cluster k = if k = c then f (s.cluster c) else s.cluster k :=
  State.modCluster_cluster s c k f

/-! ### Commands and results in flight (R43, R140, R143, R163, R338) -/

theorem takeForwarded_arrives {s : State} {c : Nat} {e : Forwarded} {es : List Forwarded} (first : (s.cluster c).inbound = e :: es)
    (served : laneServed s e.lane = true)
    (credit : npCmd s (slotServer s e.cmd.user.slot / 16) e.lane e.cmd = false ∨ npFree s (slotServer s e.cmd.user.slot / 16) = true) :
    takeForwarded s c = laneDone portPw (laneArrive (s.modCluster c (fun x => { x with inbound := es })) e.lane e.cmd) e.lane := by
  have free : (npCmd s (slotServer s e.cmd.user.slot / 16) e.lane e.cmd && !npFree s (slotServer s e.cmd.user.slot / 16)) = false := by
    rw [Bool.and_eq_false_iff, Bool.not_eq_false']
    exact credit
  rw [takeForwarded, first]
  simp only [free, served, Bool.false_eq_true, if_false, if_true]

theorem takeResult_arrives {s t : State} {n : Nat} {r : ResultMsg} (first : s.results.find? (fun r => r.slot = n) = some r)
    (up : dieUp s (slotServer s n / 16) = true) (ht : t = { s with results := s.results.erase r }) :
    takeResult s n = if slotMatches t { device := 0, slot := n, fn := r.fn, tag := r.tag, gen := r.gen } then memberEnds portPw t n r.res
      else countStale t (slotServer t n) := by
  rw [takeResult, first]
  simp only [up, ← ht]
  rfl

/-- Settles O7: admission takes the lists' first entry; what is in flight arrives at its lane, or at the slot that still holds its program. -/
theorem programsAndForwardedCommands : Obligations.ProgramsAndForwardedCommands := by
  refine ⟨?chain, ?program, ?adopted, ?command, ?result⟩
  case chain =>
    intro s c n e es hc runs first slot
    refine (exec_programAdmit false hc runs).trans ?_
    rw [← admitOwn_chain first slot]
    rfl
  case program =>
    intro s c n g gs hc runs chains first slot room
    have admits := exec_programAdmit false hc runs
    rw [if_neg Bool.false_ne_true, admitOwn_program chains first slot room] at admits
    refine ⟨admits, fun noStatus noHalt => ?_⟩
    rw [takeSlot_quiet portPw _ n g noStatus noHalt, settle_modCluster_modSlot] at admits
    refine ⟨_, admits, rfl, fun k other => ?_, ?_, fun m other => ?_, ?_⟩
    · rw [modCluster_modSlot_cluster, if_neg other]
    · rw [modCluster_modSlot_cluster, if_pos rfl]
    · exact (State.modSlot_slot _ n m _).trans (if_neg other)
    · exact (State.modSlot_slot _ n n _).trans (if_pos rfl)
  case adopted =>
    intro s c l n g gs hc runs adopts first slot room
    refine (exec_programAdmit true hc runs).trans ?_
    rw [if_pos rfl, admitAdopted_program adopts first slot room]
  case command =>
    intro s c e es hc first served credit
    refine (run_eq (.forwardedCommand c) s (fun s => takeForwarded s c) (decide_eq_true hc)).trans ?_
    rw [takeForwarded_arrives first served credit]
  case result =>
    intro s n r t hn first up ht
    have arrives : exec (.forwardedResult n) s = .next (settle s (takeResult s n)) :=
      run_eq (.forwardedResult n) s (fun s => takeResult s n) (decide_eq_true hn)
    rw [takeResult_arrives first up ht] at arrives
    exact ⟨fun same => by rw [arrives, if_pos same], fun other => by rw [arrives, other, if_neg Bool.false_ne_true]⟩

end Sys2Proof.Machine
end

section
/-! SUPPORT. Proofs about what the device reports: notices, shared sources, violations, black-box records and lane errors change nothing but the
reports (R20, R73, R295–R298, R417). -/

namespace Sys2Proof.Machine

/-! ### Targets alone (R295, R298) -/

/-- The states differ in the event targets alone. -/
def OnlyTargets (s t : State) : Prop := t = { s with targets := t.targets }

theorem OnlyTargets.refl (s : State) : OnlyTargets s s := rfl

theorem OnlyTargets.trans {s t u : State} (h : OnlyTargets s t) (k : OnlyTargets t u) : OnlyTargets s u := by
  unfold OnlyTargets at *
  rw [k, h]

theorem OnlyTargets.ite {s t u : State} (p : Prop) [Decidable p] (ht : OnlyTargets s t) (hu : OnlyTargets s u) : OnlyTargets s (if p then t else u) := by
  split
  · exact ht
  · exact hu

theorem raisePulse_onlyTargets (s : State) (t src : Nat) (kind : BitVec 5) (data : Nat) : OnlyTargets s (raisePulse s t src kind data) :=
  .ite _ (.refl s) rfl

theorem raiseNotice_onlyTargets (s : State) (t src data : Nat) : OnlyTargets s (raiseNotice s t src data) := .ite _ (.refl s) rfl

theorem raiseNotice_target (s : State) (t src data u : Nat) (other : u ≠ t) : (raiseNotice s t src data).target u = s.target u := by
  simp only [raiseNotice]
  split
  · rfl
  · rw [State.modTarget_target, if_neg other]

/-- The functions that use a unit are told in turn, then the steward of its die (R20). -/
theorem unitError_onlyTargets (s : State) (d utype unit : Nat) (fs : List Nat) : OnlyTargets s (unitError s d utype unit fs) := by
  have told (data : Nat) : OnlyTargets s (fs.foldl (fun s f => raiseNotice s f 130 data) s) := by
    induction fs generalizing s with
    | nil => exact .refl s
    | cons f fs ih => exact (raiseNotice_onlyTargets ..).trans (ih _)
  exact (told _).trans (raiseNotice_onlyTargets ..)

/-! ### Shared sources and their targets (R296, R297) -/

/-- The states differ in the event targets and the shared sources alone. -/
def OnlySources (s t : State) : Prop := t = { s with targets := t.targets, shared := t.shared }

theorem OnlySources.refl (s : State) : OnlySources s s := rfl

theorem OnlySources.ite {s t u : State} (p : Prop) [Decidable p] (ht : OnlySources s t) (hu : OnlySources s u) : OnlySources s (if p then t else u) := by
  split
  · exact ht
  · exact hu

theorem pendShared_onlySources (s : State) (n : Nat) (kind : BitVec 5) (data : Nat) : OnlySources s (pendShared s n kind data) := by
  unfold pendShared
  refine .ite _ (.refl s) ?_
  split <;> rfl

theorem pendShared_source (s : State) (n : Nat) (kind : BitVec 5) (data m : Nat) (other : m ≠ n) :
    (pendShared s n kind data).source m = s.source m := by
  simp only [pendShared]
  split
  · rfl
  · simp only [State.modSource_source, if_neg other]
    split <;> rfl

theorem sourceEdge_onlySources (s : State) (n : Nat) (lvl : Bool) : OnlySources s (sourceEdge s n lvl) := by
  have sampled : OnlySources s (sampleLevel s n) := .ite _ (pendShared_onlySources ..) (.refl s)
  exact .ite _ (.ite _ sampled (.refl s)) (.ite _ (pendShared_onlySources ..) (.ite _ (pendShared_onlySources ..) (.refl s)))

/-! ### The dies' own logs, and the reports that follow (R73, R417) -/

/-- The states differ in the dies, the event targets and the shared sources alone. -/
def OnlyReports (s t : State) : Prop := t = { s with die0 := t.die0, die1 := t.die1, targets := t.targets, shared := t.shared }

theorem OnlyReports.trans {s t u : State} (h : OnlyReports s t) (k : OnlyReports t u) : OnlyReports s u := by
  unfold OnlyReports at *
  rw [k, h]

theorem OnlyReports.ite {s t u : State} (p : Prop) [Decidable p] (ht : OnlyReports s t) (hu : OnlyReports s u) : OnlyReports s (if p then t else u) := by
  split
  · exact ht
  · exact hu

theorem OnlyReports.refl (s : State) : OnlyReports s s := rfl

theorem OnlyTargets.onlyReports {s t : State} (h : OnlyTargets s t) : OnlyReports s t := by
  unfold OnlyTargets at h
  rw [h]
  rfl

theorem OnlySources.onlyReports {s t : State} (h : OnlySources s t) : OnlyReports s t := by
  unfold OnlySources at h
  rw [h]
  rfl

theorem OnlyReports.modDie (s : State) (d : Nat) (f : Die → Die) : OnlyReports s (s.modDie d f) := by
  unfold State.modDie State.setDie
  exact .ite _ rfl rfl

theorem violate_onlyReports (s : State) (d kind : Nat) (who : Who) (addr data detail : Nat) : OnlyReports s (violate s d kind who addr data detail) := by
  have offender (t : State) (data : Nat) : OnlyReports t (match who with | .fn f => raiseNotice t f 129 data | _ => t) := by
    split
    · exact (raiseNotice_onlyTargets ..).onlyReports
    · exact .refl t
  exact ((OnlyReports.modDie ..).trans (offender _ _)).trans (pendShared_onlySources ..).onlyReports

theorem bbxFreezeBox_onlyReports (s : State) (d : Nat) (cause : BitVec 3) : OnlyReports s (bbxFreezeBox s d cause) :=
  .ite _ (.refl s) (.ite _ (.modDie ..) ((OnlyReports.modDie ..).trans (sourceEdge_onlySources ..).onlyReports))

theorem bbxRecordAt_onlyReports (s : State) (d kind : Nat) (fatal : Bool) (arg : Nat) (detail : List Byte) (time : DWord) :
    OnlyReports s (bbxRecordAt s d kind fatal arg detail time) :=
  .ite _ (.modDie ..) (.ite _ ((OnlyReports.modDie ..).trans (bbxFreezeBox_onlyReports ..)) (.modDie ..))

/-- A frozen box counts the record and keeps its own (R419). -/
theorem bbxRecordAt_frozen (s : State) (d kind : Nat) (fatal : Bool) (arg : Nat) (detail : List Byte) (time : DWord)
    (frozen : (s.die d).bbx.frozen = true) :
    bbxRecordAt s d kind fatal arg detail time = s.modDie d (fun x => { x with bbx := { x.bbx with dropped := sat x.bbx.dropped } }) := by
  rw [bbxRecordAt, frozen]
  rfl

/-! ### Lane errors (R171, R177) -/

/-- The bits join LANE_ERR, and the owner's target hears of those that are new. -/
theorem setLaneErr_sets (s : State) (n bits : Nat) (ibi : Bool) :
    OnlyTargets (s.modLane n (fun l => { l with err := l.err ||| w32 bits })) (setLaneErr s n bits ibi) :=
  .ite _ (.refl _) (raiseNotice_onlyTargets ..)

theorem OnlyTargets.lane {s t : State} (h : OnlyTargets s t) (n : Nat) : t.lane n = s.lane n := by
  unfold OnlyTargets at h
  rw [h]
  rfl

/-- Settles O56: each report is made of changes of targets, of shared sources and of the die's own log. -/
theorem reportsChangeOnlyReports : Obligations.ReportsChangeOnlyReports := by
  refine ⟨fun s t src k data => ⟨raisePulse_onlyTargets s t src k data, raiseNotice_onlyTargets s t src data, raiseNotice_target s t src data⟩,
    fun s n k data => ⟨pendShared_onlySources s n k data, pendShared_source s n k data⟩, unitError_onlyTargets, violate_onlyReports, ?box, ?lane⟩
  case box =>
    intro s d k f a x time
    refine ⟨bbxRecordAt_onlyReports s d k f a x time, fun frozen hd e he => ?_⟩
    rw [bbxRecordAt_frozen s d k f a x time frozen, State.modDie_die]
    split
    · next same =>
      have half := iff_of_eq same
      rw [show e = d by omega]
    · rfl
  case lane =>
    intro s n bits ibi
    have told := setLaneErr_sets s n bits ibi
    refine ⟨?_, ?_, fun m other => ?_⟩
    · unfold OnlyTargets at told
      rw [told]
      rfl
    · rw [told.lane, State.modLane_lane, if_pos rfl]
    · rw [told.lane, State.modLane_lane, if_neg other]

end Sys2Proof.Machine
end

section
/-! SUPPORT. What the reports, the vertex fabric and the faults of a machine in which nothing runs leave as it was (R17, R73, R197, R417). -/

namespace Sys2Proof.Machine

/-! ### What faults leave -/

/-- What no report, no vertex and no failed unit changes: straps, custody, the dies' OTP, queues, host memory and the pilot counter. -/
structure ColdPart where
  sysId : BitVec 5
  standby : Bool
  tiebreak : Bool
  custody : Nat
  split : Bool
  otp0 : Otp
  otp1 : Otp
  queues : Tab Queue
  hostMem : List Host.Cell
  pilot : DWord

def coldPart (s : State) : ColdPart :=
  { sysId := s.pkg.sysId, standby := s.pkg.standby, tiebreak := s.pkg.tiebreak, custody := s.pkg.custody, split := s.pkg.split
    otp0 := s.die0.otp, otp1 := s.die1.otp, queues := s.queues, hostMem := s.hostMem, pilot := s.pilot }

/-- The state `t` has that of `s`, and its lanes and slots. -/
structure KeepsCold (s t : State) : Prop where
  part : coldPart t = coldPart s
  lanes : t.lanes = s.lanes
  slots : t.slots = s.slots

namespace KeepsCold

theorem refl (s : State) : KeepsCold s s := ⟨rfl, rfl, rfl⟩

theorem trans {s t u : State} (h : KeepsCold s t) (k : KeepsCold t u) : KeepsCold s u :=
  ⟨k.part.trans h.part, k.lanes.trans h.lanes, k.slots.trans h.slots⟩

theorem ite {s t u : State} (p : Prop) [Decidable p] (ht : KeepsCold s t) (hu : KeepsCold s u) : KeepsCold s (if p then t else u) := by
  split
  · exact ht
  · exact hu

theorem foldl {α : Type} {f : State → α → State} (step : ∀ s a, KeepsCold s (f s a)) (l : List α) (s : State) : KeepsCold s (l.foldl f s) := by
  induction l generalizing s with
  | nil => exact refl s
  | cons a l ih => exact (step s a).trans (ih _)

theorem modDie (s : State) (d : Nat) {f : Die → Die} (otp : ∀ x, (f x).otp = x.otp := by intro; rfl) : KeepsCold s (s.modDie d f) := by
  unfold State.modDie State.setDie State.die
  split <;> exact ⟨by simp [coldPart, otp], rfl, rfl⟩

theorem modChord (s : State) (c : Nat) (f : Chord → Chord) : KeepsCold s (s.modChord c f) := ⟨rfl, rfl, rfl⟩

theorem of_onlySources {s t : State} (h : OnlySources s t) : KeepsCold s t := by
  unfold OnlySources at h
  rw [h]
  exact ⟨rfl, rfl, rfl⟩

theorem of_onlyTargets {s t : State} (h : OnlyTargets s t) : KeepsCold s t := by
  unfold OnlyTargets at h
  rw [h]
  exact ⟨rfl, rfl, rfl⟩

end KeepsCold

/-! ### Reports (R73, R417) -/

theorem sourceEdge_keepsCold (s : State) (n : Nat) (lvl : Bool) : KeepsCold s (sourceEdge s n lvl) := .of_onlySources (sourceEdge_onlySources ..)

theorem violate_keepsCold (s : State) (d kind : Nat) (who : Who) (addr data detail : Nat) : KeepsCold s (violate s d kind who addr data detail) := by
  unfold violate
  extract_lets i rec' logged told
  have log : KeepsCold s logged := .modDie ..
  have notice : KeepsCold logged told := by
    unfold told
    split
    · exact .of_onlyTargets (raiseNotice_onlyTargets ..)
    · exact .refl logged
  exact (log.trans notice).trans (.of_onlySources (pendShared_onlySources ..))

theorem bbxFreezeBox_keepsCold (s : State) (d : Nat) (cause : BitVec 3) : KeepsCold s (bbxFreezeBox s d cause) :=
  .ite _ (.refl s) (.ite _ (.modDie ..) (.trans (.modDie ..) (sourceEdge_keepsCold ..)))

theorem bbxRecord_keepsCold (s : State) (d kind arg : Nat) (detail : List Byte) : KeepsCold s (bbxRecord s d kind arg detail) :=
  .ite _ (.modDie ..) (.ite _ (.trans (.modDie ..) (bbxFreezeBox_keepsCold ..)) (.modDie ..))

/-! ### Vertices (R197) -/

theorem modPair_keepsCold (s : State) (c : Nat) (f : Pair → Pair) : KeepsCold s (modPair s c f) := ⟨rfl, rfl, rfl⟩

theorem evalChord_keepsCold (s : State) (c : Nat) (edges : List (Nat × Bool)) : KeepsCold s (evalChord s c edges) := by
  have matched (t : State) (k : Option Nat) : KeepsCold t (matchNow t c k) := .ite _ (modPair_keepsCold ..) (.modChord ..)
  exact (KeepsCold.modChord ..).trans (matched ..)

theorem chordSees_keepsCold (s : State) (c v : Nat) (fired : Bool) : KeepsCold s (chordSees s c v fired) := by
  have base : KeepsCold s (tickBase s c) := .ite _ (.refl s) (.modChord ..)
  simp only [chordSees]
  split
  · exact .refl s
  · split
    case h_1 => exact .ite _ (.refl s) (base.trans (evalChord_keepsCold ..))
    case h_6 => exact .refl s
    all_goals exact .ite _ (.modChord ..) (.refl s)

theorem tellSubs_keepsCold (s : State) (v : Nat) (lvl : Bool) : KeepsCold s (tellSubs s v lvl) := by
  have sent (t : State) (dest : Nat) (it : LinkItem) : KeepsCold t (sendTo t dest it) := by
    unfold sendTo
    split
    · exact .ite _ ⟨rfl, rfl, rfl⟩ (.refl t)
    · exact .refl t
  refine .foldl (fun s e => ?_) _ s
  extract_lets change counted
  have count : KeepsCold s counted := ⟨rfl, rfl, rfl⟩
  exact count.trans (sent ..)

theorem ctxWaitFired_keepsCold (s : State) (d v : Nat) : KeepsCold s (ctxWaitFired s d v) := .modDie ..

/-! ### A machine in which nothing runs -/

/-- No command, held transaction or lead segment is on the lane, and none waits there. -/
structure LaneIdle (l : Lane) : Prop where
  txn : l.txn = none
  queue : l.queue = []
  held : l.held = none
  lead : l.lead = none

/-- Nothing runs on a lane, and no slot holds a program. -/
structure NothingRuns (s : State) : Prop where
  lanes : ∀ n, LaneIdle (s.lane n)
  slots : ∀ e ∈ s.slots, e.2.st = .free

theorem KeepsCold.nothingRuns {s t : State} (h : KeepsCold s t) (idle : NothingRuns s) : NothingRuns t :=
  ⟨fun n => by rw [State.lane, h.lanes]; exact idle.lanes n, by rw [h.slots]; exact idle.slots⟩

section
variable {s : State} (idle : NothingRuns s)
include idle

theorem waitingOn_idle (v : Nat) : waitingOn s v = [] := by
  rw [waitingOn, List.map_eq_nil_iff, List.filter_eq_nil_iff]
  intro e he
  rw [idle.slots e he]
  exact Bool.false_ne_true

theorem vertexSeen_keepsCold (pw : PortWriter) (v : Nat) (lvl : Bool) : KeepsCold s (vertexSeen pw s v lvl) := by
  unfold vertexSeen
  extract_lets noted chords sources told waits
  have h1 : KeepsCold s noted := ⟨rfl, rfl, rfl⟩
  have h2 : KeepsCold noted chords := .foldl (fun s c => chordSees_keepsCold ..) _ _
  have h3 : KeepsCold chords sources := .foldl (fun s n => sourceEdge_keepsCold ..) _ _
  have h4 : KeepsCold sources told := tellSubs_keepsCold ..
  have h5 : KeepsCold told waits := (ctxWaitFired_keepsCold ..).trans (ctxWaitFired_keepsCold ..)
  have seen : KeepsCold s told := ((h1.trans h2).trans h3).trans h4
  split
  · rw [waitingOn_idle ((seen.trans h5).nothingRuns idle)]
    exact seen.trans h5
  · exact seen

theorem vertexSet_keepsCold (pw : PortWriter) (v : Nat) (lvl : Bool) : KeepsCold s (vertexSet pw s v lvl) := by
  have level : KeepsCold s { s with levels := tset false s.levels v lvl } := ⟨rfl, rfl, rfl⟩
  exact .ite _ (.refl s) (level.trans (vertexSeen_keepsCold (level.nothingRuns idle) ..))

theorem fireFault_keepsCold (pw : PortWriter) (d f : Nat) : KeepsCold s (fireFault pw s d f) :=
  .ite _ (.refl s) ((vertexSet_keepsCold idle ..).trans ⟨rfl, rfl, rfl⟩)

end

end Sys2Proof.Machine
end

section
/-! SUPPORT. Proofs about units that fail in a machine in which nothing runs, as at the self-test of a cold reset (R17, R18, R28, R403). -/

namespace Sys2Proof.Machine

/-- Nothing runs, and what faults leave is `c`. -/
structure ColdIdle (c : ColdPart) (s : State) : Prop where
  part : coldPart s = c
  idle : NothingRuns s

theorem mem_tset {α : Type} [DecidableEq α] {d : α} {n : Nat} {a : α} {t : Tab α} {e : Nat × α} (h : e ∈ tset d t n a) : e = (n, a) ∨ e ∈ t := by
  unfold tset at h
  split at h
  · exact .inr (mem_tdel h)
  · exact mem_tput h

theorem tget_default_or_mem {α : Type} (d : α) (t : Tab α) (n : Nat) : tget d t n = d ∨ (n, tget d t n) ∈ t := by
  induction t with
  | nil => exact .inl rfl
  | cons e t ih =>
    obtain ⟨k, b⟩ := e
    by_cases here : k = n
    · subst here
      simp
    · simpa [here, Ne.symm here] using ih

namespace ColdIdle
variable {c : ColdPart} {s : State}

theorem keeps {t : State} (h : ColdIdle c s) (k : KeepsCold s t) : ColdIdle c t := ⟨k.part.trans h.part, k.nothingRuns h.idle⟩

theorem ite {t u : State} (p : Prop) [Decidable p] (ht : ColdIdle c t) (hu : ColdIdle c u) : ColdIdle c (if p then t else u) := by
  split
  · exact ht
  · exact hu

theorem foldl {α : Type} {f : State → α → State} (step : ∀ s a, ColdIdle c s → ColdIdle c (f s a)) (l : List α) (h : ColdIdle c s) :
    ColdIdle c (l.foldl f s) := by
  induction l generalizing s with
  | nil => exact h
  | cons a l ih => exact ih (step s a h)

theorem modLane (h : ColdIdle c s) (n : Nat) {f : Lane → Lane} (idle : ∀ l, LaneIdle l → LaneIdle (f l)) : ColdIdle c (s.modLane n f) where
  part := h.part
  idle.slots := h.idle.slots
  idle.lanes m := by
    rw [State.modLane_lane]
    split
    · exact idle _ (h.idle.lanes n)
    · exact h.idle.lanes m

theorem modSlot (h : ColdIdle c s) (n : Nat) {f : Slot → Slot} (free : ∀ x, x.st = .free → (f x).st = .free) : ColdIdle c (s.modSlot n f) where
  part := h.part
  idle.lanes := h.idle.lanes
  idle.slots e he := by
    have free' : (s.slot n).st = .free := by
      rcases tget_default_or_mem {} s.slots n with unlisted | listed
      · exact congrArg Slot.st unlisted
      · exact h.idle.slots _ listed
    rcases mem_tset he with rfl | he
    · exact free _ free'
    · exact h.idle.slots e he

theorem vertexSet (h : ColdIdle c s) (pw : PortWriter) (v : Nat) (lvl : Bool) : ColdIdle c (vertexSet pw s v lvl) :=
  h.keeps (vertexSet_keepsCold h.idle pw v lvl)

theorem fireFault (h : ColdIdle c s) (pw : PortWriter) (d f : Nat) : ColdIdle c (fireFault pw s d f) :=
  h.keeps (fireFault_keepsCold h.idle pw d f)

end ColdIdle

/-! ### Lanes (R401, R403) -/

theorem laneStreams_keepsCold (s : State) (n : Nat) : KeepsCold s (laneStreams s n) := by
  have raised (t : State) (ch : Nat) : KeepsCold t (xfrRaise t ch) :=
    .ite _ (.of_onlyTargets (raiseNotice_onlyTargets ..)) (.of_onlyTargets (raiseNotice_onlyTargets ..))
  have failed (t : State) (ch : Nat) (code : BitVec 4) : KeepsCold t (xfrFail t ch code) := by
    have stopped : KeepsCold t (t.modXfr ch (fun x => xfrIdleApply { x with st := .error, code := code })) := ⟨rfl, rfl, rfl⟩
    exact .ite _ stopped (stopped.trans (raised ..))
  exact .foldl (fun s ch => .ite _ (failed ..) (.refl s)) _ s

section
variable {c : ColdPart} {s : State} (h : ColdIdle c s)
include h

theorem laneRetired_coldIdle (n : Nat) : ColdIdle c (laneRetired s n) :=
  ((h.modLane n (f := fun l => { l with unit := .retired }) (fun _ l => ⟨l.txn, l.queue, l.held, l.lead⟩)).keeps (.modDie ..)).keeps (laneStreams_keepsCold ..)

/-- A lane on which nothing runs is retired and recorded. -/
theorem laneDies_coldIdle (pw : PortWriter) (n cause sent : Nat) (recv : List Byte) : ColdIdle c (laneDies pw s n cause sent recv) := by
  unfold laneDies
  extract_lets retired recorded ended unheld led
  have dead : ColdIdle c recorded := (laneRetired_coldIdle h n).keeps (bbxRecord_keepsCold ..)
  obtain ⟨txn, queue, held, lead⟩ := dead.idle.lanes n
  have noCommand : ended = recorded := by simp only [ended, txn]
  have noHold : unheld = recorded := by simp only [unheld, noCommand, holdEnds, held]
  have noLead : led = recorded := by simp only [led, noHold, lead]
  rw [noLead, laneNext, queue]
  exact dead

/-- A twin takes over (R401): the lane's pins are its own, and its inputs follow the twin's. -/
theorem twinMoves_coldIdle (pw : PortWriter) (n cause : Nat) : ColdIdle c (twinMoves pw s n cause) := by
  unfold twinMoves
  extract_lets t d marked moved y spared told isolated followed
  have h1 : ColdIdle c moved := h.keeps ⟨rfl, rfl, rfl⟩
  have h2 : ColdIdle c spared := h1.modLane n (fun _ l => ⟨l.txn, l.queue, l.held, l.lead⟩)
  have h3 : ColdIdle c told := h2.keeps (bbxRecord_keepsCold ..)
  have h4 : ColdIdle c isolated := .ite _ h3 (h3.keeps (bbxRecord_keepsCold ..))
  exact (((h4.vertexSet ..).vertexSet ..).fireFault ..)

theorem laneFault_coldIdle (pw : PortWriter) (n cause sent : Nat) (recv : List Byte) : ColdIdle c (laneFault pw s n cause sent recv) := by
  have told : ColdIdle c (unitError s (laneDie n) 1 n (laneUsers s [n])) := h.keeps (.of_onlyTargets (unitError_onlyTargets ..))
  refine .ite _ (laneDies_coldIdle (laneRetired_coldIdle told n) ..) (.ite _ ?_ (laneDies_coldIdle told ..))
  exact .foldl (fun s k h => twinMoves_coldIdle h pw k cause) _ told

/-! ### Engines (R28, R392) -/

theorem pauseLanes_coldIdle (k : Nat) (on : Bool) : ColdIdle c (pauseLanes s k on) :=
  .foldl (fun _ n h => h.modLane n (f := fun l => { l with paused := on && l.txn.isSome }) (fun _ l => ⟨l.txn, l.queue, l.held, l.lead⟩)) _ h

theorem engineFails_coldIdle (pw : PortWriter) (k : Nat) : ColdIdle c (engineFails pw s k) := by
  unfold engineFails
  extract_lets x users failed
  have lost : ColdIdle c failed := by
    have told (t : State) (d unit : Nat) (same : KeepsCold s t) : ColdIdle c (unitError t d 2 unit users) :=
      h.keeps (same.trans (.of_onlyTargets (unitError_onlyTargets ..)))
    unfold failed
    split
    · exact told _ _ _ ⟨rfl, rfl, rfl⟩
    · exact told _ _ _ ⟨rfl, rfl, rfl⟩
    · exact h
  split
  · refine pauseLanes_coldIdle (lost.keeps ?_) k true
    exact ⟨rfl, rfl, rfl⟩
  · refine .foldl (fun s n h => ?_) _ (lost.keeps ⟨rfl, rfl, rfl⟩)
    exact .ite _ (laneFault_coldIdle h ..) h

theorem spareFails_coldIdle (q : Nat) : ColdIdle c (spareFails s q) := by
  have failed : KeepsCold s (s.modRegion q (fun x => { x with spareUnit := .retired, spareBad := true })) := ⟨rfl, rfl, rfl⟩
  exact h.keeps (failed.trans (.of_onlyTargets (unitError_onlyTargets ..)))

/-! ### The self-test (R17, R18) -/

/-- A unit that fails it changes its own unit, or the lanes and engines that fail over. -/
theorem selfTestFails_coldIdle (pw : PortWriter) (u : Nat × Nat) : ColdIdle c (selfTestFails pw s u) := by
  unfold selfTestFails
  split
  · exact .ite _ (laneFault_coldIdle h ..) h
  · exact .ite _ (engineFails_coldIdle h ..) (.ite _ (spareFails_coldIdle h _) h)
  · exact .ite _ (h.modSlot _ (fun _ free => free)) h
  · exact .ite _ (h.keeps ⟨rfl, rfl, rfl⟩) h
  · exact .ite _ (h.keeps ⟨rfl, rfl, rfl⟩) h
  · exact .ite _ (h.keeps ⟨rfl, rfl, rfl⟩) h
  · exact h

end

end Sys2Proof.Machine
end

section
/-! PROOF. A cold reset samples the straps and the OTP (R17, R34, R466, R472, R473, R484). -/

namespace Sys2Proof.Machine

/-! ### A machine with no slot -/

/-- Nothing runs, there is no slot, and what faults leave is `c`. -/
structure ColdEmpty (c : ColdPart) (s : State) : Prop where
  part : coldPart s = c
  lanes : ∀ n, LaneIdle (s.lane n)
  slots : s.slots = []

namespace ColdEmpty
variable {c : ColdPart} {s : State}

theorem coldIdle (h : ColdEmpty c s) : ColdIdle c s := ⟨h.part, h.lanes, by simp [h.slots]⟩

theorem keeps {t : State} (h : ColdEmpty c s) (k : KeepsCold s t) : ColdEmpty c t :=
  ⟨k.part.trans h.part, fun n => by rw [State.lane, k.lanes]; exact h.lanes n, k.slots.trans h.slots⟩

theorem foldl {α : Type} {f : State → α → State} (step : ∀ s a, ColdEmpty c s → ColdEmpty c (f s a)) (l : List α) (h : ColdEmpty c s) :
    ColdEmpty c (l.foldl f s) := by
  induction l generalizing s with
  | nil => exact h
  | cons a l ih => exact ih (step s a h)

theorem setLane (h : ColdEmpty c s) (n : Nat) {l : Lane} (idle : LaneIdle l) : ColdEmpty c { s with lanes := tset {} s.lanes n l } where
  part := h.part
  slots := h.slots
  lanes m := by
    simp only [State.lane, tget_tset]
    split
    · exact idle
    · exact h.lanes m

end ColdEmpty

/-- Every lane of a table made from idle lanes is idle. -/
theorem lanes_foldl_tset_idle {α : Type} {num : α → Nat} {lane : α → Lane} (idle : ∀ a, LaneIdle (lane a)) (l : List α) (t : Tab Lane)
    (start : ∀ n, LaneIdle (tget {} t n)) (n : Nat) : LaneIdle (tget {} (l.foldl (fun t a => tset {} t (num a) (lane a)) t) n) := by
  induction l generalizing t with
  | nil => exact start n
  | cons a l ih =>
    refine ih _ fun m => ?_
    rw [tget_tset]
    split
    · exact idle a
    · exact start m

/-! ### Each half takes its state after reset (R34) -/

theorem halfFresh_coldEmpty {c : ColdPart} {s : State} (noQueue : c.queues = []) (h : ColdEmpty c s) (d : Nat) (code : BitVec 2) :
    ColdEmpty c (halfFresh s d code) := by
  unfold halfFresh
  extract_lets otp lanes s1 s2 s3 s4 s5 s6 s7 s8 s9 s10
  have h1 : ColdEmpty c s1 := h.foldl (fun _ n h => h.setLane n ⟨rfl, rfl, rfl, rfl⟩) lanes
  have h2 : ColdEmpty c s2 := by
    unfold s2
    refine h1.keeps (.foldl (fun _ _ => ?_) _ s1)
    exact ⟨rfl, rfl, rfl⟩
  have h3 : ColdEmpty c s3 := by
    unfold s3
    refine h2.keeps (.foldl (fun _ _ => ?_) _ s2)
    exact ⟨rfl, rfl, rfl⟩
  have h4 : ColdEmpty c s4 := by
    simp only [s4, h3.slots, List.map_nil, List.foldl_nil]
    exact h3
  have h5 : ColdEmpty c s5 := by
    unfold s5
    refine h4.keeps (.foldl (fun s _ => .ite _ ?_ (.refl s)) _ s4)
    exact ⟨rfl, rfl, rfl⟩
  have h6 : ColdEmpty c s6 := by
    unfold s6
    refine h5.keeps (.foldl (fun s _ => .ite _ ?_ (.refl s)) _ s5)
    exact ⟨rfl, rfl, rfl⟩
  have h7 : ColdEmpty c s7 := by
    unfold s7
    refine h6.keeps (.foldl (fun s _ => .ite _ ?_ (.refl s)) _ s6)
    exact ⟨rfl, rfl, rfl⟩
  clear_value s7
  have h8 : ColdEmpty c s8 := by
    have unqueued : s7.queues = [] := (congrArg ColdPart.queues h7.part).trans noQueue
    refine h7.keeps ⟨?_, rfl, rfl⟩
    simp [s8, coldPart, unqueued]
  have h9 : ColdEmpty c s9 := by
    unfold s9
    refine h8.keeps (.foldl (fun _ _ => ?_) _ s8)
    exact ⟨rfl, rfl, rfl⟩
  have h10 : ColdEmpty c s10 := by
    unfold s10
    refine h9.keeps (.foldl (fun _ _ => ?_) _ s9)
    exact ⟨rfl, rfl, rfl⟩
  exact h10.keeps (.modDie _ _)

/-! ### What the self-test finds, and the twins of the OTP (R17, R398) -/

theorem banksJudged_coldEmpty {c : ColdPart} {s : State} (h : ColdEmpty c s) (pw : PortWriter) (d : Nat) : ColdEmpty c (banksJudged pw s d) :=
  h.keeps (.ite _ (fireFault_keepsCold h.coldIdle.idle pw d 7) (.refl s))

theorem otpTwins_keepsCold (s : State) : KeepsCold s (otpTwins s) := by
  have paired (t : State) (a b : Nat) : KeepsCold t (twinSet t a b) := by
    unfold twinSet State.modPkg
    split <;> exact ⟨rfl, rfl, rfl⟩
  exact .foldl (fun s _ => .ite _ (.refl s) (.ite _ (violate_keepsCold ..) (paired ..))) _ s

/-! ### The cold reset -/

/-- What a cold reset samples and keeps, and what it leaves empty. -/
def coldSampled (s : State) (k : Straps) : ColdPart where
  sysId := k.devid
  standby := k.standby
  tiebreak := k.tiebreak
  custody := 0
  split := false
  otp0 := otpCold s.die0.otp k.otpSkip
  otp1 := otpCold s.die1.otp k.otpSkip
  queues := []
  hostMem := s.hostMem
  pilot := 0

/-- Before the units that fail are taken out of service, nothing runs and the straps are sampled. -/
theorem coldAt_base (pw : PortWriter) (s : State) (k : Straps) (failed : List (Nat × Nat)) :
    ∃ t, ColdEmpty (coldSampled s k) t ∧ coldAt pw s k failed = otpTwins (failed.foldl (selfTestFails pw) t) := by
  unfold coldAt
  extract_lets p blank sampled fresh p' b
  have h1 : ColdEmpty (coldSampled s k) sampled :=
    ⟨rfl, lanes_foldl_tset_idle (num := Prod.fst) (lane := fun e : Nat × Lane => { levelA := e.2.levelA, levelB := e.2.levelB })
      (fun _ => ⟨rfl, rfl, rfl, rfl⟩) s.lanes [] (fun _ => ⟨rfl, rfl, rfl, rfl⟩), rfl⟩
  have h2 : ColdEmpty (coldSampled s k) fresh := halfFresh_coldEmpty rfl (halfFresh_coldEmpty rfl h1 0 0) 1 0
  clear_value fresh
  have h3 : ColdEmpty (coldSampled s k) b := h2.keeps ⟨rfl, rfl, rfl⟩
  have h4 : ColdEmpty (coldSampled s k) (ownReach b) := h3.keeps ⟨rfl, rfl, rfl⟩
  exact ⟨_, banksJudged_coldEmpty (banksJudged_coldEmpty h4 pw 0) pw 1, rfl⟩

/-- Whatever units fail, a cold reset samples the straps, leaves host memory, and leaves no queue. -/
theorem coldAt_coldPart (pw : PortWriter) (s : State) (k : Straps) (failed : List (Nat × Nat)) :
    coldPart (coldAt pw s k failed) = coldSampled s k := by
  obtain ⟨t, base, coldAt_eq⟩ := coldAt_base pw s k failed
  have tested : ColdIdle (coldSampled s k) (failed.foldl (selfTestFails pw) t) :=
    base.coldIdle.foldl (fun _ u h => selfTestFails_coldIdle h pw u) failed
  rw [coldAt_eq]
  exact (tested.keeps (otpTwins_keepsCold _)).part

/-- Where no unit fails, no slot is left. -/
theorem coldAt_nil_slots (pw : PortWriter) (s : State) (k : Straps) : (coldAt pw s k []).slots = [] := by
  obtain ⟨t, base, coldAt_eq⟩ := coldAt_base pw s k []
  rw [coldAt_eq]
  exact (base.keeps (otpTwins_keepsCold t)).slots

/-- Settles O39: nothing runs after the reset of the halves, so what a failing unit takes with it leaves the straps, the OTP, custody, the queues and host memory as sampled. -/
theorem coldResetSamplesStraps : Obligations.ColdResetSamplesStraps := by
  intro s k failed
  refine ⟨rfl, _, rfl, ?_⟩
  have sampled := coldAt_coldPart portPw s k failed
  have field {α : Type} (f : ColdPart → α) : f (coldPart (coldAt portPw s k failed)) = f (coldSampled s k) := congrArg f sampled
  refine ⟨field (·.sysId), field (·.standby), field (·.tiebreak), field (·.otp0.inForce), field (·.otp1.inForce), field (·.otp0.skipped),
    field (·.otp1.skipped), rfl, ?_⟩
  rintro rfl
  exact ⟨field (·.custody), field (·.split), field (·.hostMem), coldAt_nil_slots portPw s k, field (·.queues), field (·.pilot)⟩

end Sys2Proof.Machine
end
